-- ==== Sys2Proof/Word.lean ====
section
/-! DEFINITION. The word types of the AZ1640 model and their plainest arithmetic. -/

namespace Sys2Proof

/-- A byte of host memory, of the image area or of a coded block. -/
abbrev Byte := BitVec 8

/-- A dword (R4). -/
abbrev Dword := BitVec 32

/-- A qword (R4). -/
abbrev Qword := BitVec 64

/-- Bits `lo + len - 1` down to `lo` of `w`, as a number (R4: bit 0 is the least significant). -/
def fld {n : Nat} (w : BitVec n) (lo len : Nat) : Nat := (w.toNat / 2 ^ lo) % 2 ^ len

/-- Bit `i` of `w`. -/
def bitOf {n : Nat} (w : BitVec n) (i : Nat) : Bool := w.getLsbD i

/-- The two's-complement value of the low `len` bits of `v`. -/
def signed (len : Nat) (v : Nat) : Int :=
  let u := v % 2 ^ len
  if u < 2 ^ (len - 1) then (u : Int) else (u : Int) - (2 ^ len : Nat)

/-- The low `len` bits of an integer, as a number (R9: assignment keeps the low-order bits). -/
def unsignedOf (len : Nat) (v : Int) : Nat := (v % ((2 ^ len : Nat) : Int)).toNat

/-- Two's-complement wrap of an integer to `len` bits (R9, R153). -/
def wrapS (len : Nat) (v : Int) : Int := signed len (unsignedOf len v)

/-- The two dwords of a qword value, low dword first. -/
def dwordsOf (v : Nat) : List Dword := [BitVec.ofNat 32 v, BitVec.ofNat 32 (v / 2 ^ 32)]

/-- Rounded-up division. -/
def cdiv (a b : Nat) : Nat := (a + b - 1) / b

/-- `v` held between `lo` and `hi`. -/
def clampI (v lo hi : Int) : Int := if v < lo then lo else if hi < v then hi else v

/-- The int64 saturation of R349. -/
def sat64 (v : Int) : Int := clampI v (-(2 ^ 63 : Int)) ((2 ^ 63 : Int) - 1)

/-- The int32 saturation of R348 and R349. -/
def sat32 (v : Int) : Int := clampI v (-(2 ^ 31 : Int)) ((2 ^ 31 : Int) - 1)

end Sys2Proof
end

