-- ==== Sys2Proof/Syntax.lean ====
section
/-! DEFINITION. The commands the AZ1640 block takes: one constructor per row of the operation table.
A mailbox command carries the 64-byte submission entry it is (R385); a received word carries its fields;
an event of the block's own clocks or of a pin carries what the outside world shows at that instant. -/

namespace Sys2Proof

/-- A submission entry: 16 dwords, header dwords 0 to 3 and payload P0 to P11 (R385). -/
structure Entry where
  words : List Dword
deriving DecidableEq, Repr

/-- One store of the host into the submission ring: entry `index` takes `words` (R385). -/
structure RingStore where
  index : Nat
  entry : Entry
deriving DecidableEq, Repr

/-- How a DMA read ends (R59, R106). -/
inductive DmaEnd where
  | ok
  | failed
  | poisoned
deriving DecidableEq, Repr

/-- The sentinels of R261. -/
inductive Sentinel where
  | processor | lineEngine | timebase | headLink | memory | supply
deriving DecidableEq, Repr

/-- What DRAM training finds on the board (R293): one population on every populated channel, or none that is uniform. -/
structure Population where
  uniform : Bool
  chPairs : Nat
  density : Nat
  ranks : Nat
deriving DecidableEq, Repr

/-- What the burst of a DRAM read holds (R303). The AZ1640's placement inside a region is its own. -/
inductive BurstUse where
  | block (page : Nat) (plane layer row col : Nat)
  | rowIndex (page : Nat) (plane layer row : Nat)
  | table (kind index burst : Nat) (line : Int)
  | healthMap (m q : Nat) (clusters : List Nat)
  | clusterState (m q : Nat)
  | expectedDefects (plane : Nat) (line : Int)
  | window (cam plane pix : Nat)
  | censusHistory (ejector : Nat)
  | paperWhite (cam pix : Nat)
  | eventEntry (index : Nat)
  | culletEntry (index : Nat)
  | firmware
  | query (op : Nat)
  | plain
deriving DecidableEq, Repr

/-- A new level of a filtered input (R149): the stamp since which it has stood, and the samples for which it has. -/
structure Edge where
  t : Nat
  held : Nat
deriving DecidableEq, Repr

/-- A trial of 64 training symbols (R208, R209): whether every header was valid, and whether those seen say "locked". -/
structure Trial where
  valid : Bool
  train1 : Bool
deriving DecidableEq, Repr

/-- A group to be brought up, and its rate code in the host's link configuration (R178). -/
structure LinkUp where
  g : Nat
  rate : Nat
deriving DecidableEq, Repr

/-- The body of an upstream MARK (R191): the module's port, the GROUP it echoes, its accepted epoch. -/
structure MarkBody where
  port : Bool
  echo : Nat
  epoch : Dword
deriving DecidableEq, Repr

/-- A row in DRAM (R293, R314). -/
structure Place where
  channel : Nat
  rank : Nat
  bg : Nat
  bank : Nat
  row : Nat
deriving DecidableEq, Repr

/-- What one copy of a burst shows: where the address map puts it, and the byte errors on its read and on its one retry (in
a burst stored poisoned, errors of its inverted check bytes). -/
structure CopyRead where
  place : Place
  errors : Nat
  retryErrors : Nat
deriving DecidableEq, Repr

/-- Who reads a burst (R294): the line engine or the cluster scheduler, any other engine, a burnish pass, a migration's
copy, of the first copy of a burst or of its second one. -/
inductive Reader where
  | print
  | other
  | burnish
  | copy (second : Bool)
deriving DecidableEq, Repr

/-- A read that reaches a channel (R294). -/
structure MemReq where
  place : Place
  addr : Nat
  by_ : Reader
deriving DecidableEq, Repr

/-- A write that reaches a channel (R295): its burst, where the address map puts it and, in a STRONG region, its second copy (R298),
the bytes it writes. -/
structure BurstWrite where
  place : Place
  other : Option Place
  addr : Nat
  mask : BitVec 64
  data : BitVec 512
deriving DecidableEq, Repr

/-- A DRAM read of one burst (R301): the region, its system address, what it holds, the first copy and, in a STRONG
region, the other one, the data they decode to, and the writes that reach the channel between the read and a rewrite of
it (R306). -/
structure BurstRead where
  region : Nat
  addr : Nat
  use : BurstUse
  copy0 : CopyRead
  copy1 : Option CopyRead
  data : BitVec 512
  newer : List BurstWrite
  by_ : Reader
deriving DecidableEq, Repr

/-- A read that may return, and the reads that reached its channel before it (R294). -/
structure ReadTurn where
  arrived : List MemReq
  read : BurstRead
deriving DecidableEq, Repr

/-- A MEM_RETIRE, and the bursts of its row that do not read clean (R315). -/
structure RetireTurn where
  entry : Entry
  row : List BurstRead
deriving DecidableEq, Repr

/-- A VCORE_SET, and what the regulator answers to the read of VOUT_MODE: none where it does not acknowledge (R410). -/
structure VcoreTurn where
  entry : Entry
  voutMode : Option (BitVec 8)
deriving DecidableEq, Repr

/-- A partner message (R268): sequence number, whether its CRC holds, its data words. -/
structure PMsg where
  mseq : Nat
  crcOk : Bool
  words : List Qword
deriving DecidableEq, Repr

/-- The header of a received Ethernet frame (R362): destination MAC address; EtherType; for IPv4 the protocol, destination address and
destination UDP port; for ARP the operation in `proto` and the target address in `dstIp`; of a PTP message the messageType. -/
structure Frame where
  dstMac : Nat
  etherType : Nat
  proto : Nat
  dstIp : Nat
  dstPort : Nat
  message : Nat
deriving DecidableEq, Repr

/-- A PTP port identity: clockIdentity and portNumber. -/
structure PortId where
  clock : Nat
  port : Nat
deriving DecidableEq, Repr

/-- Where a received PTP message comes from (R368): its sourcePortIdentity, its domainNumber, and whether it came over UDP/IPv4. -/
structure PtpFrom where
  id : PortId
  domain : Nat
  udp : Bool
deriving DecidableEq, Repr

/-- A time value in ns with 16 fraction bits, as PTP correction fields carry it. -/
abbrev Ns16 := Int

/-- The quality a grandmaster announces (IEEE 1588 default profile, R368). -/
structure Quality where
  prio1 : Nat
  clockClass : Nat
  accuracy : Nat
  variance : Nat
  prio2 : Nat
  identity : Nat
  steps : Nat
deriving DecidableEq, Repr

inductive Instr where
  -- reset, boot and the mailbox
  | powerOnReset
  | resetN
  | endpointReset
  | chipReset (value : Dword)
  | bootGo (value : Dword) (image : List Byte)
  | bootVerifyDone
  | bootStartDone
  | mbxEnable
  | mbxDisable
  | doorbell (tail : Dword) (ring : List RingStore) (stores : List Host.Cell)
  | timNsecRead
  | registerWrite (offset : Nat) (value : Dword)
  | commandFetch
  | unknownOpcode (e : Entry)
  -- jobs, pages and web
  | jobOpen (e : Entry)
  | jobClose (e : Entry)
  | pageLoad (e : Entry)
  | pageCommit (e : Entry)
  | pageAbort (e : Entry)
  | pageStatus (e : Entry)
  | doffsetSet (e : Entry)
  | xshiftSet (e : Entry)
  | webConfig (e : Entry)
  | encConfig (e : Entry)
  | gearSet (e : Entry)
  | lineReference (e : Entry)
  | paceSet (e : Entry)
  | cueConfig (e : Entry)
  | cueRead (e : Entry)
  | pulseConfig (e : Entry)
  | fireTrim (e : Entry)
  | linkEqLoad (e : Entry)
  | ceaseClear (e : Entry)
  | webStatus (e : Entry)
  | linkStatus (e : Entry)
  -- maps, curves, screens and masks
  | mapPush (e : Entry)
  | curveLoad (e : Entry)
  | screenLoad (e : Entry)
  | stitchLoad (e : Entry)
  | mapRead (e : Entry)
  -- assay
  | assaySetup (e : Entry)
  | assayStop (e : Entry)
  | assayLock (e : Entry)
  | censusRequest (e : Entry)
  | assayResults (e : Entry)
  | assayPixels (e : Entry)
  -- memory
  | memConfig (e : Entry) (found : Population)
  | memRegions (e : Entry)
  | burnishRun (e : Entry)
  | burnishStop (e : Entry)
  | memMigrate (e : Entry)
  | memRetire (turn : RetireTurn)
  | culletRead (e : Entry)
  | memStatus (e : Entry)
  -- motion and control
  | axisConfig (e : Entry)
  | axisMove (e : Entry)
  | axisStop (e : Entry)
  | axisLimits (e : Entry)
  | axisHome (e : Entry)
  | tableLoad (e : Entry)
  | tableRun (e : Entry)
  | axisScale (e : Entry)
  | axisStatus (e : Entry)
  | cspiConfig (e : Entry)
  | loopConfig (e : Entry)
  | loopMode (e : Entry)
  | loopTune (e : Entry)
  | loopSetpoint (e : Entry)
  | loopStatus (e : Entry)
  -- time and network
  | netConfig (e : Entry)
  | ptpConfig (e : Entry)
  | servoConfig (e : Entry)
  | timeSet (e : Entry)
  | timeStep (e : Entry)
  | timeAdj (e : Entry)
  | timeRead (e : Entry)
  | ptpStatus (e : Entry)
  | netStatus (e : Entry)
  -- pairing
  | pairConfig (e : Entry)
  | roleFound (e : Entry)
  | pairRejoin (e : Entry) (partnerVersion : Dword)
  | rejoinAuto (partnerVersion : Dword)
  | pairStatus (e : Entry)
  -- power, security, observation
  | powerState (e : Entry)
  | vcoreSet (turn : VcoreTurn)
  | annealIfDue (e : Entry)
  | annealForce (e : Entry)
  | annealInhibit (e : Entry)
  | keepApplyRecord (e : Entry) (sfdp : Dword)
  | keepReadImage (e : Entry)
  | keepClearSlots (e : Entry) (sfdp : Dword)
  | powerStatus (e : Entry)
  | ceaseIssue (e : Entry)
  | seal (e : Entry) (stopAfter : Option Nat)
  | retire (e : Entry) (stopAfter : Option Nat)
  | rollbackAdvance (e : Entry) (stopAfter : Option Nat)
  | debugChallenge (e : Entry)
  | debugUnlock (e : Entry)
  | moduleAuth (e : Entry)
  | secStatus (e : Entry)
  | quenchArm (e : Entry)
  | quenchDisarm (e : Entry)
  | quenchFire (e : Entry)
  | quenchRead (e : Entry)
  | eventRead (e : Entry)
  | eventMask (e : Entry)
  | counterRead (e : Entry)
  | counterClear (e : Entry)
  | telemetryRead (e : Entry) (rails : List Dword)
  -- page loading
  | dmaReadCompletion (addr len : Nat) (outcome : DmaEnd)
  | blockStore
  -- position and firing
  | encCount (ch : Nat) (a b : Bool) (edge : Edge)
  | indexRise (ch : Nat) (edge : Edge)
  | lineTick (t : Nat)
  | heldTickIssue (t : Nat)
  | pacingTick (t : Nat)
  | webStill (t : Nat)
  | rateReading (t : Nat)
  | paceReading (pace : List Nat)
  | cueCapture (ch : Nat) (rising : Bool) (edge : Edge)
  -- line engine, scheduler
  | recordComplete (m q : Nat) (n : Int)
  | sliceDeadline (m q : Nat) (n : Int)
  | refillFix
  | schedLate (m q : Nat) (n : Int)
  | recordRelease (m : Nat)
  | overspeed
  | mapApplied
  | generationForm
  -- pairing pins and health
  | healthPulse
  | sentinelLapse (which : Sentinel)
  | roleSelRise
  | roleSelFall
  | ceaseN
  | ceaseNRelease
  | ceaseUnconfirmed
  | supplySag
  | saveDone (written : Bool)
  | quenchPin
  | quenchLatch
  -- lanes and groups
  | laneDetect (lane : Nat)
  | polarityCount (lane ones : Nat)
  | slipTrial (lane : Nat) (trial : Trial)
  | markLock (lane : Nat) (logical : Nat)
  | groupBringup (link : LinkUp)
  | spareAbsent (g : Nat)
  | los (lane : Nat)
  | lol (lane : Nat) (markMissing : Bool)
  | restripeReq (g llane cause : Nat)
  | restripe (g llane phys sfn slot : Nat)
  | restripeSwitch (g : Nat) (upstream : Bool)
  -- words from modules
  | mark (g : Nat) (body : MarkBody)
  | held (g q rseq : Nat) (nLo : Dword)
  | resend (g q rseq : Nat)
  | status (g : Nat) (body : BitVec 48)
  | mapack (g : Nat) (ok unprompted : Bool) (gen : Dword)
  | mcrcTimeout (g : Nat)
  | ehr (g cause : Nat) (addr : Dword)
  | tmdata (g offset : Nat) (data : Dword)
  | temp (g sensor : Nat) (value : BitVec 16)
  | echoRsp (g : Nat) (token turn roundTrip : Nat)
  | latencyMeasure (g : Nat)
  | fault (g q kind count : Nat)
  | ceased (g cseq : Nat)
  -- cameras and the assay
  | scan (k trig pix0 npix : Nat) (deep : Bool)
  | scanend (k trig : Nat) (crc : Dword) (words : List (BitVec 64))
  | censusDone (plane : Nat)
  | assayMap
  | assayCurves
  -- the partner link
  | gen (msg : PMsg)
  | curves (msg : PMsg)
  | page (msg : PMsg)
  | pageend (msg : PMsg)
  | posref (msg : PMsg) (edgeNear : Bool) (countsSince : List Int)
  | motion (msg : PMsg)
  | tsync (msg : PMsg) (t4 : Int)
  | digest (msg : PMsg)
  | block (msg : PMsg)
  | locks (msg : PMsg)
  | prho (tickLo rho : Nat)
  | poos (m q cause : Nat) (nLo : Dword)
  | ptsync (token : Nat)
  | ptsyncSend
  | posrefSend
  | motionSend
  | locksSend
  | partnerMark (role : Nat) (epoch : Dword)
  | partnerDown
  | partnerUp
  -- memory controller
  | memRead (turn : ReadTurn)
  | writeDrain (ch : Nat) (arrived : List BurstWrite)
  | refreshDue (ch rank : Nat) (arrived : List MemReq)
  | dramTempRead (ch rank : Nat) (above85 : Bool)
  | burnishDone
  | migrationStart (ch rank : Nat)
  | rankMigrated (ch : Nat)
  | fwReload (addr : Nat)
  -- motion and control engines
  | planningStep
  | switchSample (levels : BitVec 24)
  | stall (ax : Nat)
  | holdCurrent (ax : Nat)
  | loopSample (late : List Nat)
  | cspiTransfer (dev : Nat) (frame : Dword)
  | ainConversion (i : Nat) (code : BitVec 16)
  -- time and network engines
  | timeTick
  | sync (port : Nat) (src : PtpFrom) (twoStep : Bool) (origin rx : Ns16) (correction : Ns16)
  | followUp (port : Nat) (src : PtpFrom) (origin : Ns16) (correction : Ns16)
  | delayReq (port : Nat) (src : PtpFrom) (rx : Ns16) (correction : Ns16)
  | delayResp (port : Nat) (src : PtpFrom) (rx : Ns16) (correction : Ns16)
  | announce (port : Nat) (src : PtpFrom) (quality : Quality) (utcOffset : Int)
  | arpRequest (port : Nat) (target : Dword)
  | frameForward (port bytes : Nat) (frame : Frame) (inMac outMac : Ns16) (correction : Ns16)
  | syncSend
  | announceSend
  | delayReqSend (txMac : Ns16)
  | syncTimeout
  | announceTimeout
  | netLink (port : Nat) (up : Bool)
  | rateWindow
  | challengeLapse
  | temperatureSample (temps : List Int)
  | annealStart
  | annealDone (pass : Bool)
  | ainRecalibrate (i : Nat)
  | calibRecompute
  -- test access port
  | jtagInstruction (code : BitVec 8)
  | dbgAccessRead (reg : BitVec 96)
  | dbgAccessWrite (reg : BitVec 96)
  -- discarded words and hardware alerts
  | chkFail (lane : Nat)
  | stuffingViolation (lane : Nat)
  | cmdError (ch rank : Nat) (recurs : Bool)
  | frameDiscarded (port : Nat)
  | refTimeout
  | powerLoss
  | voutSettled (readback : Option Nat)
deriving DecidableEq, Repr

end Sys2Proof
end

