-- ==== Sys2Proof/Machine/Crypto.lean ====
section
/-! DEFINITION. SHA-384 and ECDSA over P-384 (R437): the published standards FIPS 180-4 and FIPS 186-5 that the
hallmark, the debug unlock and module authentication name. PRESUMED: the standards' constants. -/

namespace Sys2Proof.Machine

/-- A number of big-endian bytes. -/
def beNat (bs : List Byte) : Nat := bs.foldl (fun a b => a * 256 + b.toNat) 0

/-- The `n` big-endian bytes of `v`. -/
def beBytes (n v : Nat) : List Byte := (List.range n).reverse.map fun i => BitVec.ofNat 8 (v / 256 ^ i)

/-- The round constants of SHA-384 (FIPS 180-4). -/
def shaK : List Qword :=
  [0x428A2F98D728AE22, 0x7137449123EF65CD, 0xB5C0FBCFEC4D3B2F, 0xE9B5DBA58189DBBC] ++
  [0x3956C25BF348B538, 0x59F111F1B605D019, 0x923F82A4AF194F9B, 0xAB1C5ED5DA6D8118] ++
  [0xD807AA98A3030242, 0x12835B0145706FBE, 0x243185BE4EE4B28C, 0x550C7DC3D5FFB4E2] ++
  [0x72BE5D74F27B896F, 0x80DEB1FE3B1696B1, 0x9BDC06A725C71235, 0xC19BF174CF692694] ++
  [0xE49B69C19EF14AD2, 0xEFBE4786384F25E3, 0x0FC19DC68B8CD5B5, 0x240CA1CC77AC9C65] ++
  [0x2DE92C6F592B0275, 0x4A7484AA6EA6E483, 0x5CB0A9DCBD41FBD4, 0x76F988DA831153B5] ++
  [0x983E5152EE66DFAB, 0xA831C66D2DB43210, 0xB00327C898FB213F, 0xBF597FC7BEEF0EE4] ++
  [0xC6E00BF33DA88FC2, 0xD5A79147930AA725, 0x06CA6351E003826F, 0x142929670A0E6E70] ++
  [0x27B70A8546D22FFC, 0x2E1B21385C26C926, 0x4D2C6DFC5AC42AED, 0x53380D139D95B3DF] ++
  [0x650A73548BAF63DE, 0x766A0ABB3C77B2A8, 0x81C2C92E47EDAEE6, 0x92722C851482353B] ++
  [0xA2BFE8A14CF10364, 0xA81A664BBC423001, 0xC24B8B70D0F89791, 0xC76C51A30654BE30] ++
  [0xD192E819D6EF5218, 0xD69906245565A910, 0xF40E35855771202A, 0x106AA07032BBD1B8] ++
  [0x19A4C116B8D2D0C8, 0x1E376C085141AB53, 0x2748774CDF8EEB99, 0x34B0BCB5E19B48A8] ++
  [0x391C0CB3C5C95A63, 0x4ED8AA4AE3418ACB, 0x5B9CCA4F7763E373, 0x682E6FF3D6B2B8A3] ++
  [0x748F82EE5DEFB2FC, 0x78A5636F43172F60, 0x84C87814A1F0AB72, 0x8CC702081A6439EC] ++
  [0x90BEFFFA23631E28, 0xA4506CEBDE82BDE9, 0xBEF9A3F7B2C67915, 0xC67178F2E372532B] ++
  [0xCA273ECEEA26619C, 0xD186B8C721C0C207, 0xEADA7DD6CDE0EB1E, 0xF57D4F7FEE6ED178] ++
  [0x06F067AA72176FBA, 0x0A637DC5A2C898A6, 0x113F9804BEF90DAE, 0x1B710B35131C471B] ++
  [0x28DB77F523047D84, 0x32CAAB7B40C72493, 0x3C9EBE0A15C9BEBC, 0x431D67C49C100D4C] ++
  [0x4CC5D4BECB3E42B6, 0x597F299CFC657E2A, 0x5FCB6FAB3AD6FAEC, 0x6C44198C4A475817]

/-- The initial hash value of SHA-384 (FIPS 180-4). -/
def shaInit : List Qword :=
  [0xCBBB9D5DC1059ED8, 0x629A292A367CD507, 0x9159015A3070DD17, 0x152FECD8F70E5939,
   0x67332667FFC00B31, 0x8EB44A8768581511, 0xDB0C2E0D64F98FA7, 0x47B5481DBEFA4FA4]

/-- The padded message, as words of 64 bits. -/
def shaWords (bs : List Byte) : List Qword :=
  let zeros := (239 - bs.length % 128) % 128
  let padded := bs ++ [0x80] ++ List.replicate zeros 0 ++ beBytes 16 (8 * bs.length)
  (List.range (padded.length / 8)).map fun i => BitVec.ofNat 64 (beNat ((padded.drop (8 * i)).take 8))

/-- The message schedule: the 80 words of one block, newest first. -/
def shaSchedule (block : List Qword) : List Qword :=
  (List.range 64).foldl (fun w _ =>
    let g := fun (i : Nat) => w.getD (i - 1) 0
    let s0 := (g 15).rotateRight 1 ^^^ (g 15).rotateRight 8 ^^^ (g 15 >>> 7)
    let s1 := (g 2).rotateRight 19 ^^^ (g 2).rotateRight 61 ^^^ (g 2 >>> 6)
    (g 16 + s0 + g 7 + s1) :: w) block.reverse

/-- One block folded into the hash value. -/
def shaBlock (h block : List Qword) : List Qword :=
  let w := (shaSchedule block).reverse
  let v := (List.range 80).foldl (fun v i =>
    let a := v.getD 0 0; let b := v.getD 1 0; let c := v.getD 2 0; let d := v.getD 3 0
    let e := v.getD 4 0; let f := v.getD 5 0; let g := v.getD 6 0; let x := v.getD 7 0
    let s1 := e.rotateRight 14 ^^^ e.rotateRight 18 ^^^ e.rotateRight 41
    let t1 := x + s1 + ((e &&& f) ^^^ (~~~e &&& g)) + shaK.getD i 0 + w.getD i 0
    let s0 := a.rotateRight 28 ^^^ a.rotateRight 34 ^^^ a.rotateRight 39
    let t2 := s0 + ((a &&& b) ^^^ (a &&& c) ^^^ (b &&& c))
    [t1 + t2, a, b, c, d + t1, e, f, g]) h
  List.zipWith (· + ·) h v

/-- SHA-384 of a byte sequence, as a 384-bit number in output order (R437). -/
def sha384 (bs : List Byte) : BitVec 384 :=
  let ws := shaWords bs
  let h := (List.range (ws.length / 16)).foldl (fun h i => shaBlock h ((ws.drop (16 * i)).take 16)) shaInit
  BitVec.ofNat 384 ((h.take 6).foldl (fun a w => a * 2 ^ 64 + w.toNat) 0)

/-- The field prime of P-384. -/
def p384P : Nat := 2 ^ 384 - 2 ^ 128 - 2 ^ 96 + 2 ^ 32 - 1

/-- The group order of P-384. -/
def p384N : Nat := 0xFFFFFFFFFFFFFFFFFFFFFFFFFFFFFFFFFFFFFFFFFFFFFFFFC7634D81F4372DDF581A0DB248B0A77AECEC196ACCC52973

/-- The curve constant b of P-384. -/
def p384B : Nat := 0xB3312FA7E23EE7E4988E056BE3F82D19181D9C6EFE8141120314088F5013875AC656398D8A2ED19D2A85C8EDD3EC2AEF

/-- The base point of P-384. -/
def p384G : Nat × Nat :=
  (0xAA87CA22BE8B05378EB1C71EF320AD746E1D3B628BA79B9859F741E082542A385502F25DBF55296C3A545E3872760AB7,
   0x3617DE4A96262C6F5D9E98BF9292DC29F8F41DBD289A147CE9DA3113B5F0B8C00A60B1CE1D7E819D7A431D7C90EA0E5F)

/-- `b` to the power `e` modulo `m`, over the bits of `e`. -/
def powMod (m b e : Nat) : Nat :=
  ((List.range 384).reverse.foldl (fun acc i => let sq := acc * acc % m; if e.testBit i then sq * b % m else sq) 1) % m

/-- The inverse of `a` modulo a prime `m` (Fermat). -/
def invMod (m a : Nat) : Nat := powMod m (a % m) (m - 2)

/-- The difference of two residues. -/
def subMod (m a b : Nat) : Nat := (a % m + m - b % m) % m

/-- Point addition on P-384; `none` is the point at infinity. -/
def p384Add (u v : Option (Nat × Nat)) : Option (Nat × Nat) :=
  match u, v with
  | none, q => q
  | q, none => q
  | some (x1, y1), some (x2, y2) =>
    if x1 = x2 ∧ (y1 + y2) % p384P = 0 then none
    else
      let l := if x1 = x2 then subMod p384P (3 * x1 * x1) 3 * invMod p384P (2 * y1)
               else subMod p384P y2 y1 * invMod p384P (subMod p384P x2 x1)
      let x := subMod p384P (l * l) (x1 + x2)
      some (x, subMod p384P (l * subMod p384P x1 x) y1)

/-- `k` times a point. -/
def p384Mul (k : Nat) (q : Option (Nat × Nat)) : Option (Nat × Nat) :=
  (List.range 384).reverse.foldl (fun acc i =>
    let d := p384Add acc acc
    if k.testBit i then p384Add d q else d) none

/-- ECDSA verification over P-384 of a digest (R437): the key is X then Y, the signature r then s, each 48 bytes. -/
def ecdsaVerify (key : List Byte) (digest : BitVec 384) (sig : List Byte) : Bool :=
  let x := beNat (key.take 48)
  let y := beNat ((key.drop 48).take 48)
  let r := beNat (sig.take 48)
  let v := beNat ((sig.drop 48).take 48)
  if x < p384P ∧ y < p384P ∧ y * y % p384P = subMod p384P (x * x * x + p384B) (3 * x) ∧
      0 < r ∧ r < p384N ∧ 0 < v ∧ v < p384N then
    let w := invMod p384N v
    let q := p384Add (p384Mul (digest.toNat * w % p384N) (some p384G)) (p384Mul (r * w % p384N) (some (x, y)))
    match q with
    | none => false
    | some (qx, _) => qx % p384N == r
  else false

end Sys2Proof.Machine
end

