-- ==== Sys2Proof/Machine/Codec.lean ====
section
/-! DEFINITION. The block bitstream: decoding (R66 to R72) and the on-chip encoder (R73, R74). Samples are kept latest
first, so that a sample `d` positions back is entry `d - 1`. -/

namespace Sys2Proof.Machine

/-- The bits of bytes, bit 7 of each first (R66). -/
def bitsOf (bs : List Byte) : List Bool := bs.flatMap fun b => (List.range 8).map fun i => b.getLsbD (7 - i)

/-- The value of bits, most-significant first. -/
def bitsVal (bs : List Bool) : Nat := bs.foldl (fun a b => 2 * a + if b then 1 else 0) 0

/-- `w` bits of `v`, most-significant first. -/
def valBits (w v : Nat) : List Bool := (List.range w).map fun i => v.testBit (w - 1 - i)

/-- The bytes of bits, the last byte filled with 0 (R66). -/
def packBits (bs : List Bool) : List Byte :=
  (List.range (cdiv bs.length 8)).map fun i =>
    BitVec.ofNat 8 (bitsVal ((List.range 8).map fun j => bs.getD (8 * i + j) false))

/-- `read(w)`: the next `w` bits, or `none` past the end. -/
def readBits (w : Nat) (bs : List Bool) : Option (Nat × List Bool) :=
  if bs.length < w then none else some (bitsVal (bs.take w), bs.drop w)

/-- The prediction of R68, from the samples before position `pos`. -/
def predict (rev : List Nat) (pos : Nat) : Nat :=
  if pos = 0 then 0
  else if pos < 16 then rev.getD 0 0
  else if pos % 16 = 0 then rev.getD 15 0
  else
    let a := rev.getD 0 0
    let b := rev.getD 15 0
    let c := rev.getD 16 0
    if max a b ≤ c then min a b else if c ≤ min a b then max a b else a + b - c

/-- OFFS of R71. -/
def copyOffset (i : Nat) : Nat := [16, 1, 32, 2, 15, 17, 4, 8].getD i 0

/-- The unary part of a Rice code: the ones before the first zero, at most 12. -/
def riceOnes : Nat → Nat → List Bool → Option (Nat × List Bool)
  | 0, q, bs => some (q, bs)
  | _ + 1, _, [] => none
  | fuel + 1, q, b :: bs => if b then riceOnes fuel (q + 1) bs else some (q, bs)

/-- The Rice code of R69. -/
def readRice (k w : Nat) (bs : List Bool) : Option (Nat × List Bool) :=
  match riceOnes 12 0 bs with
  | none => none
  | some (q, rest) =>
    if q = 12 then readBits w rest
    else (readBits k rest).map fun r => (q * 2 ^ k + r.1, r.2)

/-- How decoding ends: the samples in raster order and the bits left, a read past the end, a mode a host stream may not
use, or a failed stream. -/
inductive Decoded where
  | ok (samples : List Nat) (rest : List Bool)
  | pastEnd
  | badMode
  | bad
deriving DecidableEq, Repr

/-- `n` samples, each its own prediction. -/
def zeroRun : Nat → List Nat → Nat → List Nat
  | 0, rev, _ => rev
  | n + 1, rev, pos => zeroRun n (predict rev pos :: rev) (pos + 1)

/-- `n` samples, each the one `d` positions earlier. -/
def copyRun (d : Nat) : Nat → List Nat → List Nat
  | 0, rev => rev
  | n + 1, rev => copyRun d n (rev.getD (d - 1) 0 :: rev)

/-- The sample a literal gives: prediction plus the residual of M, modulo 2^B (R68). -/
def literal (b pred m : Nat) : Nat :=
  if m % 2 = 0 then (pred + m / 2) % 2 ^ b else (pred + 2 ^ b - (m + 1) / 2) % 2 ^ b

/-- The tokens of a coded stream (R70, R72), `rev` holding `pos` samples. -/
def decodeTokens (b k : Nat) : Nat → List Nat → Nat → List Bool → Decoded
  | 0, rev, _, bs => .ok rev.reverse bs
  | fuel + 1, rev, pos, bs =>
    if 256 ≤ pos then .ok rev.reverse bs
    else
      match bs with
      | false :: r1 =>
        match readRice k b r1 with
        | none => .pastEnd
        | some (m, r2) =>
          if 2 ^ b ≤ m then .bad else decodeTokens b k fuel (literal b (predict rev pos) m :: rev) (pos + 1) r2
      | true :: false :: r1 =>
        match readRice 3 8 r1 with
        | none => .pastEnd
        | some (m, r2) =>
          if 256 - pos < m + 1 then .bad else decodeTokens b k fuel (zeroRun (m + 1) rev pos) (pos + (m + 1)) r2
      | true :: true :: r1 =>
        match readBits 3 r1 with
        | none => .pastEnd
        | some (i, r2) =>
          match readRice 2 8 r2 with
          | none => .pastEnd
          | some (m, r3) =>
            let d := copyOffset i
            if pos < d ∨ 256 - pos < m + 2 then .bad
            else decodeTokens b k fuel (copyRun d (m + 2) rev) (pos + (m + 2)) r3
      | _ => .pastEnd

/-- Raw samples of `b` bits (R67). -/
def readRaw (b : Nat) : Nat → List Nat → List Bool → Decoded
  | 0, rev, bs => .ok rev.reverse bs
  | n + 1, rev, bs =>
    match readBits b bs with
    | none => .pastEnd
    | some (v, rest) => readRaw b n (v :: rev) rest

/-- Bits of K: 3 for contone, 1 for the 2-bit layers (R67). -/
def kBits (b : Nat) : Nat := if b = 8 then 3 else 1

/-- Decode one block stream (R72), answering its mode too. -/
def decodeBits (b : Nat) (bs : List Bool) : Nat × Decoded :=
  match readBits 2 bs with
  | none => (0, .pastEnd)
  | some (1, r) => (1, readRaw b 256 [] r)
  | some (0, r) =>
    match readBits (kBits b) r with
    | none => (0, .pastEnd)
    | some (k, r2) => (0, decodeTokens b k 256 [] 0 r2)
  | some (m, _) => (m, .badMode)

/-- The bytes a stream of `total` bits with `rest` left has used, whole bytes (R66). -/
def bytesUsed (total rest : Nat) : Nat := cdiv (total - rest) 8

/-! The encoder. -/

/-- A token of R70: literal residual code M, zero run of n, copy with index and n. -/
inductive Token where
  | lit (m : Nat)
  | zero (n : Nat)
  | copy (i n : Nat)
deriving DecidableEq, Repr

/-- The residual of a sample mapped to M (R68). -/
def residual (b v pred : Nat) : Nat :=
  let e := (v + 2 ^ b - pred) % 2 ^ b
  if e < 2 ^ (b - 1) then 2 * e else 2 * (2 ^ b - e) - 1

/-- The samples from here that equal their prediction (R73). -/
def zeroLength : List Nat → List Nat → Nat → Nat
  | [], _, _ => 0
  | v :: vs, rev, pos => if v = predict rev pos then zeroLength vs (v :: rev) (pos + 1) + 1 else 0

/-- The samples from here that equal the one `d` earlier (R73). -/
def copyLength (d : Nat) : List Nat → List Nat → Nat
  | [], _ => 0
  | v :: vs, rev => if v = rev.getD (d - 1) 0 then copyLength d vs (v :: rev) + 1 else 0

/-- The best copy over indices 0 to `e`: length and index, ties keeping the lower index (R73). -/
def bestCopy (e : Nat) (rest rev : List Nat) (pos : Nat) : Nat × Nat :=
  (List.range (e + 1)).foldl (fun acc i =>
    let d := copyOffset i
    let n := if d ≤ pos then copyLength d rest rev else 0
    if acc.1 < n then (n, i) else acc) (0, 0)

/-- The token at a position (R73). -/
def chooseToken (b e : Nat) (rest rev : List Nat) (pos : Nat) : Token :=
  let nz := zeroLength rest rev pos
  let (nc, ci) := bestCopy e rest rev pos
  if 2 ≤ nc ∧ nz < nc then .copy ci nc
  else if 2 ≤ nz then .zero nz
  else .lit (residual b (rest.headD 0) (predict rev pos))

/-- The samples a token covers. -/
def tokenLength : Token → Nat
  | .lit _ => 1
  | .zero n => n
  | .copy _ n => n

/-- The tokens of a block (R73). -/
def tokens (b e : Nat) : Nat → List Nat → List Nat → Nat → List Token
  | 0, _, _, _ => []
  | _ + 1, [], _, _ => []
  | fuel + 1, rest, rev, pos =>
    let t := chooseToken b e rest rev pos
    let n := tokenLength t
    t :: tokens b e fuel (rest.drop n) ((rest.take n).reverse ++ rev) (pos + n)

/-- The Rice code of a value, escaping exactly from q = 12 (R69). -/
def riceBits (k w v : Nat) : List Bool :=
  if 12 ≤ v / 2 ^ k then List.replicate 12 true ++ valBits w v
  else List.replicate (v / 2 ^ k) true ++ false :: valBits k (v % 2 ^ k)

/-- A token's bits (R70). -/
def tokenBits (b k : Nat) : Token → List Bool
  | .lit m => false :: riceBits k b m
  | .zero n => true :: false :: riceBits 3 8 (n - 1)
  | .copy i n => true :: true :: (valBits 3 i ++ riceBits 2 8 (n - 2))

/-- A coded stream with parameter K. -/
def codedBits (b k : Nat) (ts : List Token) : List Bool :=
  false :: false :: (valBits (kBits b) k ++ ts.flatMap (tokenBits b k))

/-- The on-chip encoder (R73, R74): the K of the shortest stream, the lowest winning ties. -/
def encodeBlock (b effort : Nat) (samples : List Nat) : List Byte :=
  let ts := tokens b effort 256 samples [] 0
  let best := (List.range (2 ^ kBits b)).foldl (fun (acc : Option (List Bool)) k =>
    let bits := codedBits b k ts
    match acc with
    | none => some bits
    | some old => if bits.length < old.length then some bits else some old) none
  packBits (best.getD [])

end Sys2Proof.Machine
end

