-- ==== Sys2Proof/Config.lean ====
section
/-! DEFINITION. What an implementation fixes and the spec leaves open: uninterpreted constants, with no body, so that
nothing can be proved of their values. -/

namespace Sys2Proof.Config

/-- The unique identity of the chip (R431), written at the factory. -/
opaque uid : BitVec 128

/-- KEY_HASH0 to KEY_HASH2 (R431): SHA-384 of Prabeisk's production, development and service keys. -/
opaque keyHash : Nat → BitVec 384

/-- The n-th 48-byte nonce of the on-chip random source (R442). -/
opaque nonce : Nat → BitVec 384

/-- Whether an event code is raised by hardware or by Finbuly (R459, bit HW), which the spec does not list per event. -/
opaque eventFromHw : Nat → Bool

/-- The n-th value the spec leaves undefined (a drop value read from a record after a debug write, a reading the spec
bounds but does not state). -/
opaque freeValue : Nat → BitVec 64

/-- The measured density log10(W / Y) where paper white W is 0, in 1/65,536: the spec states none. -/
opaque densityNoWhite : Nat → Int

/-- A census drop's 1 − Y / W where paper white W is 0, in 1/65,536: the spec states none. -/
opaque dropNoWhite : Nat → Int

/-- The SIGNAL field of a verdict byte where R_ref is 0 or less: the spec states none. -/
opaque signalNoRef : Int → Nat

end Sys2Proof.Config
end

