-- ==== Sys2Proof/Machine/Sparse.lean ====
section
/-! DEFINITION. Sparse maps: association lists in one canonical form (keys strictly rising, no entry equal to what an
unlisted key reads as). Host memory, counters, curve tables, health codes and next-free ticks are held this way. -/

namespace Sys2Proof.Machine

/-- A sparse map: the listed keys and their values. -/
abbrev Sparse (α : Type) := List (Nat × α)

/-- What key `k` reads as: its listed value, or `d`. -/
def mapGet {α : Type} (d : α) (m : Sparse α) (k : Nat) : α := ((m.find? fun e => e.1 == k).map Prod.snd).getD d

/-- The map with key `k` removed. -/
def mapErase {α : Type} (m : Sparse α) (k : Nat) : Sparse α := m.filter fun e => e.1 != k

/-- The map with key `k` listed at `v`, between the keys below it and the keys above it. -/
def mapInsert {α : Type} (m : Sparse α) (k : Nat) (v : α) : Sparse α :=
  (m.filter fun e => decide (e.1 < k)) ++ (k, v) :: m.filter fun e => decide (k < e.1)

/-- Key `k` set to `v`: writing what an unlisted key reads as removes the entry, so equal maps are equal data. -/
def mapSet {α : Type} [DecidableEq α] (d : α) (m : Sparse α) (k : Nat) (v : α) : Sparse α :=
  if v = d then mapErase m k else mapInsert m k v

/-- The canonical form of a sparse map: keys rise strictly, and no value is `d`. -/
def mapWf {α : Type} [DecidableEq α] (d : α) (m : Sparse α) : Bool :=
  decide (m.Pairwise fun a b => a.1 < b.1) && m.all fun e => decide (e.2 ≠ d)

/-- Several keys set, in list order. -/
def mapSetAll {α : Type} [DecidableEq α] (d : α) (m : Sparse α) (kvs : List (Nat × α)) : Sparse α :=
  kvs.foldl (fun acc kv => mapSet d acc kv.1 kv.2) m

end Sys2Proof.Machine
end

