-- ==== Sys2Proof/Machine/State.lean ====
section
/-! DEFINITION. The state of the AZ1640 as plain data, block by block, and the state right after reset.
Each field's docstring names the rule of spec/ that gives it; the reset values the spec does not state are named in
the assumption log. -/

namespace Sys2Proof.Machine

/-- Boot state of R382. -/
inductive BootState where
  | waitImage | verifying | starting | running | refused | reloadRequired
deriving DecidableEq, Repr

/-- Pair state of R259. -/
inductive PairState where
  | syncing | shadow | gaffer | failed
deriving DecidableEq, Repr

/-- Power state of R405. -/
inductive PowerState where
  | print | ready | parked | sleep | save | off
deriving DecidableEq, Repr

/-- Debug level of R439. -/
inductive DebugLevel where
  | closed | observe | full
deriving DecidableEq, Repr

/-- Lane state of R209. -/
inductive LaneState where
  | down | detect | polarity | slip | lock | ordered | run
deriving DecidableEq, Repr

/-- Page state of R79. -/
inductive PageState where
  | loading | loaded | admitted | printing | done | aborted
deriving DecidableEq, Repr

/-- Record kind of R87. -/
inductive RecKind where
  | print | idle | late | cut
deriving DecidableEq, Repr

/-- Servo state of R372. -/
inductive ServoState where
  | free | acquiring | locked | holdover
deriving DecidableEq, Repr

/-- Axis state of R325. -/
inductive AxisState where
  | disabled | idle | moving | table | homing | velocity | follower | stalled
deriving DecidableEq, Repr

/-- Loop mode of R350. -/
inductive LoopMode where
  | off | manual | auto | faulted
deriving DecidableEq, Repr

/-- Rank state of R317. -/
inductive RankState where
  | inService | spare | migratingFrom | migratingTo | retired
deriving DecidableEq, Repr

/-- One command to the keep device (R416): the opcode and its complement, the address in `addrBytes` bytes (0 for none), the
dummy cycles, the dwords written and the bytes read. -/
structure Xspi where
  op : Nat
  complement : Nat
  addrBytes : Nat
  addr : Nat
  dummy : Nat
  data : List Dword
  reads : Nat
deriving DecidableEq, Repr

/-- What leaves the chip: words on the links, interrupts, pulses, steps, frames, bus transfers. -/
inductive Sent where
  | xspi (x : Xspi)
  | pmbusRead (addr code : Nat)
  | ctrl (g : Nat) (w : Qword)
  | lane (lane : Nat) (w : Qword)
  | data (g : Nat) (ws : List Qword)
  | partner (w : Qword)
  | partnerData (ws : List Qword)
  | irq (vector : Nat)
  | pulse (out start width : Nat) (activeLow : Bool)
  | step (ax : Nat) (dir : Bool) (times : List Nat)
  | spi (dev : Nat) (frame : Dword)
  | pmbus (addr : Nat) (word : Nat)
  | eth (port kind : Nat) (fields : List Int)
  | health (ready : Bool)
  | tdo (bits value : Nat)
  | dramDword (addr : Nat) (data : Dword)
  | dramWrite (place : Place) (addr : Nat) (mask : BitVec 64) (data : BitVec 512) (poison : Bool)
  | epWrite (addr bytes : Nat)
deriving DecidableEq, Repr

/-- A value per key with the changes stamped with web lines (R43): `base` before every change, then each
`(key, line, value)` in commit order, a later one for the same key and line replacing an earlier one (R16). -/
structure Timed where
  base : Sparse Int
  changes : List (Nat × Int × Int)
deriving DecidableEq, Repr

/-- A submission entry in the ring with the pair state and epoch latched at its doorbell (R266, R385). -/
structure RingSlot where
  index : Nat
  entry : Entry
  latch : PairState
  epoch : Dword
  seen : Nat
deriving DecidableEq, Repr

/-- A command in flight (R387): fetched, completion not yet written. `committed` once it reached its commit point and
still runs; `seen` counts the challenges issued before its doorbell (R443); `discard` once an endpoint reset discards its completion (R379); `note` is what the running command keeps. -/
structure InFlight where
  entry : Entry
  latch : PairState
  epoch : Dword
  seen : Nat
  committed : Bool
  discard : Bool
  note : List Nat
deriving DecidableEq, Repr

/-- Boot (R382, R383, R436, R447). -/
structure Boot where
  state : BootState
  cause : Nat
  image : List Byte
  imageLen : Nat
  fwVersion : Dword
  imgRollback : Nat
  keySlot : Nat
deriving DecidableEq, Repr

/-- The direct register window and the mailbox (R380, R385 to R389). -/
structure Mbx where
  enable : Bool
  sqTail : Nat
  sqHead : Nat
  cqHead : Nat
  cqBase : Qword
  cqIndex : Nat
  cqUnread : Nat
  phase : Bool
  ring : List RingSlot
  inFlight : List InFlight
  scratch : Dword
  msix : Sparse Dword
  pba : Dword
  pcieWidth : Nat
  pcieMts : Nat
  maxPayload : Nat
  maxRead : Nat
deriving DecidableEq, Repr

/-- Host memory as the endpoint's DMA sees it, and the 64-byte lines whose reads come back failed or poisoned. -/
structure HostMem where
  bytes : Sparse Byte
  failing : List Nat
  poisoned : List Nat
deriving DecidableEq, Repr

/-- An event-log entry (R459). -/
structure Event where
  code : Nat
  lost : Bool
  cont : Bool
  poison : Bool
  seq : Nat
  sec : Nat
  nsec : Nat
  lineLo : Nat
  payload : List Dword
deriving DecidableEq, Repr

/-- The event log, its masks and the counters (R460 to R463); `fresh` the counters incremented in TIME tick `freshAt` (R6). -/
structure Obs where
  log : List Event
  nRead : Nat
  seq : Nat
  lostNext : Bool
  window : Sparse Nat
  logOff : List Nat
  signalOn : List Nat
  signalDue : Bool
  signalAt : Nat
  counters : Sparse Nat
  saturated : List Nat
  freshAt : Nat
  fresh : List Nat
  paceMin : Nat
deriving DecidableEq, Repr

/-- The quench block (R451 to R456). -/
structure Quench where
  armed : Bool
  valid : Bool
  sources : Nat
  ceaseSent : Bool
  qseq : Nat
  tqSec : Nat
  tqNsec : Nat
  evCode : Nat
  evSeq : Nat
  pinEn : Bool
  timeEn : Bool
  eventEn : Bool
  ceaseOn : Bool
  cmpSec : Nat
  cmpNsec : Nat
  evMap : List Nat
  latchDue : Bool
  tqClk : Nat
  window : Sparse Dword
deriving DecidableEq, Repr

/-- Fuses, debug and authentication (R431, R439 to R447). -/
structure Sec where
  ownerHash : BitVec 384
  sealBits : BitVec 16
  retireBits : BitVec 16
  rb : BitVec 64
  debug : DebugLevel
  challenge : Option (Nat × Nat)
  nonces : Nat
  fails : Nat
  authMask : BitVec 40
  jtag : BitVec 8
  dbgResult : Nat
  dbgData : Dword
  dbgUntil : Nat
  halted : Bool
  outside : Bool
deriving DecidableEq, Repr

/-- One anneal set (R422): tagged with the Tj, in 1/64 degree, at which it was taken. -/
structure AnnealSet where
  tj : Int
  tag : Nat
deriving DecidableEq, Repr

/-- Power, hold-up and anneal (R405 to R427). `keepDev` is what the keep device holds, by 131,072-byte unit of its addresses (R418);
`vcoreAt` the TIME tick at which the latest VCORE_SET completed (R411). -/
structure Pwr where
  state : PowerState
  vcore : Nat
  vcoreSet : Bool
  vcoreTarget : Nat
  vcoreAt : Option Nat
  holdThr : Nat
  pmbAddr : Nat
  annealDt : Nat
  keepEn : Bool
  keepCfg : List Dword
  keepSeq : Nat
  keepDev : Sparse (List Dword)
  saving : Bool
  saveCause : Nat
  saveFrom : PowerState
  saveSec : Nat
  saveNsec : Nat
  saveClk : Nat
  saveGroups : List Nat
  saveJoined : List Nat
  offAfter : Bool
  supplyEn : Bool
  stale : Bool
  temps : List Int
  tj : Int
  thermAlert : Bool
  holdMonMv : Nat
deriving DecidableEq, Repr

/-- Anneal (R422 to R427). `due` an anneal is due whatever Tj is: after a change of voltage, or to be retried (R412, R427). -/
structure Anneal where
  sets : List AnnealSet
  taken : Nat
  due : Bool
  running : Bool
  windowEnd : Option Int
  inhibited : Bool
  granted : Bool
  failRuns : Nat
  retryAt : Nat
  ainCal : Option Nat
  inUse : List Nat
deriving DecidableEq, Repr

/-- Levels of the output balls of R475: one bit per axis, CSPI port or chip select; `none` where a ball is released or at high
impedance. -/
structure OutPins where
  step : BitVec 8
  dir : BitVec 8
  sclk : BitVec 4
  mosi : BitVec 4
  csN : BitVec 32
  xspiSck : Bool
  xspiCsN : Bool
  xspiResetN : Bool
  xspiDq : Option (BitVec 8)
  pmbScl : Option Bool
  pmbSda : Option Bool
  tdo : Option Bool
deriving DecidableEq, Repr

/-- The low-speed pins of R475 that carry state. -/
structure Pins where
  ceaseN : Bool
  roleSel : Bool
  ceaseAck : Bool
  healthHigh : Bool
  healthReady : Bool
  axSwitch : BitVec 24
  resetHeld : Bool
  driven : Bool
  outs : OutPins
deriving DecidableEq, Repr

/-- CEASE (R219 to R221). -/
structure Cease where
  seq : Nat
  inForce : Bool
  waiting : List Nat
deriving DecidableEq, Repr

/-- What the counter held, and its rate adjustment, just before a step or a change of the adjustment in TIME tick `clk` (R366). -/
structure TimeMark where
  clk : Nat
  sec : Nat
  nsec : Nat
  frac : Nat
  adj : Int
deriving DecidableEq, Repr

/-- What a committed TIME_SET does to the counter at the next tick boundary (R404): the SEC and NSEC it sets, or its step in ns. -/
inductive TimeChange where
  | set (sec nsec : Nat)
  | step (ns : Int)
deriving DecidableEq, Repr

/-- The time counter (R364 to R366). `clk` counts TIME ticks since reset; `due` waits for the next tick boundary (R404); `marks` are
the changes of the last 1 ms, oldest first, by which an earlier instant has its stamp (R366). -/
structure Time where
  sec : Nat
  nsec : Nat
  frac : Nat
  adj : Int
  latched : Nat
  clk : Nat
  due : List TimeChange
  marks : List TimeMark
deriving DecidableEq, Repr

/-- One Ethernet port (R361 to R363). `queue` holds the lengths of the frames that wait to be forwarded out of it, oldest first, and
`sent` how much of the oldest has left, in sixteenths of a byte (R362). -/
structure Port where
  configured : Bool
  enable : Bool
  fast : Bool
  fwd : Bool
  mac : Nat
  ipv4 : Nat
  boardTx : Int
  boardRx : Int
  up : Bool
  queue : List Nat
  sent : Nat
deriving DecidableEq, Repr

/-- PTP and the servo (R368 to R373). -/
structure Ptp where
  role : Nat
  port : Nat
  udp : Bool
  extRef : Bool
  domain : Nat
  prio1 : Nat
  prio2 : Nat
  logSync : Int
  logAnn : Int
  annTmo : Nat
  logDreq : Int
  asym : Int
  servo : ServoState
  kp : Nat
  ki : Nat
  stepThr : Nat
  lockThr : Nat
  integ : Int
  inLock : Nat
  offStep : Nat
  parent : Option PortId
  grandmaster : Option Quality
  utcOffset : Int
  pathDelay : Int
  lastOffset : Int
deriving DecidableEq, Repr

/-- PTP exchanges in progress (R368, R371). -/
structure PtpX where
  pendingSync : Option (Ns16 × Ns16)
  syncRx : Ns16
  syncOrigin : Ns16
  delayTx : Option Ns16
  foreign : List (PortId × Quality)
  seqSync : Nat
  seqAnnounce : Nat
  seqDelay : Nat
deriving DecidableEq, Repr

/-- A plane's entry of the job record (R398). -/
structure PlaneCfg where
  inUse : Bool
  format : Nat
  planish : Bool
  force : Nat
  screen : Nat
deriving DecidableEq, Repr

/-- The open job (R398), with the once-per-job reports made and the two records it was opened from (R268). -/
structure Job where
  jobId : Dword
  s : Nat
  onebit : Bool
  lead : Nat
  lDecl : Nat
  tDecl : Int
  ctSlot : Nat
  lwSlot : Nat
  bpSlot : Nat
  accelMax : Nat
  iDecl : Nat
  reserve : Nat
  stagger : Nat
  planes : List PlaneCfg
  vcore : Nat
  once : List Nat
  raw : List Dword
  geo : List Dword
deriving DecidableEq, Repr

/-- A layer descriptor of a page (R54). -/
structure Layer where
  plane : Nat
  layer : Nat
  effort : Nat
  rows : Nat
  rowTable : Nat
deriving DecidableEq, Repr

/-- A stored block (R60): the slot's bytes and, where it spilled, the bytes of its spill units from unit `unit` on (R64);
`settled` is what each slice that fetched it found: 0 sound, 1 poisoned, 2 undecodable (R81, R89). -/
structure Block where
  plane : Nat
  layer : Nat
  row : Nat
  col : Nat
  slot : List Byte
  packed : List Byte
  spilled : Bool
  unit : Nat
  poisoned : Bool
  settled : List (Nat × Nat)
deriving DecidableEq, Repr

/-- A census band attached to a page (R243 to R245). -/
structure Band where
  planes : List Nat
  slotLines : Nat
  returned : List Nat
deriving DecidableEq, Repr

/-- A page (R53, R79). `fPage` is the numerator of F_page (R76), whose denominator is 64 / s; `adm` is its admission number; `cuts` the first blank web line per plane of a cut page;
`ctChain` and `twoChain` its spill chains, as chunk numbers of the spill pool (R64); `emptyDead` the blocks that its storage
does not list and that a poisoned row index entry has made dead (R81): plane, layer, row, column; `once` the once-per-page
reports made. -/
structure Page where
  id : Dword
  state : PageState
  lines : Nat
  ncol64 : Nat
  col64 : Nat
  cueCh : Nat
  startMode : Nat
  startArg : Nat
  startLine : Int
  layers : List Layer
  blocks : List Block
  rowPoison : List (Nat × Nat × Nat)
  emptyDead : List (Nat × Nat × Nat × Nat)
  ctChain : List Nat
  twoChain : List Nat
  footprint : Nat
  nContone : Nat
  nTwoBit : Nat
  fPage : Nat
  ingest : Nat
  n0 : Option Int
  adm : Nat
  thin : Bool
  cueSkips : Nat
  band : Option Band
  cuts : List (Nat × Int)
  cut : Bool
  holds : Bool
  deadBlocks : Nat
  once : List Nat
deriving DecidableEq, Repr

/-- The page load in progress (R58 to R60): the page, the row tables as read, layer by layer (R55), the bytes that have
arrived, and the place of the next block. -/
structure Load where
  pageId : Dword
  entry : Entry
  tables : List (List (Nat × Nat))
  arrived : Sparse Byte
  have_ : List (Nat × Nat)
  layerIx : Nat
  row : Nat
  col : Nat
  pos : Nat
  rowBegun : Bool
deriving DecidableEq, Repr

/-- The pages, the load in progress and the chain's last line (R51, R58). -/
structure Pages where
  list : List Page
  load : Option Load
  nextAdm : Nat
  lastEnd : Option Int
  fireEnd : Int
deriving DecidableEq, Repr

/-- Web-stamped parts of the job: offsets D_p (1/256 native line), shifts X_p, screen bindings, module trims. -/
structure Web where
  dOff : Timed
  xShift : Timed
  screens : Timed
  trims : Timed
deriving DecidableEq, Repr

/-- A curve-set update (R103): its web line, the curves and index entries it replaces, whether the assay formed it, and `out`
where it is known to have dropped out (R105). -/
structure CurveUpd where
  line : Int
  curves : List (Nat × List Nat)
  entries : List (Nat × Nat)
  assay : Bool
  out : Bool
deriving DecidableEq, Repr

/-- A stitch-mask change (R102): mask number 4 J + q, its 16 rows of 256 bits, its web line, `out` where it is known to have
dropped out (R105). -/
structure MaskUpd where
  mask : Nat
  rows : List (BitVec 256)
  line : Int
  out : Bool
deriving DecidableEq, Repr

/-- Poison found in one 64-byte burst of a table unit's copy (R106): kind, index, burst, and the web lines for which
that copy is in force. -/
structure TablePoison where
  kind : Nat
  index : Nat
  burst : Nat
  from_ : Int
  until_ : Int
  raised : Bool
deriving DecidableEq, Repr

/-- The line engine's tables (R93 to R106). Curves, entries and masks list only what differs from reset. -/
structure Tables where
  curves : Sparse (List Nat)
  entries : Sparse Nat
  curveUpds : List CurveUpd
  curveGen : Nat
  screens : Sparse (List Qword)
  masks : Sparse (List (BitVec 256))
  maskUpds : List MaskUpd
  poisoned : List TablePoison
deriving DecidableEq, Repr

/-- The thinning state one record leaves in a cluster (R135). -/
structure ThinFx where
  cluster : Nat
  bf : Int
  kf : Nat
  armed : Bool
deriving DecidableEq, Repr

/-- A line record (R84, R87, R197): its levels list the non-zero columns; `onebit` is the bit depth it is packed in. -/
structure Rec where
  m : Nat
  q : Nat
  n : Int
  kind : RecKind
  levels : List (Nat × Nat)
  page : Option Nat
  b : Int
  assigned : Bool
  gen8 : Nat
  refill : Nat
  seam : Nat
  directRow : Nat
  picks : List (Nat × Nat)
  thin : List ThinFx
  rseq : Nat
  onebit : Bool
  resync : Bool
  deadDrops : Bool
deriving DecidableEq, Repr

/-- The slices (R84 to R87, R108): records handed over and not yet released, the last web line handed over per
module-plane, pace readings. -/
structure Slices where
  recs : List Rec
  handed : Sparse Int
  pace : List Nat
  lowRuns : Sparse Nat
  shadowFrom : Option Int
deriving DecidableEq, Repr

/-- A map generation (R117, R118): number, boundary, the codes of every ejector it leaves non-zero, whether it went
out as a full image, and the change list of a delta. -/
structure Gen where
  number : Nat
  boundary : Option Int
  full : Bool
  codes : Sparse Nat
  delta : List (Nat × Nat)
deriving DecidableEq, Repr

/-- The health map (R114 to R123): generations from oldest to newest, the pending one, acknowledgements, reports that wait; `holding`
the modules whose records go LATE, each with the generation it has not acknowledged (R120). -/
structure Map where
  gens : List Gen
  pending : Option Nat
  acked : List (Nat × Nat)
  waitRaised : List Nat
  holding : List (Nat × Nat)
  reports : List Nat
  joins : List (Nat × List Nat)
  poisoned : List (Nat × Nat)
  poisonFix : List (Nat × Nat)
  arriving : Option Gen
deriving DecidableEq, Repr

/-- The cluster scheduler (R124 to R145). `refills` holds the REFILLs of the last 63 records of a module-plane, 0 for a blank
one (R142); `seamReq` the span of the seam its next PRINT record is to be, and `joinSeams` the module-planes whose seam is
that of a join, its span still following the module's STATUS (R143). -/
structure Csc where
  nf : Sparse Int
  nfBase : Sparse Int
  bf : Sparse Int
  kf : Sparse Nat
  armed : Sparse Nat
  refills : List (Nat × List Nat)
  seamReq : Sparse Nat
  joinSeams : List Nat
  marks : List Nat
  refillMarks : List Nat
  cleanRuns : Sparse Nat
  rho : List (Int × Nat)
  heldRho : List (Int × Nat)
  fixedTo : Option Int
  stamped : List (Int × Nat × Nat)
  overRun : Nat
deriving DecidableEq, Repr

/-- One encoder channel (R148 to R153). -/
structure Enc where
  enable : Bool
  filt : Nat
  invert : Bool
  indexQual : Bool
  indexZero : Bool
  pos : Int
  index : Int
  a : Bool
  b : Bool
  i : Bool
  offset : Int
  total : Int
deriving DecidableEq, Repr

/-- A pending gear change (R158). -/
structure Gear where
  pos : Int
  ratio : Nat
deriving DecidableEq, Repr

/-- A pending line reference (R159). -/
structure LineRef where
  onIndex : Bool
  pos : Int
  lamI : Int
  lamF : Nat
deriving DecidableEq, Repr

/-- A cue capture (R167, R169). -/
structure Cue where
  seq : Nat
  rev : Bool
  lost : Bool
  ch : Nat
  secHi : Nat
  secLo : Nat
  nsec : Nat
  frac : Nat
  line : Int
  master : Int
deriving DecidableEq, Repr

/-- A cue channel (R167 to R169); `maskFrom` is the captured position of a mask that runs, in 1/2³² line. -/
structure CueCh where
  edge : Nat
  event : Bool
  filt : Nat
  maskLines : Nat
  maskFrom : Option Int
  queue : List Cue
  seq : Nat
  lostNext : Bool
deriving DecidableEq, Repr

/-- A divided pulse output (R170, R171), with the ring of the web lines of its last 4,096 pulses (R234)
and their stamps, SEC and NSEC (R366). -/
structure Pulse where
  enable : Bool
  pol : Bool
  src : Bool
  div : Nat
  phase : Nat
  width : Nat
  delay : Nat
  countMax : Option Int
  count : Nat
  total : Nat
  ring : List Int
  stamps : List (Nat × Nat)
deriving DecidableEq, Repr

/-- The web configuration (R156) and the web check (R155). -/
structure WebCfg where
  pacing : Bool
  checkEn : Bool
  stillTime : Nat
  spdAvg : Nat
  jitterAllow : Nat
  checkWin : Nat
  checkTol : Nat
  checkRatio : Nat
  winMaster : Int
  winCheck : Int
  checkFailed : Bool
deriving DecidableEq, Repr

/-- The firing timebase (R157 to R166, R174). Times are in 39.0625 ps. -/
structure Ftb where
  lamI : Int
  lamF : Nat
  hwm : Int
  g : Nat
  pmax : Int
  reversed : Bool
  gears : List Gear
  lineRef : Option LineRef
  speed : Int
  intervals : List Nat
  lastEdge : Option Nat
  lastDir : Option Bool
  projected : List (Int × Nat)
  heldTicks : List Int
  lastTick : Option Nat
  tickLimitRaised : Bool
  rate : Int
  rateTarget : Int
  paceAt : Nat
  rho10 : Int
  lam10I : Int
  lam10F : Nat
  referenced : Bool
deriving DecidableEq, Repr

/-- One lane (R180, R209, R212). `since` is the TIME tick at which it entered POLARITY or LOCK; `farLocked` that it sees TRAIN1
or superframe symbols (R208). -/
structure Lane where
  state : LaneState
  inverted : Bool
  trials : Nat
  searches : Nat
  since : Nat
  farLocked : Bool
  logical : Option Nat
  txLogical : Nat
  eqTx : Dword
  eqRx : Dword
  eqTxNew : Dword
  eqRxNew : Dword
deriving DecidableEq, Repr

/-- A touchmark as read, dword by dword (R211, R222). -/
structure Touch where
  dwords : Sparse Dword
  total : Nat
  asked : Nat
  got : Nat
  tries : Nat
  valid : Bool
deriving DecidableEq, Repr

/-- A link group: 0 to 39 modules, 40 to 43 camera pairs, 44 the partner (R177, R210, R228). `port` and `echo` are what the
module's words last said of its own port and of GROUP (R191, R207), `epochs` the accepted epochs of the last 1 ms, each with
its TIME tick, that no later one reaches (R264); `rated` that its rate has been given; `crcFails` and `conflicts` its FAULT counts of kinds 5 and 4 (R207). -/
structure Group where
  run : Bool
  spare : Bool
  rate : Nat
  rated : Bool
  step : Nat
  touch : Touch
  fresh : Touch
  recorded : Option (Dword × Dword × Dword × Dword)
  newTouch : Bool
  latency : Nat
  echoToken : Nat
  restripe : Option (Nat × Nat × Nat × Nat)
  restripeTx : Option (Nat × Nat)
  joined : Bool
  mstate : Nat
  accepting : Bool
  statusIn : Bool
  fired : Bool
  ceasedFlag : Bool
  accEpoch : Dword
  epochs : List (Nat × Nat)
  port : Bool
  echo : Nat
  crcFails : Nat
  conflicts : Nat
  unprompted : Option Nat
  auth : Bool
deriving DecidableEq, Repr

/-- The head link (R191 to R221). `firstLine` is the first web line released to a module-plane since its module joined. -/
structure Dxl where
  lanes : List Lane
  groups : List Group
  replay : List Rec
  rseq : Sparse Nat
  lastHeld : Sparse Nat
  heldLine : Sparse Int
  resync : List Nat
  released : Sparse Int
  firstLine : Sparse Int
  temps : Sparse Nat
  tokens : Nat
deriving DecidableEq, Repr

/-- A scan open on a camera (R226): TRIG, first pixel, pixels, 10-bit samples, and the pulses that each output had emitted before its
SCAN arrived (R234). -/
structure OpenScan where
  trig : Nat
  pix0 : Nat
  npix : Nat
  deep : Bool
  totals : List Nat
deriving DecidableEq, Repr

/-- A camera (R226, R234 to R238). -/
structure Camera where
  open_ : Option OpenScan
  lastTrig : Option Nat
  aligned : Option (Nat × Nat)
  white : Sparse Int
  whiteN : Sparse Nat
deriving DecidableEq, Repr

/-- A camera's part of the assay setup record (R232). -/
structure CamCfg where
  en : Bool
  pulse : Nat
  lag : Nat
  pixFirst : Nat
  pitch : Nat
  pixCount : Nat
  x0 : Int
  pos : Nat
deriving DecidableEq, Repr

/-- The assay setup in force (R232). -/
structure AsySetup where
  censusEvery : Nat
  censusG : Nat
  densityEn : Bool
  streakN : Nat
  streakThr : Nat
  covMin : Nat
  cenDead : Nat
  cenWeak : Nat
  kmax : Nat
  reinstate : Nat
  gain : Nat
  curveBase : Nat
  cams : List CamCfg
  baseCurve : List Nat
  autoCurve : List Bool
  observe : List Bool
  matrix : List Nat
  raw : List Dword
deriving DecidableEq, Repr

/-- A statistics window of one camera, plane and pixel (R241, R242): sums in 1/65,536; `stamp` that of the pulse of the last scan
in it (R366). -/
structure Win where
  cam : Nat
  plane : Nat
  pix : Nat
  sum : Int
  count : Nat
  closed : Option Int
  streak : Bool
  stamp : Nat × Nat
deriving DecidableEq, Repr

/-- What the scans showed at the census drops of an ejector (R247): per drop its logical column, its web line and its
value in 1/65,536; `stamp` that of the pulse of the last of those scans (R366). -/
structure Drops where
  ejector : Nat
  values : List (Int × Int × Int)
  stamp : Nat × Nat
deriving DecidableEq, Repr

/-- The assay (R231 to R252). `lockTables` is what v_u is read from while CURVE_LOCK holds (R252); `wants` the variants pixels
are to take: camera, plane, pixel, variant (R250); `judged` the band's first web line of each plane's last census; `shown`
the last web line each camera's scans showed; `proposed` ejector, expected code, new code (R248); `stamps` that of the pulse of the
last scan behind each verdict (R366); `variantsDue` the gaffer's curve update of the setup is still to come (R253, R271). -/
structure Asy where
  setup : Option AsySetup
  mapLock : Bool
  curveLock : Bool
  censusHold : Bool
  due : List Nat
  periodic : Nat
  lastPeriodic : Nat
  cams : List Camera
  windows : List Win
  stripe : List Win
  lockTables : Option (Sparse Nat × List CurveUpd)
  wants : List (Nat × Nat × Nat × Int)
  marks : List (Nat × Nat × Int)
  markedLines : List (Nat × Int)
  cutMarks : List (Nat × Int × Int)
  drops : List Drops
  judged : List (Nat × Int)
  verdicts : Sparse Nat
  signals : Sparse (Option Int)
  rref : Sparse (Option Int)
  goodRuns : Sparse Nat
  proposed : List (Nat × Nat × Nat)
  shown : List (Nat × Int)
  stamps : Sparse (Nat × Nat)
  variantsDue : Bool
deriving DecidableEq, Repr

/-- The pair block (R259 to R290). `rejoin` is the step of R282 in progress, 0 none; `rejoinGot` what of it has arrived: 1 DIGEST,
2 GEN, 3 BLOCK, 4 LOCKS, 5 the end of the PAGE messages; `autoDue` a rejoin of its own accord is due (R269); `ptSent` the
PTSYNC tokens out with their departure; `deltas` the last 16 offsets, oldest first; `posFlagClk` POSREF flags with the TIME
tick at which each ends; `pageMsgs` PAGE messages not yet used (id, state, thinning flag, band mask, n0, lines); `pageEnds`
PAGEEND messages not yet used; `unshadowed` the pages only the gaffer prints, with their web lines. -/
structure Par where
  state : PairState
  enabled : Bool
  ptlRate : Nat
  epoch : Nat
  partnerRole : Nat
  partnerEpoch : Nat
  gafferEpoch : Option Nat
  lastEpoch : Nat
  mustFall : Bool
  refusedRaised : Bool
  linkRun : Bool
  mseqTx : Nat
  mseqRx : Option Nat
  deltas : List Int
  ptToken : Nat
  ptSent : List (Nat × Int)
  rejoin : Nat
  rejoinGot : List Nat
  autoDue : Bool
  digestBad : Option Nat
  ptSeen : Nat
  blockGot : List Qword
  posFlagClk : List (Nat × Nat)
  pageMsgs : List (Dword × Nat × Bool × Nat × Int × Nat)
  refused : List Dword
  pageEnds : List (Dword × Nat × List Int)
  unshadowed : List (Dword × Int × Int × List Nat)
deriving DecidableEq, Repr

/-- The memory configuration in force (R293). -/
structure MemCfg where
  speed : Nat
  chPairs : Nat
  density : Nat
  ranks : Nat
  spareEn : Bool
  wmHigh : Nat
  wmLow : Nat
  retirePages : Nat
  ceRowThr : Nat
  excluded : List Dword
deriving DecidableEq, Repr

/-- A region (R299). -/
structure Region where
  kind : Nat
  code : Nat
  size : Nat
deriving DecidableEq, Repr

/-- One rank of one channel (R296, R310). -/
structure Rank where
  ch : Nat
  rank : Nat
  state : RankState
  failing : Bool
  cause : Nat
  noSpareRaised : Bool
  fast : Bool
  owed : Nat
deriving DecidableEq, Repr

/-- A cullet entry (R314). -/
structure Cullet where
  kind : Nat
  lost : Bool
  poison : Bool
  count : Nat
  place : Dword
  addr : Nat
  seq : Nat
  sec : Nat
  nsec : Nat
deriving DecidableEq, Repr

/-- A burnish pass (R306 to R309). -/
structure Burnish where
  region : Nat
  first : Nat
  pages : Nat
  rate : Nat
  maxAddr : Nat
  summary : Nat
  next : Nat
  pagesDone : Nat
  ceBursts : Nat
  ueNew : Nat
  poisonSeen : Nat
  mirrorFix : Nat
  wbDropped : Nat
  ceRows : List (Nat × Nat)
  addrs : List Nat
  stopping : Bool
  entry : Entry
deriving DecidableEq, Repr

/-- A queued write (R295): what it writes, whether it writes the burst back poisoned (R302), the TIME tick queued. -/
structure QueuedWrite where
  write : BurstWrite
  poison : Bool
  clk : Nat
deriving DecidableEq, Repr

/-- The memory controller (R289 to R317). `writes` is every channel's write queue, oldest first (R295); `reads` the reads
waiting, oldest first (R294); `served` the class 3 bursts of the last 100 µs, channel and TIME tick; `places` where the address
map puts the copies of the memory pages used so far, by twice the page number plus the copy (R292); `copies` the rows copied by
each channel's migration (R311); `poisoned` the bursts stored poisoned (R302); `queryPoison` the queries whose data was read
poisoned (R303); `debugged` the dwords that the debug port wrote, by system address (R441); `delivered` the last burst an engine was given, with its mark; `ueRate` the MEM_UE events of the present second
(R301). -/
structure Mem where
  cfg : Option MemCfg
  regions : List Region
  ready : Bool
  ranks : List Rank
  writes : List QueuedWrite
  reads : List MemReq
  served : List (Nat × Nat)
  places : List (Nat × Place)
  copies : List (Nat × Nat)
  poisoned : List Nat
  queryPoison : List Nat
  debugged : List (Nat × Dword)
  delivered : Option (Nat × BitVec 512 × Bool)
  remap : List (Dword × Nat)
  cullets : List Cullet
  culletRead : Nat
  culletSeq : Nat
  culletLost : Bool
  fullRaised : Bool
  burnish : Option Burnish
  ueRate : Nat
deriving DecidableEq, Repr

/-- An axis's settings (R322) as loaded. -/
structure AxisCfg where
  enable : Bool
  dirInv : Bool
  fbCh : Nat
  leader : Nat
  follow : Bool
  followInv : Bool
  curEn : Bool
  curDev : Nat
  dirSetup : Nat
  vHard : Nat
  aHard : Nat
  jHard : Nat
  fbRatio : Int
  feStart : Nat
  feFull : Nat
  runI : Nat
  boostI : Nat
  holdI : Nat
  holdDelay : Nat
  stallT : Nat
deriving DecidableEq, Repr

/-- Homing in progress (R336 to R340). `phase` 1 SEEK, 2 BACK, 3 LATCH, 4 SET, 5 SEEK_BACK; `sw` 0 AXn_HOME, 1 the limit in
DIR, 2 index; `neg` the direction; `latched` the LATCH capture; `released` where the
switch counted as released; `wasOn` it was confirmed active in this phase; `limitSeen` the limit in DIR was confirmed once;
`toBack` a SEEK that ended there; `aborted` a limit ended the homing; `atSet` the axis is at rest in SET. -/
structure Homing where
  phase : Nat
  neg : Bool
  sw : Nat
  debounce : Nat
  seekV : Nat
  latchV : Nat
  hacc : Nat
  backoff : Nat
  homePos : Int
  seekCapture : Int
  latched : Int
  released : Option Int
  wasOn : Bool
  stopping : Bool
  limitSeen : Bool
  toBack : Bool
  aborted : Bool
  atSet : Bool
deriving DecidableEq, Repr

/-- One stretch of a planned path with constant jerk: its length in 1/2⁶⁴ planning step, its first position, velocity and
acceleration and its jerk, in 1/2⁶⁴ of a step, step/s, step/s² and step/s³ (R327). -/
structure Seg where
  dur : Nat
  pos : Int
  vel : Int
  acc : Int
  jerk : Int
deriving DecidableEq, Repr

/-- Units of a path in 1/65,536 of a step. -/
abbrev stepScale : Int := 2 ^ 48

/-- An axis (R321 to R342). Positions are in 1/65,536 step, velocity and acceleration in 1/65,536 step per s and s². `prev` is the
position at the start of the planning step; `plan` the path under way and `planT` how far along it, in 1/2⁶⁴ planning step;
`newMove` and `stopReq` (a deceleration) what the next planning step takes up; `limited` a limit input stops it (R331); `passed` VLIMIT was raised; `runs` and `offs` the
samples for which LIMN, LIMP and HOME have been active and inactive, `edges` the positions at their last rising edges; `stepped`
the whole steps that have left the step generator; `lastStep` the instant of the last one, in 25 ns from the start of the next
planning step, and whether it went up; `ttime` table time in 1/4,096 planning step; `velSub` and `posSub` what the velocity and
position of an axis in VELOCITY hold below their units, in 1/100,000 and 1/(2 × 10¹⁰) of them. -/
structure Axis where
  cfg : AxisCfg
  state : AxisState
  pos : Int
  prev : Int
  vel : Int
  acc : Int
  target : Int
  sCurve : Bool
  vmax : Nat
  amax : Nat
  dmax : Nat
  jmax : Nat
  plan : List Seg
  planT : Nat
  newMove : Bool
  stopReq : Option Nat
  stopping : Bool
  limited : Bool
  passed : Bool
  homed : Bool
  vlimEn : Bool
  limLo : Int
  limHi : Int
  fb : Int
  fbOffset : Int
  cur : Nat
  curHeld : Bool
  restFor : Nat
  boostFor : Nat
  homing : Option Homing
  tslot : Nat
  tNew : Bool
  ttime : Nat
  torigin : Int
  kfact : Nat
  kTarget : Nat
  kRate : Nat
  tRepeat : Nat
  runs : List Nat
  offs : List Nat
  edges : List Int
  stepped : Int
  lastStep : Option (Int × Bool)
  loopVel : Option Int
  velSub : Nat
  posSub : Nat
deriving DecidableEq, Repr

/-- A knot of a segment table (R332). -/
structure Knot where
  dt : Nat
  vel : Int
  pos : Int
deriving DecidableEq, Repr

/-- A loop descriptor (R347): its 16 dwords, changed one at a time by LOOP_TUNE (R351). -/
structure LoopDesc where
  dw : List Dword
deriving DecidableEq, Repr

/-- A loop slot (R346 to R352). `written` an output has been written, `outWritten` the last one; `entering` the next AUTO sample is the first; `outDue` an
output write has not begun; `saved` integ, df, m_prev, set-point and last output before the latest sample; `samples` since the
last LOOP_MODE; `tune` the pending pairs, the last of each LOOP_TUNE marked. -/
structure Loop where
  desc : LoopDesc
  mode : LoopMode
  integ : Int
  df : Int
  mPrev : Int
  lastOut : Int
  outWritten : Int
  written : Bool
  sp : Int
  meas : Int
  manOut : Int
  entering : Bool
  outDue : Bool
  saved : Option (Int × Int × Int × Int × Int)
  samples : Nat
  ovr : Nat
  ovrRaised : Bool
  tune : List (Nat × Dword × Bool)
  lastCount : Int
  lastCountSp : Int
deriving DecidableEq, Repr

/-- Motion and control (R320 to R357). `ainHold` the input whose code is held and the TIME tick until which;
`instant` counts the 25 µs instants, `sample` the switch samples of the planning step;
`adc` the latest value of each ADC device, `adcRead` the slots whose read for the next instant is made; `curQueue` current-reference codes not yet sent, by axis; `told` the limits and homing
fields of each axis as the partner was last told them (R355). -/
structure Mot where
  axes : List Axis
  tables : Sparse (List Knot)
  devs : Sparse (List Dword)
  loops : List Loop
  instant : Nat
  sample : Nat
  ain : List Nat
  ainHold : Option (Nat × Nat)
  adc : Sparse Nat
  adcRead : List Nat
  curQueue : List (Nat × Nat)
  told : Sparse (List (Nat × Qword))
deriving DecidableEq, Repr

/-- The whole machine. `free` is the model's own counter: each value the spec leaves undefined takes the next one. -/
structure State where
  pending : List Instr
  boot : Boot
  mbx : Mbx
  host : HostMem
  obs : Obs
  quench : Quench
  sec : Sec
  pwr : Pwr
  anneal : Anneal
  pins : Pins
  cease : Cease
  time : Time
  ports : List Port
  ptp : Ptp
  ptpx : PtpX
  job : Option Job
  web : Web
  pages : Pages
  tables : Tables
  slices : Slices
  map : Map
  csc : Csc
  encs : List Enc
  webCfg : WebCfg
  ftb : Ftb
  cues : List CueCh
  pulses : List Pulse
  dxl : Dxl
  asy : Asy
  par : Par
  mem : Mem
  mot : Mot
  out : List Sent
  free : Nat
deriving DecidableEq, Repr

/-- Reasons the machine stops. The AZ1640 has no exception entry and names no access that ends a run. -/
inductive Fault where
  /-- No command raises it: kept so that a fault has a name of its own. Safe. -/
  | none_
deriving DecidableEq, Repr

/-- Reasons a command has no meaning in the model. -/
inductive Refusal where
  /-- A command the model does not yet give a meaning, by its mnemonic. Safe. -/
  | notModelled (mnemonic : String)
deriving DecidableEq, Repr


/-- An axis after reset: DISABLED (R322), no feedback, not homed. -/
def Axis.reset : Axis :=
  { cfg := { enable := false, dirInv := false, fbCh := 15, leader := 0, follow := false, followInv := false,
             curEn := false, curDev := 0, dirSetup := 2, vHard := 1, aHard := 1, jHard := 1, fbRatio := 0,
             feStart := 1, feFull := 2, runI := 0, boostI := 0, holdI := 0, holdDelay := 0, stallT := 1 }
    state := .disabled, pos := 0, prev := 0, vel := 0, acc := 0, target := 0, sCurve := false, vmax := 0, amax := 0
    dmax := 0, jmax := 0, plan := [], planT := 0, newMove := false, stopReq := none, stopping := false, limited := false
    passed := false, homed := false, vlimEn := false, limLo := 0, limHi := 0, fb := 0, fbOffset := 0, cur := 0, curHeld := false
    restFor := 0, boostFor := 0, homing := none, tslot := 0, tNew := false, ttime := 0, torigin := 0, kfact := 4096
    kTarget := 4096, kRate := 1, tRepeat := 0, runs := [0, 0, 0], offs := [0, 0, 0], edges := [0, 0, 0]
    stepped := 0, lastStep := none, loopVel := none, velSub := 0, posSub := 0 }

/-- A loop slot after reset: OFF, descriptor all 0. -/
def Loop.reset : Loop :=
  { desc := { dw := List.replicate 16 0 }, mode := .off, integ := 0, df := 0, mPrev := 0, lastOut := 0
    outWritten := 0, written := false, sp := 0, meas := 0, manOut := 0, entering := false, outDue := false, saved := none, samples := 0
    ovr := 0, ovrRaised := false, tune := [], lastCount := 0, lastCountSp := 0 }

/-- A lane after reset: DOWN, with the equalisation of R180 (PRE 0, MAIN 48, POST 8, CTLE 6, DFE 1). -/
def Lane.reset (lane : Nat) : Lane :=
  let tx := BitVec.ofNat 32 (lane * 2 ^ 24 + 48 * 2 ^ 13 + 8 * 2 ^ 8)
  let rx := BitVec.ofNat 32 (lane * 2 ^ 24 + 2 ^ 23 + 6 * 2 ^ 4 + 2 ^ 3)
  { state := .down, inverted := false, trials := 0, searches := 0, since := 0, farLocked := false, logical := none
    txLogical := lane % 4, eqTx := tx, eqRx := rx, eqTxNew := tx, eqRxNew := rx }

/-- A touchmark not yet read. -/
def Touch.none : Touch := { dwords := [], total := 0, asked := 0, got := 0, tries := 0, valid := false }

/-- A group after reset: out of RUN, at lane-rate code 3 (32.0 Gb/s). -/
def Group.reset : Group :=
  { run := false, spare := false, rate := 3, rated := false, step := 0, touch := Touch.none, fresh := Touch.none, recorded := none, newTouch := false
    latency := 0, echoToken := 0, restripe := none, restripeTx := none, joined := false, mstate := 0, accepting := false, statusIn := false, fired := false
    ceasedFlag := false, accEpoch := 0, epochs := [], port := false, echo := 0, crcFails := 0, conflicts := 0, unprompted := none
    auth := false }

/-- An encoder channel after reset (R152, R153, R284). -/
def Enc.reset : Enc :=
  { enable := false, filt := 3, invert := false, indexQual := false, indexZero := false, pos := 0, index := 0
    a := false, b := false, i := false, offset := 0, total := 0 }

/-- A cue channel after reset (R168). -/
def CueCh.reset : CueCh :=
  { edge := 3, event := false, filt := 3, maskLines := 0, maskFrom := none, queue := [], seq := 0, lostNext := false }

/-- A pulse output after reset: disabled, low (R171). -/
def Pulse.reset : Pulse :=
  { enable := false, pol := false, src := false, div := 1, phase := 0, width := 2, delay := 0, countMax := none
    count := 0, total := 0, ring := [], stamps := [] }

/-- A camera after reset. -/
def Camera.reset : Camera := { open_ := none, lastTrig := none, aligned := none, white := [], whiteN := [] }

/-- An Ethernet port after reset: neither address nor enable (R361). -/
def Port.reset : Port :=
  { configured := false, enable := false, fast := false, fwd := false, mac := 0, ipv4 := 0, boardTx := 0, boardRx := 0
    up := false, queue := [], sent := 0 }

/-- No value, no change. -/
def Timed.none : Timed := { base := [], changes := [] }

/-- The output balls from reset release (R475): low, chip selects and the keep device's reset high, the rest released. -/
def OutPins.reset : OutPins :=
  { step := 0, dir := 0, sclk := 0, mosi := 0, csN := BitVec.allOnes 32, xspiSck := false, xspiCsN := true, xspiResetN := true
    xspiDq := none, pmbScl := none, pmbSda := none, tdo := none }

/-- The machine right after reset, as the spec says (R7, R382, R407, R469 and the rules each field names). -/
def State.reset : State :=
  { pending := []
    boot := { state := .waitImage, cause := 0, image := [], imageLen := 0, fwVersion := 0, imgRollback := 0, keySlot := 0 }
    mbx := { enable := false, sqTail := 0, sqHead := 0, cqHead := 0, cqBase := 0, cqIndex := 0, cqUnread := 0, phase := true, ring := []
             inFlight := [], scratch := 0, msix := [], pba := 0, pcieWidth := 16, pcieMts := 32000
             maxPayload := 128, maxRead := 512 }
    host := { bytes := [], failing := [], poisoned := [] }
    obs := { log := [], nRead := 0, seq := 0, lostNext := false, window := [], logOff := [], signalOn := []
             signalDue := false, signalAt := 0, counters := [], saturated := [], freshAt := 0, fresh := [], paceMin := 0xFFFF }
    quench := { armed := false, valid := false, sources := 0, ceaseSent := false, qseq := 0, tqSec := 0, tqNsec := 0
                evCode := 0, evSeq := 0, pinEn := false, timeEn := false, eventEn := false, ceaseOn := false
                cmpSec := 0, cmpNsec := 0, evMap := [], latchDue := false, tqClk := 0, window := [] }
    sec := { ownerHash := 0, sealBits := 0, retireBits := 0, rb := 0, debug := .closed, challenge := none, nonces := 0
             fails := 0, authMask := 0, jtag := 0xFF, dbgResult := 0, dbgData := 0, dbgUntil := 0, halted := false
             outside := false }
    pwr := { state := .parked, vcore := 750, vcoreSet := false, vcoreTarget := 750, vcoreAt := none, holdThr := 600, pmbAddr := 0x40
             annealDt := 10, keepEn := false, keepCfg := [], keepSeq := 0, keepDev := []
             saving := false, saveCause := 0, saveFrom := .parked, saveSec := 0, saveNsec := 0, saveClk := 0
             saveGroups := [], saveJoined := [], offAfter := false, supplyEn := true, stale := false, temps := []
             tj := 0, thermAlert := false, holdMonMv := 0 }
    anneal := { sets := [], taken := 0, due := false, running := false, windowEnd := none, inhibited := false
                granted := false, failRuns := 0, retryAt := 0, ainCal := none, inUse := [] }
    pins := { ceaseN := false, roleSel := false, ceaseAck := false, healthHigh := false, healthReady := false
              axSwitch := 0, resetHeld := false, driven := true, outs := OutPins.reset }
    cease := { seq := 0, inForce := false, waiting := [] }
    time := { sec := 0, nsec := 0, frac := 0, adj := 0, latched := 0, clk := 0, due := [], marks := [] }
    ports := [Port.reset, Port.reset]
    ptp := { role := 0, port := 0, udp := false, extRef := false, domain := 0, prio1 := 128, prio2 := 128
             logSync := -3, logAnn := 1, annTmo := 3, logDreq := -3, asym := 0, servo := .free
             kp := 734003, ki := 52429, stepThr := 100000, lockThr := 100, integ := 0, inLock := 0, offStep := 0
             parent := none, grandmaster := none, utcOffset := 0, pathDelay := 0, lastOffset := 0 }
    ptpx := { pendingSync := none, syncRx := 0, syncOrigin := 0, delayTx := none, foreign := [], seqSync := 0
              seqAnnounce := 0, seqDelay := 0 }
    job := none
    web := { dOff := Timed.none, xShift := Timed.none, screens := Timed.none, trims := Timed.none }
    pages := { list := [], load := none, nextAdm := 0, lastEnd := none, fireEnd := -(2 ^ 63 : Int) }
    tables := { curves := [], entries := [], curveUpds := [], curveGen := 0, screens := [], masks := [], maskUpds := []
                poisoned := [] }
    slices := { recs := [], handed := [], pace := [], lowRuns := [], shadowFrom := none }
    map := { gens := [], pending := none, acked := [], waitRaised := [], holding := [], reports := [], joins := [], poisoned := []
             poisonFix := [], arriving := none }
    csc := { nf := [], nfBase := [], bf := [], kf := [], armed := [], refills := [], seamReq := [], marks := [], refillMarks := []
             joinSeams := [], cleanRuns := [], rho := [], heldRho := [], fixedTo := none, stamped := [], overRun := 0 }
    encs := List.replicate 12 Enc.reset
    webCfg := { pacing := false, checkEn := false, stillTime := 10, spdAvg := 2, jitterAllow := 4, checkWin := 4096
                checkTol := 64, checkRatio := 0x10000, winMaster := 0, winCheck := 0, checkFailed := false }
    ftb := { lamI := 0, lamF := 0, hwm := 0, g := 2 ^ 32, pmax := 0, reversed := false, gears := [], lineRef := none
             speed := 0, intervals := [], lastEdge := none, lastDir := none, projected := [], heldTicks := []
             lastTick := none, tickLimitRaised := false, rate := 0, rateTarget := 0, paceAt := 0, rho10 := 0
             lam10I := 0, lam10F := 0, referenced := false }
    cues := List.replicate 4 CueCh.reset
    pulses := List.replicate 4 Pulse.reset
    dxl := { lanes := (List.range 172).map Lane.reset, groups := List.replicate 45 Group.reset, replay := [], rseq := []
             lastHeld := [], heldLine := [], resync := [], released := [], firstLine := [], temps := [], tokens := 0 }
    asy := { setup := none, mapLock := false, curveLock := false, censusHold := false, due := [], periodic := 0
             lastPeriodic := 15, cams := List.replicate 4 Camera.reset, windows := [], stripe := [], lockTables := none, wants := []
             marks := [], markedLines := [], cutMarks := [], drops := [], judged := [], verdicts := [], signals := [], rref := []
             goodRuns := [], proposed := [], shown := [], stamps := [], variantsDue := false }
    par := { state := .syncing, enabled := false, ptlRate := 0, epoch := 0, partnerRole := 0, partnerEpoch := 0
             gafferEpoch := none, lastEpoch := 0
             mustFall := false, refusedRaised := false, linkRun := false, mseqTx := 0, mseqRx := none, deltas := []
             ptToken := 0, ptSent := [], rejoin := 0, rejoinGot := [], autoDue := false, digestBad := none, ptSeen := 0
             blockGot := []
             posFlagClk := [], pageMsgs := [], refused := [], pageEnds := [], unshadowed := [] }
    mem := { cfg := none, regions := [], ready := false, ranks := [], writes := [], reads := []
             served := [], places := [], copies := [], poisoned := [], queryPoison := [], debugged := [], delivered := none
             remap := [], cullets := [], culletRead := 0, culletSeq := 0, culletLost := false
             fullRaised := false, burnish := none, ueRate := 0 }
    mot := { axes := List.replicate 8 Axis.reset, tables := [], devs := [], loops := List.replicate 32 Loop.reset
             instant := 0, sample := 0, ain := [0, 0, 0, 0], ainHold := none, adc := [], adcRead := [], curQueue := [], told := [] }
    out := []
    free := 0 }

end Sys2Proof.Machine
end

