-- ==== Sys2Proof/Machine/Operands.lean ====
section
/-! DEFINITION. Operand forms: submission-entry fields (R385, R404), host memory structures (R4), link words (R188,
R198), status codes (R393) and packed ejector addresses (R37). -/

namespace Sys2Proof.Machine

/-- Dword `i` of a submission entry. -/
def edw (e : Entry) (i : Nat) : Dword := e.words.getD i 0

/-- Payload dword P`i` (R385). -/
def pw (e : Entry) (i : Nat) : Dword := edw e (4 + i)

/-- Payload dwords P`i` and P`i+1` as one number, low dword first (R404). -/
def pq (e : Entry) (i : Nat) : Nat := (pw e i).toNat + 2 ^ 32 * (pw e (i + 1)).toNat

/-- A signed 64-bit payload value. -/
def pqS (e : Entry) (i : Nat) : Int := signed 64 (pq e i)

/-- OPCODE (R385). -/
def opcodeOf (e : Entry) : Nat := fld (edw e 0) 16 16

/-- ROLE_REQ (R385). -/
def roleReqOf (e : Entry) : Nat := fld (edw e 0) 14 2

/-- IV (R385). -/
def ivOf (e : Entry) : Nat := fld (edw e 0) 0 5

/-- TAG (R385). -/
def tagOf (e : Entry) : Dword := edw e 1

/-- Every bit of `w` outside `mask` is 0. -/
def onlyBits (w : Dword) (mask : Nat) : Bool := (w &&& ~~~(BitVec.ofNat 32 mask)) == 0

/-- The payload's RSV fields are 0: P`i` uses only the bits of the i-th mask, and dwords past the list none (R393, R404). -/
def rsvOk (e : Entry) (masks : List Nat) : Bool :=
  (List.range 12).all fun i => onlyBits (pw e i) (masks.getD i 0)

/-- All bits of a dword. -/
def allBits : Nat := 0xFFFFFFFF

/-! Status codes (R393, R448, R466, and the chapter of power states). -/

abbrev stOk : Nat := 0x0000
abbrev stUnknownOpcode : Nat := 0x0001
abbrev stFormat : Nat := 0x0002
abbrev stBusy : Nat := 0x0003
abbrev stState : Nat := 0x0004
abbrev stNotReady : Nat := 0x0005
abbrev stNoJob : Nat := 0x0006
abbrev stPendingFull : Nat := 0x0007
abbrev stLinePassed : Nat := 0x0008
abbrev stPosPassed : Nat := 0x0009
abbrev stMode : Nat := 0x000A
abbrev stOutOfRange : Nat := 0x000B
abbrev stPoisoned : Nat := 0x000C
abbrev stPoisonedData : Nat := 0x000D
abbrev stHostReadError : Nat := 0x000E
abbrev stFwFault : Nat := 0x000F
abbrev stAlreadyDone : Nat := 0x0010
abbrev stAbortedBeforeCommit : Nat := 0x0011
abbrev stStopped : Nat := 0x0012
abbrev stWrongRole : Nat := 0x0020
abbrev stRoleChanged : Nat := 0x0021
abbrev stNotGaffer : Nat := 0x0022
abbrev stPartnerRejected : Nat := 0x0023
abbrev stPartnerActive : Nat := 0x0024
abbrev stPartnerDown : Nat := 0x0025
abbrev stFwMismatch : Nat := 0x0026
abbrev stRefTimeout : Nat := 0x0027
abbrev stTableMismatch : Nat := 0x0028
abbrev stPagesMissing : Nat := 0x0029
abbrev stQueueFull : Nat := 0x0030
abbrev stDupPageId : Nat := 0x0031
abbrev stNoPage : Nat := 0x0032
abbrev stDecodeError : Nat := 0x0033
abbrev stStoreFull : Nat := 0x0034
abbrev stSpillFull : Nat := 0x0035
abbrev stNotLoaded : Nat := 0x0036
abbrev stOverlap : Nat := 0x0037
abbrev stStartPassed : Nat := 0x0038
abbrev stSpillExceedsReserve : Nat := 0x0039
abbrev stSpillReserve : Nat := 0x003A
abbrev stBuffer : Nat := 0x003B
abbrev stEnvelopeE1 : Nat := 0x003C
abbrev stEnvelopeE2 : Nat := 0x003D
abbrev stEnvelopeE3 : Nat := 0x003E
abbrev stEnvelopeE4 : Nat := 0x003F
abbrev stModuleAbsent : Nat := 0x0040
abbrev stModuleUnfit : Nat := 0x0041
abbrev stVoltageInUse : Nat := 0x0042
abbrev stGeometry : Nat := 0x0043
abbrev stNoScreen : Nat := 0x0050
abbrev stSlotInUse : Nat := 0x0051
abbrev stAssayOwned : Nat := 0x0052
abbrev stEmpty : Nat := 0x0053
abbrev stPopulation : Nat := 0x0060
abbrev stCapacity : Nat := 0x0061
abbrev stRetireFull : Nat := 0x0062
abbrev stLinked : Nat := 0x0070
abbrev stLimit : Nat := 0x0071
abbrev stServoActive : Nat := 0x0072
abbrev stBadResponse : Nat := 0x0090
abbrev stChallengeStale : Nat := 0x0091
abbrev stDebugLocked : Nat := 0x0092
abbrev stLevelDenied : Nat := 0x0093
abbrev stFuseConflict : Nat := 0x0094
abbrev stFuseInterrupted : Nat := 0x0095
abbrev stAuthFail : Nat := 0x0096
abbrev stAuthAbsent : Nat := 0x0097
abbrev stNotArmed : Nat := 0x00A0
abbrev stNoSnapshot : Nat := 0x00A1

/-! Host memory. -/

/-- The byte of host memory at `a`; a byte nothing has written reads 0 (DESIGN CHOICE, log 3). -/
def hostByte (s : State) (a : Nat) : Byte := mapGet 0 s.host.bytes a

/-- `n` bytes from `a` (addresses wrap at 64 bits). -/
def hostBytes (s : State) (a n : Nat) : List Byte := (List.range n).map fun i => hostByte s ((a + i) % 2 ^ 64)

/-- A number of little-endian bytes (R4). -/
def leNat (bs : List Byte) : Nat := bs.foldr (fun b acc => b.toNat + 256 * acc) 0

/-- The `n` little-endian bytes of `v` (R4). -/
def leBytes (n v : Nat) : List Byte := (List.range n).map fun i => BitVec.ofNat 8 (v / 256 ^ i)

/-- The dword of host memory at `a`. -/
def hostDw (s : State) (a : Nat) : Dword := BitVec.ofNat 32 (leNat (hostBytes s a 4))

/-- `n` dwords of host memory from `a`. -/
def hostDws (s : State) (a n : Nat) : List Dword := (List.range n).map fun i => hostDw s (a + 4 * i)

/-- Host memory with `bs` written from `a`. -/
def hostPut (s : State) (a : Nat) (bs : List Byte) : State :=
  let cells := (List.range bs.length).map fun i => ((a + i) % 2 ^ 64, bs.getD i 0)
  { s with host := { s.host with bytes := mapSetAll 0 s.host.bytes cells } }

/-- The little-endian bytes of dwords. -/
def dwBytes (ds : List Dword) : List Byte := ds.flatMap fun d => leBytes 4 d.toNat

/-- Host memory with dwords written from `a`. -/
def hostPutDws (s : State) (a : Nat) (ds : List Dword) : State := hostPut s a (dwBytes ds)

/-- How a DMA read of `n` bytes from `a` ends: an error anywhere fails it, else a poisoned completion poisons it (R59,
R106). -/
def hostReadEnd (s : State) (a n : Nat) : DmaEnd :=
  let hit := fun (l : Nat) => decide (a / 64 ≤ l ∧ l ≤ (a + n - 1) / 64 ∧ 0 < n)
  if s.host.failing.any hit then .failed else if s.host.poisoned.any hit then .poisoned else .ok

/-- Dword `i` of a record. -/
def rdw (r : List Dword) (i : Nat) : Dword := r.getD i 0

/-- The qword of dwords `i` and `i+1` of a record, low dword first. -/
def rq (r : List Dword) (i : Nat) : Nat := (rdw r i).toNat + 2 ^ 32 * (rdw r (i + 1)).toNat

/-- The record's RSV fields are 0: dword `i` uses only the bits of the i-th mask. -/
def recRsvOk (r : List Dword) (masks : List Nat) : Bool :=
  (List.range r.length).all fun i => onlyBits (rdw r i) (masks.getD i 0)

/-! Link words. -/

/-- One step of a CRC of `width` bits, most-significant bit first. -/
def crcBit (width poly crc : Nat) (b : Bool) : Nat :=
  let top := crc.testBit (width - 1)
  let sh := crc * 2 % 2 ^ width
  if top != b then sh ^^^ poly else sh

/-- A CRC over the bits of a value, most-significant first. -/
def crcBits (width poly crc len v : Nat) : Nat :=
  (List.range len).reverse.foldl (fun c i => crcBit width poly c (v.testBit i)) crc

/-- CHK of R188: CRC-8, polynomial 0x07, over bits [63:8]. -/
def crc8 (upper56 : Nat) : Nat := crcBits 8 0x07 0 56 upper56

/-- CRC-32 of R198 over qwords, bit 63 first. -/
def crc32q (ws : List Qword) : Nat :=
  (ws.foldl (fun c w => crcBits 32 0x04C11DB7 c 64 w.toNat) 0xFFFFFFFF) ^^^ 0xFFFFFFFF

/-- CRC-32 of R198 over dwords, bit 31 first. -/
def crc32d (ws : List Dword) : Nat :=
  (ws.foldl (fun c w => crcBits 32 0x04C11DB7 c 32 w.toNat) 0xFFFFFFFF) ^^^ 0xFFFFFFFF

/-- A control word (R188): TYPE, a body whose fields are given as (lowest bit, value) with bits counted as in the field
maps (8 to 55), and CHK. -/
def ctrlWord (typ : Nat) (fields : List (Nat × Nat)) : Qword :=
  let upper := typ * 2 ^ 48 + (fields.foldl (fun a f => a + f.2 * 2 ^ (f.1 - 8)) 0) % 2 ^ 48
  BitVec.ofNat 64 (upper * 256 + crc8 upper)

/-- A module-plane of a rank-ordered numbering: 4 m + q. -/
def mp (m q : Nat) : Nat := 4 * m + q

/-- The plane that module `m` carries as plane-in-module `q` (R31): 4 × rank + q, with 10 modules a rank. -/
def planeOf (m q : Nat) : Nat := 4 * (m / 10) + q

end Sys2Proof.Machine
end

