-- ==== Sys2Proof/Machine/Flags.lean ====
section
/-! DEFINITION. Events, counters, interrupts, CEASE and the quench trigger: what a command leaves in the status, event
and interrupt state (R380, R382, R219, R451 to R463). -/

namespace Sys2Proof.Machine

/-! Interrupts (R380, R382). -/

/-- Dword `k` of MSI-X table entry `v`: address low, address high, data, vector control. -/
def msixDw (s : State) (v k : Nat) : Dword := mapGet 0 s.mbx.msix (4 * v + k)

/-- Vector `v` has been programmed: its address or data is not 0 (log 9). -/
def vectorProgrammed (s : State) (v : Nat) : Bool :=
  msixDw s v 0 != 0 || msixDw s v 1 != 0 || msixDw s v 2 != 0

/-- Vector `v` is masked: bit 0 of its vector control. -/
def vectorMasked (s : State) (v : Nat) : Bool := bitOf (msixDw s v 3) 0

/-- Something left the chip. -/
def emit (s : State) (x : Sent) : State := { s with out := x :: s.out }

/-- Several things left the chip, in list order. -/
def emitAll (s : State) (xs : List Sent) : State := { s with out := xs.reverse ++ s.out }

/-- Send MSI-X vector `v`: a masked vector sets its pending bit, one never programmed sends nothing (R382). -/
def sendVector (s : State) (v : Nat) : State :=
  if vectorMasked s v then { s with mbx := { s.mbx with pba := s.mbx.pba ||| BitVec.ofNat 32 (2 ^ v) } }
  else if vectorProgrammed s v then emit s (.irq v) else s

/-! The counters (R462, R463). -/

/-- Counter number of R462. -/
def cnum (group index : Nat) : Nat := group * 4096 + index

/-- Width of counter `k`; 0 where no counter has that number. LNE_PACE_MIN (0x1005) is held apart and listed at 16. -/
def counterWidth (k : Nat) : Nat :=
  let i := k % 4096
  match k / 4096 with
  | 1 => if i ≤ 2 then 32 else if i ≤ 5 then 16 else 0
  | 2 => if i ≤ 48 then 32 else if i ≤ 50 then 16 else 0
  | 3 => if i ≤ 23 then 32 else if i ≤ 27 then 16 else if i ≤ 31 then 32 else if i = 32 then 16 else 0
  | 4 => if i ≤ 343 then 32 else if i ≤ 727 then 16 else if i ≤ 814 then 32 else 0
  | 5 => if i ≤ 3 then 32 else if i ≤ 5 then 16 else if i ≤ 12 then 32 else if i ≤ 14 then 16 else 0
  | 6 => if i ≤ 2 then 16 else if i ≤ 4 then 32 else 0
  | 7 => if i ≤ 18 then 32 else if i = 19 then 16 else 0
  | 8 => if i ≤ 1 then 16 else if i = 2 then 32 else if i ≤ 35 then 16 else if i ≤ 67 then 32 else 0
  | 9 => if i = 0 then 16 else if i ≤ 7 then 32 else 0
  | 10 => if i = 0 then 16 else if i = 1 then 32 else if i ≤ 3 then 16 else 0
  | 11 => if i ≤ 1 then 16 else if i = 2 then 32 else 0
  | 12 => if i = 0 then 16 else if i ≤ 2 then 32 else 0
  | _ => 0

/-- The counter number of LNE_PACE_MIN (R462). -/
def paceMinNum : Nat := cnum 1 5

/-- The COUNT_SAT event of counter `k` (R457). -/
def countSatCode (k : Nat) : Nat :=
  let g := k / 4096
  let i := k % 4096
  if g = 3 ∧ i ≤ 27 then 0x03FE else if g = 8 ∧ i ≤ 3 then 0x08FE else g * 256 + 0xFF

/-- The value of counter `k`. -/
def counterValue (s : State) (k : Nat) : Nat :=
  if k = paceMinNum then s.obs.paceMin else mapGet 0 s.obs.counters k

/-- The counters that hardware has incremented in the present TIME tick (R6). -/
def freshCounters (s : State) : List Nat := if s.obs.freshAt = s.time.clk then s.obs.fresh else []

/-- Add `n` to counter `k`, saturating at all-ones; answers whether COUNT_SAT is now to be raised (R463). -/
def bump (s : State) (k n : Nat) : State × Bool :=
  let top := 2 ^ counterWidth k - 1
  let v := min top (mapGet 0 s.obs.counters k + n)
  let sat := v == top && !s.obs.saturated.contains k
  ({ s with obs := { s.obs with counters := mapSet 0 s.obs.counters k v
                                saturated := if sat then s.obs.saturated ++ [k] else s.obs.saturated
                                freshAt := s.time.clk, fresh := (freshCounters s).filter (· != k) ++ [k] } }, sat)

/-! Events (R457 to R461). -/

/-- A one-dword item, signed or not. -/
def it (v : Int) : List Dword := [BitVec.ofInt 32 v]

/-- A qword item: a web line or a position, low dword first (R459). -/
def itq (v : Int) : List Dword := dwordsOf (unsignedOf 64 v)

/-- A time item: SEC_LO and NSEC (R459). -/
def itt (sec nsec : Nat) : List Dword := [BitVec.ofNat 32 sec, BitVec.ofNat 32 nsec]

/-- The line counter (R157). -/
def lineCounter (s : State) : Int := s.ftb.hwm

/-- The entries the log ring holds unread at most (R460). -/
def logSize : Nat := 65536

/-- The entries of one code stored in one rate window at most (R460). -/
def windowMax : Nat := 10000

/-- Store one entry, or answer `none` where R460 discards it. -/
def storeEntry (s : State) (code : Nat) (cont : Bool) (pay : List Dword) : Option State :=
  let inWindow := mapGet 0 s.obs.window code
  if logSize ≤ s.obs.log.length ∨ windowMax ≤ inWindow then none
  else
    let ev : Event := { code := code, lost := s.obs.lostNext, cont := cont, poison := false, seq := s.obs.seq
                        sec := s.time.sec, nsec := s.time.nsec
                        lineLo := unsignedOf 32 (lineCounter s), payload := pay }
    some { s with obs := { s.obs with log := s.obs.log ++ [ev], seq := (s.obs.seq + 1) % 2 ^ 32, lostNext := false
                                      window := mapSet 0 s.obs.window code (inWindow + 1) } }

/-- An entry discarded: counted in QCH_EVENT_LOST, and the next one stored carries LOST (R460). -/
def loseEntry (s : State) : State := (bump { s with obs := { s.obs with lostNext := true } } (cnum 12 2) 1).1

/-- Store an entry or lose it. -/
def putEntry (s : State) (code : Nat) (cont : Bool) (pay : List Dword) : State :=
  (storeEntry s code cont pay).getD (loseEntry s)

/-- The rest of a list item in continuing entries of ten dwords (R459). -/
def putRest (s : State) (code : Nat) : Nat → List Dword → State
  | 0, _ => s
  | _, [] => s
  | fuel + 1, rest => putRest (putEntry s code true (rest.take 10)) code fuel (rest.drop 10)

/-- Vector 30 after a stored entry whose SIGNAL bit is set, at most once per 10 µs: 4,000 TIME ticks (R461). -/
def signalLog (s : State) : State :=
  if s.time.clk < s.obs.signalAt then { s with obs := { s.obs with signalDue := true } }
  else sendVector { s with obs := { s.obs with signalAt := s.time.clk + 4000, signalDue := false } } 30

/-- Log one event with its items: masked events are not stored (R461). -/
def logOnly (s : State) (code : Nat) (pay : List Dword) : State :=
  if s.obs.logOff.contains code then s
  else
    let s1 := putRest (putEntry s code false (pay.take 10)) code pay.length (pay.drop 10)
    if s.obs.signalOn.contains code && decide (s1.obs.seq ≠ s.obs.seq) then signalLog s1 else s1

/-- A counter has saturated from one state to the next. -/
def newlyFull (s0 s1 : State) (k : Nat) : Bool := s1.obs.saturated.contains k && !s0.obs.saturated.contains k

/-- Log an event, without the quench trigger; where its loss saturates QCH_EVENT_LOST, also the COUNT_SAT of that (R461, R463). -/
def logEvent (s : State) (code : Nat) (pay : List Dword) : State :=
  let s1 := logOnly s code pay
  if newlyFull s s1 (cnum 12 2) then logOnly s1 (countSatCode (cnum 12 2)) (it (cnum 12 2)) else s1

/-- Add 1 to a counter of the QCH block itself, logging its COUNT_SAT. -/
def countLog (s : State) (k : Nat) : State :=
  let (s1, sat) := bump s k 1
  if sat then logEvent s1 (countSatCode k) (it k) else s1

/-- Finbuly runs. -/
def bootRunning (s : State) : Bool := s.boot.state == .running

/-- BOOT_STATUS has read RUNNING since reset: RUNNING, or RELOAD_REQUIRED, which only RUNNING leads to (R305, R380). R380's "before"
is read in time. DEDUCED (log 170). -/
def hasRun (s : State) : Bool := s.boot.state == .running || s.boot.state == .reloadRequired

/-! CEASE (R219 to R221). -/

/-- CEASE_ACK may be asserted: Finbuly has run; the chip is not FAILED, but in SAVE, and there for 10 µs, 4,000 TIME ticks, after
which the line keeps its level (R413, R479). -/
def mayAck (s : State) : Bool :=
  hasRun s && (if s.pwr.state = .save then s.pwr.saving && decide (s.time.clk < s.pwr.saveClk + 4000)
               else s.par.state != .failed && s.pwr.state != .off)

/-- The module groups in RUN, 0 to 39. -/
def runGroups (s : State) : List Nat :=
  (List.range 40).filter fun g => match s.dxl.groups[g]? with | some x => x.run | none => false

/-- The modules joined. -/
def joinedModules (s : State) : List Nat :=
  (List.range 40).filter fun g => match s.dxl.groups[g]? with | some x => x.joined | none => false

/-- The modules joined, and those past the handshake's JOBCFG and LINEBASE whose map is being settled (R210). -/
def linkedModules (s : State) : List Nat :=
  (List.range 40).filter fun g => match s.dxl.groups[g]? with | some x => x.joined || x.step == 3 || x.step == 4 | none => false

/-- A word on every lane of the groups `gs`. -/
def onLanes (s : State) (gs : List Nat) (w : Qword) : State :=
  emitAll s (gs.flatMap fun g => (List.range 4).map fun i => .lane (4 * g + i) w)

/-- A word on every lane of every module group in RUN. -/
def onEveryLane (s : State) (w : Qword) : State := onLanes s (runGroups s) w

/-- A word on the group stream of every module group in RUN. -/
def onEveryGroup (s : State) (w : Qword) : State := emitAll s ((runGroups s).map fun g => .ctrl g w)

/-- CEASE (R219): CSEQ `n` and the cause. -/
def ceaseWord (n cause : Nat) : Qword := ctrlWord 0x5A [(48, n), (44, cause)]

/-- A CEASE with the next CSEQ goes out on every lane of the groups `gs` and stands until RESUME (R219, R478). CEASE_ACK waits for
a CEASED with this CSEQ from each of `wait`; with none it is asserted at once where the chip may assert it (R221, R479). One asserted
for an earlier CEASE stays so, as only RESUME deasserts it. DESIGN CHOICE (log 178): also until the new CSEQ is confirmed. -/
def startCease (s : State) (cause : Nat) (gs wait : List Nat) : State :=
  let n := (s.cease.seq + 1) % 256
  let s1 := onLanes s gs (ceaseWord n cause)
  { s1 with cease := { seq := n, inForce := true, waiting := wait }
            pins := { s1.pins with ceaseAck := s1.pins.ceaseAck || (wait.isEmpty && mayAck s) } }

/-- A CEASE during SAVE goes out on the lanes that were in RUN as it was entered: their transmitters are not yet idle in the
first 1.10 µs, 440 TIME ticks (R413, R415). The modules that had a CEASED to send have another, with the new CSEQ. Later none can
go out: it stands, and what the modules confirm is still the CEASE before it. -/
def ceaseInSave (s : State) (cause : Nat) : State :=
  if s.pwr.saving ∧ s.time.clk < s.pwr.saveClk + 440 then startCease s cause s.pwr.saveGroups s.pwr.saveJoined
  else { s with cease := { s.cease with inForce := true } }

/-- Send CEASE with a cause: 0 CEASE_N, 1 supply sag, 2 command, 3 quench (R219). A chip that is FAILED, off or has not yet run has no
group in RUN and no module joined: there the CEASE stands (R478), and CEASE_ACK is what R479 says. -/
def sendCease (s : State) (cause : Nat) : State :=
  if s.pwr.state = .save then ceaseInSave s cause else startCease s cause (runGroups s) (joinedModules s)

/-! The quench trigger (R451, R452). -/

/-- Event code of QUENCH. -/
def quenchCode : Nat := 0x0C01

/-- A trigger now joins the quench of this TIME tick (R452; DEDUCED, log 175). -/
def joinsQuench (s : State) : Bool := s.quench.latchDue && s.quench.tqClk == s.time.clk

/-- A trigger from `source` (bit 3 pin, 2 time, 1 event, 0 command). Armed: one quench. In the TIME tick of a quench just
triggered: its source joins that quench. Otherwise ignored and counted (R452). -/
def takeTrigger (s : State) (source evCode evSeq : Nat) : State :=
  if s.quench.armed then
    let q := { s.quench with armed := false, valid := false, sources := source, ceaseSent := s.quench.ceaseOn
                             qseq := (s.quench.qseq + 1) % 2 ^ 16, tqSec := s.time.sec, tqNsec := s.time.nsec
                             evCode := evCode, evSeq := evSeq, latchDue := true, tqClk := s.time.clk }
    let s1 := countLog { s with quench := q } (cnum 12 0)
    if s.quench.ceaseOn then sendCease s1 3 else s1
  else if joinsQuench s then
    { s with quench := { s.quench with sources := s.quench.sources ||| source
                                       evCode := if source = 2 then evCode else s.quench.evCode
                                       evSeq := if source = 2 then evSeq else s.quench.evSeq } }
  else countLog s (cnum 12 1)

/-- An event triggers a quench: QUENCH_ARM selected it and its LOG bit is 1 (R451, R461). -/
def eventSelected (s : State) (code : Nat) : Bool :=
  s.quench.eventEn && s.quench.evMap.contains code && !s.obs.logOff.contains code

/-- A counter of the log or of quenches that saturated from `s0` to `s` has raised QCH_COUNT_SAT, a trigger where it is selected. -/
def satTrigger (s0 s : State) : State :=
  let code := countSatCode (cnum 12 0)
  if (List.range 3).any (fun k => newlyFull s0 s (cnum 12 k)) && eventSelected s code then
    let seq := match (s.obs.log.filter fun e => e.code == code).getLast? with | some e => e.seq | none => s.obs.seq
    takeTrigger s 2 code seq
  else s

/-- A trigger, with the QCH_COUNT_SAT it may raise (R451, R452). -/
def fireQuench (s : State) (source evCode evSeq : Nat) : State := satTrigger s (takeTrigger s source evCode evSeq)

/-- Raise an event: it is logged, and where QUENCH_ARM selected it, it triggers a quench (R451, R461). -/
def raise (s : State) (code : Nat) (pay : List Dword) : State :=
  let s1 := logEvent s code pay
  satTrigger s (if eventSelected s code then takeTrigger s1 2 code s.obs.seq else s1)

/-- Raise an event where `b` holds. -/
def raiseIf (b : Bool) (s : State) (code : Nat) (pay : List Dword) : State := if b then raise s code pay else s

/-- Add `n` to counter `k`; a counter that reaches all-ones raises its COUNT_SAT event once (R463). -/
def countN (s : State) (k n : Nat) : State :=
  let (s1, sat) := bump s k n
  raiseIf sat s1 (countSatCode k) (it k)

/-- Add 1 to counter `k`. -/
def count (s : State) (k : Nat) : State := countN s k 1

/-! Free values. -/

/-- The next value the spec leaves undefined, and the state that has used it. -/
def drawFree (s : State) : State × Nat := ({ s with free := s.free + 1 }, (Config.freeValue s.free).toNat)

end Sys2Proof.Machine
end

