-- ==== Sys2Proof/Machine/Ops.lean ====
section
/-! DEFINITION. Shared operations: command classes, checks, commit and completion (R385 to R393), record reads, updates
of one group, axis or page, and the offsets in force at a web line (R43, R44, R488). -/

namespace Sys2Proof.Machine

/-! Classes (R389 and the command tables). -/

/-- A command's class. -/
inductive Cls where
  | query | control | page | job
deriving DecidableEq, Repr

/-- The queries. -/
def queryOps : List Nat :=
  [0x0106, 0x010F, 0x0114, 0x0115, 0x0205, 0x0305, 0x0306, 0x0407, 0x0408, 0x0509, 0x0606, 0x0706, 0x0707, 0x0708,
   0x0804, 0x0905, 0x0908, 0x090B, 0x0A03, 0x0A04, 0x0A06, 0x0A08]

/-- The highest opcode of each group of the tables. -/
def lastOp : Nat → Nat
  | 1 => 0x15 | 2 => 5 | 3 => 6 | 4 => 8 | 5 => 9 | 6 => 6 | 7 => 8 | 8 => 4 | 9 => 11 | 10 => 8 | _ => 0

/-- An opcode some table lists (R393 to R397). -/
def assigned (op : Nat) : Bool := decide (1 ≤ op % 256 ∧ op % 256 ≤ lastOp (op / 256))

/-- The class of an opcode. -/
def classOf (op : Nat) : Option Cls :=
  if !assigned op then none
  else if queryOps.contains op then some .query
  else if op = 0x0103 ∨ op = 0x0104 then some .page
  else if op = 0x0101 ∨ op = 0x0102 ∨ op = 0x0301 ∨ op = 0x0302 then some .job
  else some .control

/-- The commands a servitor rejects with NOT_GAFFER (R272). -/
def gafferOnly (op : Nat) : Bool :=
  op == 0x0201 || op == 0x0304 || op == 0x0303 || op == 0x010C ||
  ((op / 256 == 5 || op / 256 == 6) && !queryOps.contains op && op != 0x0501 && op != 0x0506 && op != 0x0601
    && op != 0x0602)

/-- The commands accepted before MEM_REGIONS has succeeded (R384). -/
def beforeMemory (op : Nat) : Bool :=
  queryOps.contains op || op / 256 == 4 || op / 256 == 7 || op / 256 == 9 || op == 0x0112 || op == 0x0801

/-- PAIR_STATE code (R381). -/
def pairCode : PairState → Nat
  | .syncing => 0 | .shadow => 1 | .gaffer => 2 | .failed => 3

/-- PWR_STATE code (R381, R487). -/
def powerCode : PowerState → Nat
  | .print => 0 | .ready => 1 | .parked => 2 | .sleep => 3 | .save => 4 | .off => 5

/-- The chip is the gaffer. -/
def isGaffer (s : State) : Bool := s.par.state == .gaffer

/-- The chip is a servitor: pairing is enabled and it is not the gaffer (R266, R272). Without a partner nothing of
the pair applies (the chapter on gaffer and servitor). -/
def servitor (s : State) : Bool := s.par.enabled && !isGaffer s

/-- The chip forms generations and assay updates: it is no servitor, nor a chip that ROLE_SEL has taken the gaffer role from
(R117, R253, R262). -/
def forms (s : State) : Bool := !servitor s && s.par.state != .shadow && s.par.state != .failed

/-! The pacing timebase (R174) and the speed estimate (R164). -/

/-- Units of 39.0625 ps in a second, times 1,024: the figure of R173. -/
abbrev rateUnits : Nat := 26214400000000

/-- The present instant of the FIRE timebase, in 39.0625 ps. -/
def nowUnits (s : State) : Nat := 64 * s.time.clk

/-- The chip's clocks and encoders run (R405): not in SLEEP or OFF, and in SAVE for 10 µs, 4,000 TIME ticks (R413). -/
def awake (s : State) : Bool :=
  match s.pwr.state with
  | .print | .ready | .parked => true
  | .save => decide (s.time.clk < s.pwr.saveClk + 4000)
  | .sleep | .off => false

/-- λ as one number, in 1/2³² line. -/
def lamOf (f : Ftb) : Int := f.lamI * 2 ^ 32 + f.lamF

/-- λ put back from 1/2³² line; its whole part wraps at 64 bits (R153). -/
def putLam (f : Ftb) (v : Int) : Ftb := { f with lamI := wrapS 64 (v / 2 ^ 32), lamF := (v % 2 ^ 32).toNat }

/-- How far web line `a` lies past web line `b`: web lines wrap at 64 bits (R153, R464). -/
def linesPast (a b : Int) : Int := wrapS 64 (a - b)

/-- The time, in units, the pacing rate takes to reach its target at ACCEL_MAX; 0 where it steps (R174). -/
def rampTime (s : State) : Nat :=
  let a := match s.job with | some j => j.accelMax | none => 0
  if a = 0 then 0 else (s.ftb.rateTarget - s.ftb.rate).natAbs * 25600000000 / (1024 * a)

/-- The pacing λ and rate at instant `t` (R174): linear ramp to the target, then constant. -/
def pacingAt (s : State) (t : Nat) : Int × Int :=
  let f := s.ftb
  let dt := t - f.paceAt
  let tr := rampTime s
  if dt < tr then
    let r := f.rate + (f.rateTarget - f.rate) * dt / tr
    (lamOf f + (f.rate + r) * dt * 2 ^ 31 / rateUnits, r)
  else
    (lamOf f + ((f.rate + f.rateTarget) * tr * 2 ^ 31 + f.rateTarget * ((dt - tr : Nat) : Int) * 2 ^ 32) / rateUnits, f.rateTarget)

/-- A cue mask ends once the line position has advanced MASK_LINES lines beyond the captured one (R167). -/
def maskOver (c : CueCh) (lam : Int) : Bool :=
  match c.maskFrom with
  | some m => decide (m + c.maskLines * 2 ^ 32 ≤ lam)
  | none => true

/-- The cue masks that λ has passed end (R167). -/
def endMasks (s : State) : State :=
  { s with cues := s.cues.map fun c => if maskOver c (lamOf s.ftb) then { c with maskFrom := none } else c }

/-- λ and the rate of pacing mode brought to instant `t` (R174), which ends the cue masks that λ has passed (R167). -/
def advancePacing (s : State) (t : Nat) : State :=
  if s.webCfg.pacing ∧ s.ftb.paceAt ≤ t then
    let (lam, r) := pacingAt s t
    endMasks { s with ftb := { putLam s.ftb lam with rate := r, speed := r, paceAt := t } }
  else s

/-- FTB_SPEED (R164): in pacing mode the pacing rate of the present instant, else the estimate of channel 0. -/
def estimate (s : State) : Int := if s.webCfg.pacing && awake s then (pacingAt s (nowUnits s)).2 else s.ftb.speed

/-- λ at instant `t` by its last count or pacing step (R166). DESIGN CHOICE (log 139): in pacing mode every instant is a pacing step. -/
def lamNow (s : State) (t : Nat) : Int := if s.webCfg.pacing then (pacingAt s t).1 else lamOf s.ftb

/-- INC in 1/2³² ns at rate adjustment `a` (R364). -/
def timeInc (a : Int) : Nat := (10737418240 + 10737418240 * a / 16000000000).toNat

/-- SEC and NSEC of the stamp of instant `t`, an earlier, the present or a coming one (R366, log 143): the counter in the TIME tick
of `t` as the rate adjustment and the steps since have it. -/
def stampTime (s : State) (t : Nat) : Nat × Nat :=
  let now : TimeMark := { clk := s.time.clk, sec := s.time.sec, nsec := s.time.nsec, frac := s.time.frac, adj := s.time.adj }
  let m := (s.time.marks.find? fun m => decide (t / 64 < m.clk)).getD now
  let total : Int := (2 ^ 32 * (1000000000 * m.sec + m.nsec) + m.frac : Nat) - timeInc m.adj * ((m.clk : Int) - (t / 64 : Nat))
  let ns := total / 2 ^ 32
  (unsignedOf 48 (ns / 1000000000), (ns % 1000000000).toNat)

/-! Commit and completion. -/

/-- What a command's meaning answers at its turn: it completes, it waits before its commit point with nothing done, or
it has committed and completes later. -/
inductive Reply where
  | done (s : State) (status : Nat) (result : List Dword)
  | waits
  | runs (s : State) (note : List Nat)

/-- Class of an in-flight record. -/
def recClass (r : InFlight) : Option Cls := classOf (opcodeOf r.entry)

/-- A command of class `c` may commit after the records fetched before it (R389). An opcode no table lists has no class; a Job command
holds it back, as it does every command but a Query (DEDUCED, log 193). -/
def mayCommit (c : Option Cls) (before : List InFlight) : Bool :=
  match c with
  | some .query => true
  | none => before.all fun r => recClass r != some .job
  | some .control => before.all fun r => recClass r != some .job && (recClass r != some .control || r.committed)
  | some .page => before.all fun r => recClass r != some .job && (recClass r != some .page || r.committed)
  | some .job => before.all fun r =>
      recClass r != some .job && recClass r != some .page && (recClass r != some .control || r.committed)

/-- The uncommitted in-flight record of entry `e`, if the class order lets it commit now; a halted processor commits
nothing (R441). -/
def commitRecord (s : State) (e : Entry) : Option InFlight :=
  let isIt := fun (r : InFlight) => r.entry == e && !r.committed
  if s.sec.halted then none else match s.mbx.inFlight.find? isIt with
  | none => none
  | some r => if mayCommit (recClass r) (s.mbx.inFlight.takeWhile fun x => !isIt x) then some r else none

/-- The 64-byte completion entry of R385 as dwords. -/
def completionDws (s : State) (r : InFlight) (status : Nat) (result : List Dword) : List Dword :=
  let d1 := BitVec.ofNat 32 (opcodeOf r.entry * 2 ^ 16 + status)
  let d2 := BitVec.ofNat 32 (s.mbx.sqHead * 2 ^ 24 + pairCode r.latch * 2 ^ 22)
  let d3 := BitVec.ofNat 32 (if s.mbx.phase then 2 ^ 31 else 0)
  [tagOf r.entry, d1, d2, d3] ++ (List.range 12).map fun i => result.getD i 0

/-- Complete an in-flight command: its entry leaves the list, its completion goes to host memory, its vector is sent
(R387). A completion discarded by an endpoint reset is neither written nor signalled (R379). -/
def finish (s : State) (r : InFlight) (status : Nat) (result : List Dword) : State :=
  let s1 := { s with mbx := { s.mbx with inFlight := s.mbx.inFlight.erase r } }
  if r.discard then s1
  else
    let s2 := hostPutDws s1 (s.mbx.cqBase.toNat + 64 * s.mbx.cqIndex) (completionDws s r status result)
    let wrap := s.mbx.cqIndex = 255
    let s3 := { s2 with mbx := { s2.mbx with cqIndex := (s.mbx.cqIndex + 1) % 256, cqUnread := s.mbx.cqUnread + 1
                                             phase := if wrap then !s.mbx.phase else s.mbx.phase } }
    sendVector s3 (if 30 ≤ ivOf r.entry then 0 else ivOf r.entry)

/-- Mark an in-flight command committed, with what it keeps while it runs. -/
def commitRunning (s : State) (r : InFlight) (note : List Nat) : State :=
  let fl := s.mbx.inFlight.map fun x => if x = r then { x with committed := true, note := note } else x
  { s with mbx := { s.mbx with inFlight := fl } }

/-- The role checks of R266: the status on failure. -/
def roleCheck (s : State) (r : InFlight) : Option Nat :=
  let req := roleReqOf r.entry
  let latchedGaffer := r.latch == .gaffer
  if (req = 1 ∧ !latchedGaffer) ∨ (req = 2 ∧ latchedGaffer) then some stWrongRole
  else if req ≠ 0 ∧ (r.latch ≠ s.par.state ∨ r.epoch.toNat ≠ s.par.epoch) then some stRoleChanged
  else none

/-- The checks every command makes at its commit point, in order: FAILED latched, which executes nothing (R385), the opcode, the header, SAVE, the role, readiness and
the gaffer-only commands (R393, R387, R414, R266, R384, R272). -/
def commonCheck (s : State) (r : InFlight) : Option Nat :=
  let op := opcodeOf r.entry
  if r.latch = .failed then some stState
  else if !assigned op then some stUnknownOpcode
  else if roleReqOf r.entry = 3 ∨ 30 ≤ ivOf r.entry then some stFormat
  else if s.pwr.state = .save ∨ s.pwr.state = .off then some stState
  else match roleCheck s r with
    | some st => some st
    | none =>
      if !s.mem.ready && !beforeMemory op then some stNotReady
      else if gafferOnly op && servitor s then some stNotGaffer
      else none

/-- Mark an in-flight command as waiting before its commit point (R78, R273). -/
def markWaiting (s : State) (r : InFlight) : State :=
  let fl := s.mbx.inFlight.map fun x => if x = r then { x with note := [1] } else x
  { s with mbx := { s.mbx with inFlight := fl } }

/-- Put a reply into effect. -/
def settle (s : State) (r : InFlight) : Reply → State
  | .done s1 st res => finish s1 r st res
  | .waits => markWaiting s r
  | .runs s1 note => commitRunning s1 r note

/-- The turn of a mailbox command: entry `e` in flight, with its opcode that of the row and its place in the class order
reached, makes the common checks and then the row's own. A command not in flight, or held back, changes nothing. -/
def command (ops : List Nat) (e : Entry) (body : InFlight → State → Reply) (s : State) : State :=
  if ops.contains (opcodeOf e) then
    match commitRecord s e with
    | none => s
    | some r =>
      match commonCheck s r with
      | some st => finish s r st []
      | none => settle s r (body r s)
  else s

/-- Reject with a status, nothing changed. -/
def reject (s : State) (st : Nat) : Reply := .done s st []

/-- Complete with OK and a result. -/
def okWith (s : State) (res : List Dword) : Reply := .done s stOk res

/-- The first failing check decides: each check gives its failure flag and status. -/
def firstFail : List (Bool × Nat) → Option Nat
  | [] => none
  | (b, st) :: rest => if b then some st else firstFail rest

/-- Make the checks in order; when none fails, go on. -/
def checked (s : State) (checks : List (Bool × Nat)) (body : State → Reply) : Reply :=
  match firstFail checks with
  | some st => reject s st
  | none => body s

/-- The committed in-flight command with this opcode, if any. -/
def runningCmd (s : State) (op : Nat) : Option InFlight :=
  s.mbx.inFlight.find? fun r => r.committed && opcodeOf r.entry == op

/-- Complete the running command with this opcode, if any. -/
def finishOp (s : State) (op st : Nat) (res : List Dword) : State :=
  match runningCmd s op with
  | some r => finish s r st res
  | none => s

/-- Read a record of `n` dwords: a failed or poisoned read completes the command with HOST_READ_ERROR. -/
def withRecord (s : State) (addr n : Nat) (body : List Dword → Reply) : Reply :=
  if hostReadEnd s addr (4 * n) = .ok then body (hostDws s addr n) else reject s stHostReadError

/-! Updates of one element. -/

/-- Element `i` of a list changed by `f`. -/
def modAt {α : Type} (f : α → α) (l : List α) (i : Nat) : List α := l.modify i f

/-- Group `g`, or the reset group past the list. -/
def groupAt (s : State) (g : Nat) : Group := s.dxl.groups.getD g Group.reset

/-- Group `g` changed. -/
def setGroup (s : State) (g : Nat) (f : Group → Group) : State :=
  { s with dxl := { s.dxl with groups := modAt f s.dxl.groups g } }

/-- Lane `l`. -/
def laneAt (s : State) (l : Nat) : Lane := s.dxl.lanes.getD l (Lane.reset l)

/-- Lane `l` changed. -/
def setLane (s : State) (l : Nat) (f : Lane → Lane) : State :=
  { s with dxl := { s.dxl with lanes := modAt f s.dxl.lanes l } }

/-- Axis `a`. -/
def axisAt (s : State) (a : Nat) : Axis := s.mot.axes.getD a Axis.reset

/-- Axis `a` changed. -/
def setAxis (s : State) (a : Nat) (f : Axis → Axis) : State :=
  { s with mot := { s.mot with axes := modAt f s.mot.axes a } }

/-- Loop slot `k`. -/
def loopAt (s : State) (k : Nat) : Loop := s.mot.loops.getD k Loop.reset

/-- Loop slot `k` changed. -/
def setLoop (s : State) (k : Nat) (f : Loop → Loop) : State :=
  { s with mot := { s.mot with loops := modAt f s.mot.loops k } }

/-- The page with an id. -/
def pageOf (s : State) (id : Dword) : Option Page := s.pages.list.find? fun p => p.id == id

/-- The page with an id, changed. -/
def setPage (s : State) (id : Dword) (f : Page → Page) : State :=
  { s with pages := { s.pages with list := s.pages.list.map fun p => if p.id = id then f p else p } }

/-! Web-stamped values (R16, R43, R44). -/

/-- The value in force for web line `n`: the latest change at or before it, else the base. -/
def timedAt (t : Timed) (key : Nat) (n : Int) : Int :=
  let best := t.changes.foldl (fun (acc : Option (Int × Int)) c =>
    if c.1 = key ∧ c.2.1 ≤ n then
      match acc with
      | none => some (c.2.1, c.2.2)
      | some a => if a.1 ≤ c.2.1 then some (c.2.1, c.2.2) else some a
    else acc) none
  match best with
  | some a => a.2
  | none => mapGet 0 t.base key

/-- A change at a web line; one of the same key and line replaces an earlier one (R16). -/
def timedPut (t : Timed) (key : Nat) (line val : Int) : Timed :=
  { t with changes := (t.changes.filter fun c => !(c.1 == key && c.2.1 == line)) ++ [(key, line, val)] }

/-- The changes of a key not yet reached by the line counter: its pending changes. -/
def timedPending (t : Timed) (key : Nat) (line : Int) : List (Int × Int) :=
  (t.changes.filter fun c => c.1 == key && decide (line < c.2.1)).map fun c => c.2

/-- Whether a further change of `key` at `line` would pass `limit` pending changes; one that replaces does not. -/
def timedFull (t : Timed) (key : Nat) (now line : Int) (limit : Nat) : Bool :=
  let p := timedPending t key now
  decide (limit ≤ (p.filter fun c => c.1 != line).length)

/-- s of the open job: 1 at 2,400 lpi, 2 at 1,200 lpi (R35); 1 with no job. -/
def jobS (s : State) : Nat := match s.job with | some j => j.s | none => 1

/-- The planes in use of the open job. -/
def planesInUse (s : State) : List Nat :=
  match s.job with
  | none => []
  | some j => (List.range 16).filter fun p => match j.planes[p]? with | some c => c.inUse | none => false

/-- D_p in 1/256 native line, in force for web line `n` (R44). -/
def d256At (s : State) (p : Nat) (n : Int) : Int := timedAt s.web.dOff p n

/-- D_p div (256 s) for web line `n`, in job lines (R41). -/
def dLines (s : State) (p : Nat) (n : Int) : Int := d256At s p n / (256 * (jobS s : Int))

/-- The values of D_p that R488 counts: in force at the line counter, and every pending change. -/
def dFigures (s : State) (p : Nat) : List Int :=
  dLines s p (lineCounter s) ::
    (timedPending s.web.dOff p (lineCounter s)).map fun c => c.2 / (256 * (jobS s : Int))

/-- Those of `ps` that are in use: the set of R488, narrowed. -/
def usedOf (s : State) (ps : List Nat) : List Nat := ps.filter fun p => (planesInUse s).contains p

/-- D_min over the planes in use among `ps` (R488); 0 for an empty set. -/
def dMin (s : State) (ps : List Nat) : Int :=
  match (usedOf s ps).flatMap (dFigures s) with
  | [] => 0
  | x :: xs => xs.foldl min x

/-- D_max over the planes in use among `ps` (R488); 0 for an empty set. -/
def dMax (s : State) (ps : List Nat) : Int :=
  match (usedOf s ps).flatMap (dFigures s) with
  | [] => 0
  | x :: xs => xs.foldl max x

/-- LEAD of the open job; 128 with none. -/
def leadOf (s : State) : Nat := match s.job with | some j => j.lead | none => 128

/-- The delivery deadline of web line `n` of plane `p`, a line-counter value (R41). -/
def deliveryDeadline (s : State) (p : Nat) (n : Int) : Int := n + dLines s p n - leadOf s

/-- A once-per-job report: whether it is new, and the state that has made it. -/
def onceJob (s : State) (key : Nat) : Bool × State :=
  match s.job with
  | none => (false, s)
  | some j => if j.once.contains key then (false, s) else (true, { s with job := some { j with once := j.once ++ [key] } })

/-- A once-per-page report for the page `id`. -/
def oncePage (s : State) (id : Dword) (key : Nat) : Bool × State :=
  match pageOf s id with
  | none => (false, s)
  | some p => if p.once.contains key then (false, s) else (true, setPage s id fun q => { q with once := q.once ++ [key] })

/-- A page is ADMITTED or PRINTING. -/
def pageActive (p : Page) : Bool := p.state == .admitted || p.state == .printing

/-- Some page is ADMITTED or PRINTING. -/
def anyActive (s : State) : Bool := s.pages.list.any pageActive

/-- The page now printing, the latest admitted if several: the page a once-per-page report of the web belongs to. -/
def printingPages (s : State) : List Page := s.pages.list.filter fun p => p.state == .printing

/-- Once per printing page: whether some PRINTING page has not had this report, and the state in which they all have. -/
def oncePrinting (s : State) (key : Nat) : Bool × State :=
  let fresh := (printingPages s).filter fun p => !p.once.contains key
  (!fresh.isEmpty, fresh.foldl (fun t p => setPage t p.id fun q => { q with once := q.once ++ [key] }) s)

end Sys2Proof.Machine
end

