-- ==== Sys2Proof/Machine/Wire.lean ====
section
/-! DEFINITION. The words the head link and the partner link carry: records, phases, line base, job configuration, roles
and messages (R191 to R206, R217, R267, R268). -/

namespace Sys2Proof.Machine

/-- −2⁶³: what a next-free tick and an unbounded generation hold (R129, R268). -/
def minI64 : Int := -(2 ^ 63 : Int)

/-- KIND code of REC (R197). -/
def recKindCode : RecKind → Nat
  | .print => 0 | .idle => 1 | .late => 2 | .cut => 3

/-- The schedule word of R128; 0 for a blank record (R197). -/
def schedWord (r : Rec) : Nat :=
  if r.kind = .print then r.gen8 % 256 * 2 ^ 24 + r.refill * 2 ^ 18 + r.seam * 2 ^ 12 + r.directRow * 2 ^ 8 else 0

/-- The head data word (R197). -/
def headWord (r : Rec) : Qword := BitVec.ofNat 64 (schedWord r * 2 ^ 32 + unsignedOf 32 r.b)

/-- Level word `k` of a PRINT record: 32 columns of 2 bits, or 64 of 1 bit, first column highest (R197). -/
def levelWord (onebit : Bool) (levels : List (Nat × Nat)) (k : Nat) : Qword :=
  BitVec.ofNat 64 (levels.foldl (fun acc l =>
    if onebit then (if l.1 / 64 = k then acc + (min l.2 1) * 2 ^ (63 - l.1 % 64) else acc)
    else (if l.1 / 32 = k then acc + l.2 % 4 * 2 ^ (62 - 2 * (l.1 % 32)) else acc)) 0)

/-- The data words of a record: its head word, then its level words where it is a PRINT record (R197). -/
def recData (r : Rec) : List Qword :=
  headWord r :: (if r.kind = .print then
    (List.range (if r.onebit then 260 else 520)).map (levelWord r.onebit r.levels) else [])

/-- REC (R197). -/
def recWord (r : Rec) : Qword :=
  ctrlWord 0x41 [(54, r.q), (52, recKindCode r.kind), (51, if r.resync then 1 else 0), (40, r.rseq),
                 (8, unsignedOf 32 r.n)]

/-- RECEND (R197). -/
def recEndWord (r : Rec) (data : List Qword) : Qword := ctrlWord 0x42 [(54, r.q), (40, r.rseq), (8, crc32q data)]

/-- Data words the spec promises nothing about, one free value each. -/
def freeWords : Nat → State → State × List Qword
  | 0, s => (s, [])
  | n + 1, s =>
    let (s1, v) := drawFree s
    let (s2, ws) := freeWords n s1
    (s2, BitVec.ofNat 64 v :: ws)

/-- Send a record on its group's stream: REC, head word, level words, RECEND. After a debug-port write nothing is promised of
its data (R439). -/
def sendRec (s0 : State) (r : Rec) : State :=
  let (s, data) := if s0.sec.outside then freeWords (recData r).length s0 else (s0, recData r)
  emitAll s [.ctrl r.m (recWord r), .data r.m data, .ctrl r.m (recEndWord r data)]

/-- Role codes of MARK and ROLE: 0 none, 1 gaffer, 2 servitor (R191, R217, R259). -/
def roleCode (p : PairState) : Nat := match p with | .gaffer => 1 | .shadow => 2 | _ => 0

/-- The epoch the chip's MARK and ROLE words carry: its own, or in SHADOW the epoch it holds (R259, R264). -/
def sendRole (s : State) : State :=
  onEveryLane s (ctrlWord 0x4B [(54, roleCode s.par.state), (16, s.par.epoch)])

/-- FILL and IDLE: body 0 (R189). -/
def fillWord : Qword := ctrlWord 0x1E []
def idleWord : Qword := ctrlWord 0x1F []

/-- The MARK that a lane sends in slot 0 of superframe `sfn` (R191, R217): its logical lane, the module, or 0 on the partner
link, and the role and epoch of the chip's ROLE words. -/
def markWord (s : State) (lane sfn : Nat) : Qword :=
  let ll := match s.dxl.lanes[lane]? with | some x => x.txLogical | none => lane % 4
  ctrlWord 0x2D [(54, ll), (48, if lane < 160 then lane / 4 else 0), (46, roleCode s.par.state), (40, sfn % 64), (8, s.par.epoch)]

/-- LINEBASE in two words, high half first (R195). -/
def linebaseWords (v : Int) : List Qword :=
  let u := unsignedOf 64 v
  [ctrlWord 0x47 [(55, 1), (8, u / 2 ^ 32)], ctrlWord 0x47 [(55, 0), (8, u % 2 ^ 32)]]

/-- PIM_EN of module `m` under the open job (R196). -/
def pimEn (s : State) (m : Nat) : Nat :=
  (List.range 4).foldl (fun a q => if (planesInUse s).contains (planeOf m q) then a + 2 ^ q else a) 0

/-- JOBCFG of the open job for module `m` (R196). -/
def jobcfgWord (s : State) (j : Job) (m : Nat) : Qword :=
  ctrlWord 0x46 [(55, if j.s = 2 then 1 else 0), (54, if j.onebit then 1 else 0), (50, pimEn s m),
                 (40, j.jobId.toNat % 256)]

/-- JOBCFG at a join while no job is open (R196): no plane in use; resolution, depth and job number, which nothing then gives,
are free values (log 146). -/
def joinJobcfg (v : Nat) : Qword := ctrlWord 0x46 [(55, v % 2), (54, v / 2 % 2), (40, v / 4 % 256)]

/-- PHASE (R204). -/
def phaseWord (q row phi : Nat) (n : Int) : Qword := ctrlWord 0x43 [(54, q), (50, row), (40, phi), (8, unsignedOf 32 n)]

/-- RESUME with the CSEQ it ends (R219). -/
def resumeWord (n : Nat) : Qword := ctrlWord 0x4C [(48, n)]

/-- A partner message: PMSG, its data words and PEND (R267, R268). -/
def sendPartner (s : State) (kind : Nat) (words : List Qword) : State :=
  let mseq := s.par.mseqTx
  let open_ := ctrlWord 0xA0 [(48, kind), (32, words.length), (8, mseq)]
  let close := ctrlWord 0xA1 [(24, crc32q words), (8, mseq % 2 ^ 16)]
  let s1 := emitAll s [.partner open_, .partnerData words, .partner close]
  { s1 with par := { s1.par with mseqTx := (mseq + 1) % 2 ^ 24 } }

/-- A message to the servitor: only the gaffer of a running partner link sends it. -/
def tellServitor (s : State) (kind : Nat) (words : List Qword) : State :=
  if isGaffer s && s.par.linkRun then sendPartner s kind words else s

/-- A signed value as a link word. -/
def sq (v : Int) : Qword := BitVec.ofNat 64 (unsignedOf 64 v)

/-- A word from its two halves. -/
def halves (hi lo : Nat) : Qword := BitVec.ofNat 64 (hi % 2 ^ 32 * 2 ^ 32 + lo % 2 ^ 32)

end Sys2Proof.Machine
end

