-- ==== Sys2Proof/Machine/Roles.lean ====
section
/-! DEFINITION. Shared operations on the pair state and the chip's health: FAILED, SYNCING, SHADOW, GAFFER (R259 to
R265, R276), groups leaving RUN, seams and out-of-step marks (R140 to R143). -/

namespace Sys2Proof.Machine

/-- AUTH_MASK without the bit of module `g`, or with it. -/
def setAuth (s : State) (g : Nat) (b : Bool) : State :=
  let bit := BitVec.ofNat 40 (2 ^ g)
  { s with sec := { s.sec with authMask := if b then s.sec.authMask ||| bit else s.sec.authMask &&& ~~~bit } }

/-- A MODULE_AUTH of module `g` ends with a status: OK sets the AUTH_MASK bit, every other outcome clears it, AUTH_FAIL
counts, and each outcome raises MODULE_AUTH (R446). -/
def authOutcome (s : State) (g st keyId : Nat) : State :=
  let s1 := setAuth s g (st == stOk)
  let s2 := if st = stAuthFail then count s1 (cnum 11 1) else s1
  raise s2 0x0B04 (it g ++ it st ++ it keyId)

/-- The running MODULE_AUTH of module `g`, with its expected KEY_ID. -/
def runningAuth (s : State) (g : Nat) : Option (InFlight × Nat) :=
  (s.mbx.inFlight.find? fun r => r.committed && opcodeOf r.entry == 0x090A && fld (pw r.entry 0) 0 6 == g).map
    fun r => (r, fld (pw r.entry 1) 0 16)

/-- A running MODULE_AUTH of module `g` completes with a status. -/
def endAuth (s : State) (g st : Nat) : State :=
  match runningAuth s g with
  | none => s
  | some (r, keyId) => finish (authOutcome s g st keyId) r st []

/-- The group of a lane (R177): 0 to 39 modules, 40 to 43 camera pairs, 44 the partner. -/
def laneGroup (l : Nat) : Nat := if l < 160 then l / 4 else if l < 168 then 40 + (l - 160) / 2 else 44

/-- The lanes of a group. -/
def groupLanes (g : Nat) : List Nat :=
  if g < 40 then (List.range 4).map fun i => 4 * g + i
  else if g < 44 then (List.range 2).map fun i => 160 + 2 * (g - 40) + i
  else (List.range 4).map fun i => 168 + i

/-- A lane enters bring-up at a state, with the equalisation last loaded (R180, R209). -/
def laneTo (st : LaneState) (x : Lane) : Lane :=
  { x with state := st, inverted := false, trials := 0, logical := none, eqTx := x.eqTxNew, eqRx := x.eqRxNew }

/-- Every lane of a group starts bring-up again (R215, R225). -/
def restartLanes (s : State) (g : Nat) : State :=
  (groupLanes g).foldl (fun t l => setLane t l fun x => { laneTo .detect x with searches := 0, txLogical := l % 4 }) s

/-- A camera's alignment is void: SCAN_UNALIGNED (R234, R276). -/
def unalignCamera (s : State) (k : Nat) : State :=
  match s.asy.cams[k]? with
  | none => s
  | some c =>
    if c.aligned.isSome then
      raise { s with asy := { s.asy with cams := modAt (fun x => { x with aligned := none }) s.asy.cams k } } 0x0501 (it k)
    else s

/-- What a camera loses when its pair leaves RUN: its alignment, its paper white, an open scan (R225, R234, R238). -/
def loseCamera (s : State) (k : Nat) : State :=
  let s1 := unalignCamera s k
  { s1 with asy := { s1.asy with cams := modAt (fun c => { c with white := [], whiteN := [], open_ := none, lastTrig := none })
                                           s1.asy.cams k } }

/-- Module `g` is no longer held back for want of a map acknowledgement (R120). -/
def dropHolding (s : State) (g : Nat) : State :=
  { s with map := { s.map with holding := s.map.holding.filter fun h => h.1 != g } }

/-- Group `g` leaves RUN, its lanes starting again: its module is no longer joined, its AUTH_MASK bit clears, and an authentication in progress
ends with MODULE_ABSENT (R446); a camera pair loses its alignment and paper white. -/
def leaveRun (s0 : State) (g : Nat) : State :=
  let s := endAuth s0 g stModuleAbsent
  let s1 := setGroup (restartLanes s g) g fun x =>
    { x with run := false, spare := false, joined := false, step := 0, auth := false, restripe := none, restripeTx := none
             statusIn := false }
  let s2 := dropHolding (setAuth s1 g false) g
  if 40 ≤ g ∧ g < 44 then loseCamera s2 (g - 40) else s2

/-- A set of module-planes without one. -/
def dropKey (l : List Nat) (k : Nat) : List Nat := l.filter fun x => x != k

/-- Mark module-plane `k` out of step; `refill` for a refill mark (R140). -/
def setMark (s : State) (k : Nat) (refill : Bool) : State :=
  let ms := if s.csc.marks.contains k then s.csc.marks else s.csc.marks ++ [k]
  let rs := if refill && !s.csc.refillMarks.contains k then s.csc.refillMarks ++ [k] else s.csc.refillMarks
  { s with csc := { s.csc with marks := ms, refillMarks := rs, cleanRuns := mapSet 0 s.csc.cleanRuns k 0 } }

/-- Every module-plane marked with a refill mark (R125, R269, R282). -/
def setAllRefillMarks (s : State) : State := (List.range 160).foldl (fun t k => setMark t k true) s

/-- The mark of module-plane `k` clears (R141). -/
def clearMark (s : State) (k : Nat) : State :=
  { s with csc := { s.csc with marks := dropKey s.csc.marks k, refillMarks := dropKey s.csc.refillMarks k
                               cleanRuns := mapSet 0 s.csc.cleanRuns k 0 } }

/-- The next PRINT record of module-plane `k` is to be a seam of this span, or of the wider one already asked for (R132,
R142). -/
def requestSeam (s : State) (k span : Nat) : State :=
  { s with csc := { s.csc with seamReq := mapSet 0 s.csc.seamReq k (max span (mapGet 0 s.csc.seamReq k))
                               joinSeams := dropKey s.csc.joinSeams k } }

/-- The span of a join's seam: 1 where a STATUS of the module says that it has fired no ejector since its power-up, else 63
(R143). -/
def joinSpan (g : Group) : Nat := if g.statusIn && !g.fired then 1 else 63

/-- An out-of-step event in the chip's own stream (R140): a servitor sets the mark; the gaffer sends POOS with cause 1
LATE record, 2 dead area, 3 record lost (R267). -/
def outOfStep (s : State) (m q cause : Nat) (n : Int) : State :=
  if servitor s then setMark s (mp m q) false
  else if isGaffer s && s.par.linkRun then
    emit s (.partner (ctrlWord 0xA3 [(50, m), (48, q), (44, cause), (8, unsignedOf 32 n)]))
  else s

/-- The REFILLs of the last 63 records of module-plane `k`, the latest first, 0 for a blank record (R142). -/
def refillsOf (s : State) (k : Nat) : List Nat :=
  match s.csc.refills.find? fun x => x.1 == k with
  | some x => x.2
  | none => []

/-- SEAM_SPAN of a take-over seam: the largest REFILL of the last 63 records, or 63 under a refill mark (R142); 1, the least
span of a seam, where all 63 were blank (DESIGN CHOICE, log 136). -/
def takeoverSpan (s : State) (k : Nat) : Nat :=
  if s.csc.refillMarks.contains k then 63 else (refillsOf s k).foldl max 1

/-- The rejoin ends at a failing step (R282): REJOIN_FAILED, and PAIR_REJOIN completes with the step and its item. -/
def failRejoin (s : State) (step st item : Nat) : State :=
  let s1 := { s with par := { s.par with rejoin := 0, rejoinGot := [] } }
  finishOp (raise s1 0x0609 (it st ++ it item)) 0x0803 st (it step ++ it item)

/-- The partner link is in RUN no longer: PARTNER_DOWN where it was (R288), and a rejoin under way fails. -/
def partnerLinkLost (s : State) : State :=
  let s1 := { s with par := { s.par with linkRun := false, mseqRx := none, partnerRole := 0, gafferEpoch := none, ptSeen := 0 } }
  let s2 := raiseIf s.par.linkRun s1 0x0606 []
  if s2.par.rejoin ≠ 0 then failRejoin s2 s2.par.rejoin stPartnerDown 0 else s2

/-- A pulse that has not ended by instant `now` ends there (R261). -/
def endPulse (now : Nat) : Sent → Sent
  | .pulse o st w p => .pulse o st (min w (now - st)) p
  | x => x

/-- The chip enters FAILED (R261): no further HEALTH pulse, transmitters idle, PULSE outputs inactive, CEASE_ACK low except in
SAVE (R479). -/
def failChip (s : State) : State :=
  let s1 := partnerLinkLost ((List.range 40 ++ [44]).foldl leaveRun s)
  { s1 with par := { s1.par with state := .failed }, out := s1.out.map (endPulse (nowUnits s))
            pins := { s1.pins with healthHigh := false, healthReady := false
                                   ceaseAck := s1.pins.ceaseAck && s1.pwr.saving } }

/-- A waiting PAGE_COMMIT or PAGE_ABORT of a servitor ends with PARTNER_DOWN, nothing changed (R273). -/
def endPartnerWaits (s : State) : State :=
  let waiting := s.mbx.inFlight.filter fun r =>
    !r.committed && r.note == [1] && (opcodeOf r.entry == 0x0104 || opcodeOf r.entry == 0x0105)
  waiting.foldl (fun t r => finish t r stPartnerDown []) s

/-- ROLE_REFUSED, raised once while SYNCING with ROLE_SEL high (R262). -/
def refuseRole (s : State) : State :=
  if s.par.state = .syncing ∧ s.pins.roleSel ∧ ¬ s.par.refusedRaised then
    raise { s with par := { s.par with refusedRaised := true } } 0x0603 (it (pairCode s.par.state))
  else s

/-- The chip enters SYNCING: stale state, ROLE 0 with its last epoch, HEALTH NOT_READY (R259, R260). -/
def enterSyncing (s : State) : State :=
  let s0 := endPartnerWaits s
  let s1 := { s0 with par := { s0.par with state := .syncing, refusedRaised := false, rejoin := 0 }
                      pins := { s0.pins with healthReady := false }
                      ftb := { s0.ftb with referenced := false } }
  refuseRole (sendRole s1)

/-- The chip enters SHADOW, READY, with ROLE 2 and the epoch it holds (R259, R262). -/
def enterShadow (s : State) : State :=
  sendRole { s with par := { s.par with state := .shadow }
                    pins := { s.pins with healthReady := true } }

/-- The accepted epochs of the last 1 ms stay with an epoch newly reported, but for those it reaches (R264). -/
def addEpoch (clk : Nat) (e : Nat) (l : List (Nat × Nat)) : List (Nat × Nat) :=
  (clk, e) :: l.filter fun x => decide (e < x.2 ∧ clk ≤ x.1 + 400000)

/-- The largest epoch R264 names: of the last partner MARK, of every STATUS and upstream MARK of the last 1 ms, its own last. -/
def epochBase (s : State) : Nat :=
  let recent := (s.dxl.groups.take 40).flatMap fun g => g.epochs.filter fun x => decide (s.time.clk ≤ x.1 + 400000)
  (recent.map Prod.snd).foldl max (max s.par.partnerEpoch (max s.par.lastEpoch s.par.epoch))

/-- An axis is moving: not at rest, whatever moves it. -/
def axisMoving (a : Axis) : Bool := a.vel != 0 || a.state == .moving || a.state == .table || a.state == .homing
  || a.state == .velocity

/-- An axis without feedback that was moving loses HOMED, and AXIS_UNCERTAIN is raised with the steps of one 10 µs
interval (R278). -/
def uncertainAxis (s : State) (i : Nat) : State :=
  let a := axisAt s i
  if a.cfg.fbCh = 15 ∧ axisMoving a then
    raise (setAxis s i fun x => { x with homed := false }) 0x060B
      (it i ++ it (cdiv a.vel.natAbs (65536 * 100000)))
  else s

/-- What a new gaffer resends: the released records beyond the line the module reports holding, in order (R142). -/
def takeoverResend (s : State) : List Rec :=
  s.dxl.replay.filter fun r => decide (mapGet minI64 s.dxl.heldLine (mp r.m r.q) < r.n)

/-- Adoption of GAFFER from SHADOW (R262, R264, R276): the generations it received count as acknowledged (R120), a new epoch, ROLE on every lane, resent records, seams on marked
module-planes, camera alignments void, uncertain axes. With the epochs used up the chip stays SHADOW. -/
def adopt (s : State) : State :=
  let e := epochBase s + 1
  if e = 2 ^ 32 - 1 then raise s 0x0605 []
  else
    let held := s.map.gens.flatMap fun g => (List.range 40).map fun m => (m, g.number)
    let s1 := { s with par := { s.par with state := .gaffer, epoch := e, lastEpoch := e }
                       map := { s.map with acked := held ++ s.map.acked } }
    let s2 := raise (count (sendRole s1) (cnum 6 0)) 0x0601 (it e ++ itq (lineCounter s))
    let s3 := (takeoverResend s2).foldl (fun t r => count (sendRec t r) (cnum 4 (728 + r.m))) s2
    let s4 := s2.csc.marks.foldl (fun t k => requestSeam t k (takeoverSpan s2 k)) s3
    let s5 := (List.range 4).foldl unalignCamera s4
    (List.range 8).foldl uncertainAxis s5

/-- The pair epoch a deposed chip takes (R264). -/
def deposedTo (s : State) (higher : Nat) : Nat :=
  match s.par.gafferEpoch with
  | some g => if s.par.epoch < g then g else higher
  | none => higher

/-- A gaffer that sees a higher epoch enters SHADOW at once, with the epoch of the gaffer's latest partner MARK where that lies above its
own, else the one it has seen, and adopts again only after ROLE_SEL has fallen (R264, R265). -/
def depose (s : State) (higher : Nat) : State :=
  let s1 := raise (count s (cnum 6 1)) 0x0604 (it s.par.epoch ++ it higher)
  enterShadow { s1 with par := { s1.par with mustFall := true, epoch := deposedTo s higher } }

/-- A debug level set, with its DEBUG_LEVEL event when it changes: cause 0 command, 1 SLEEP, 2 SAVE, 3 lifecycle
(R439, R450, R487). -/
def debugCode : DebugLevel → Nat
  | .closed => 0 | .observe => 1 | .full => 2

/-- Set the debug level (R439). -/
def setDebug (s : State) (d : DebugLevel) (cause : Nat) : State :=
  if s.sec.debug = d then s
  else raise { s with sec := { s.sec with debug := d } } 0x0B02 (it (debugCode s.sec.debug) ++ it (debugCode d) ++ it cause)

/-- Bits set in a fuse field. -/
def bitCount {n : Nat} (w : BitVec n) : Nat := (List.range n).countP fun i => w.getLsbD i

/-- LIFECYCLE: 0 OPEN, 1 SEALED, 2 RETIRED (R431, R432). -/
def lifecycle (s : State) : Nat :=
  if 9 ≤ bitCount s.sec.retireBits then 2 else if 9 ≤ bitCount s.sec.sealBits then 1 else 0

/-- The RB count: the index of the highest set bit plus 1 (R431). -/
def rbCount (s : State) : Nat :=
  (List.range 64).foldl (fun a i => if s.sec.rb.getLsbD i then i + 1 else a) 0

end Sys2Proof.Machine
end

