-- ==== Sys2Proof/Machine/Span.lean ====
section
/-! DEFINITION. Figures of the web that several chapters use: the V/T factor (R23), the earliest start (R82, R425), the
firing span of a page (R406) and the drops left to fire. -/

namespace Sys2Proof.Machine

/-- The V/T factor in thousandths: the highest table voltage not above `mv`, the narrowest temperature column holding
`t` (R23). -/
def vtFactor (mv : Nat) (t : Int) : Nat :=
  let warm := decide (t ≤ 85)
  if 850 ≤ mv then (if warm then 1170 else 1100)
  else if 800 ≤ mv then (if warm then 1070 else 1000)
  else if 750 ≤ mv then (if warm then 940 else 875)
  else if 700 ≤ mv then (if warm then 810 else 750)
  else (if warm then 680 else 625)

/-- VT at the commanded VDD_CORE and the open job's declared T; the 105 °C column with no job (R391). -/
def vtNow (s : State) : Nat :=
  vtFactor s.pwr.vcore (match s.job with | some j => j.tDecl | none => 105)

/-- ⌈T_setup × L⌉, T_setup = 8 µs + 16 µs / VT (R82). -/
def setupLines (s : State) (l : Nat) : Nat := cdiv ((8 * vtNow s + 16000) * l) (vtNow s * 1000000)

/-- STAGGER of the open job, in native lines. -/
def staggerOf (s : State) : Nat := match s.job with | some j => j.stagger | none => 0

/-- L of the open job; 600,000 with none (R424). -/
def lDeclOf (s : State) : Nat := match s.job with | some j => j.lDecl | none => 600000

/-- The earliest start of R82 over a set of planes, without the anneal window. -/
def earliestPlain (s : State) (ps : List Nat) : Int :=
  lineCounter s + setupLines s (lDeclOf s) + leadOf s - dMin s ps

/-- The earliest start A of a page: R82, raised while an anneal runs so that no firing span meets its window (R425). -/
def earliestStart (s : State) : Int :=
  let ps := planesInUse s
  let a := earliestPlain s ps
  match s.anneal.running, s.anneal.windowEnd with
  | true, some w => max a (w - dMin s ps)
  | _, _ => a

/-- L_band: the lines of a page's census band (R244). -/
def bandLines (p : Page) : Nat := match p.band with | some b => b.planes.length * b.slotLines | none => 0

/-- The last web line of a page that starts at `n0`, band included. -/
def lastLineFrom (p : Page) (n0 : Int) : Int := n0 + p.lines + bandLines p - 1

/-- The last web line of a page with its n0 resolved. -/
def lastLine (p : Page) : Option Int := p.n0.map (lastLineFrom p)

/-- The tick after the firing of a page's last line at its furthest row (R406). -/
def spanEndOf (s : State) (e : Int) : Int :=
  e + dMax s (planesInUse s) + cdiv (staggerOf s) (jobS s) + 176 / (jobS s : Int) + 1

/-- The page takes web lines: ADMITTED, PRINTING, DONE, or cut while PRINTING. -/
def takesLines (p : Page) : Bool := pageActive p || p.state == .done || (p.state == .aborted && p.cut)

/-- The ends of the firing spans that stand (R406). -/
def spanEnds (s : State) : List Int :=
  s.pages.list.filterMap fun p => if takesLines p then (lastLine p).map (spanEndOf s) else none

/-- A drop is left to fire: the line counter has not passed the end of some page's firing span (R406). -/
def dropsLeft (s : State) : Bool :=
  decide (lineCounter s ≤ s.pages.fireEnd) || (s.job.isSome && (spanEnds s).any fun e => decide (lineCounter s ≤ e))

/-- The firing span of a page meets ticks `t` to `t + w - 1` (R424). -/
def spanMeets (s : State) (p : Page) (t : Int) (w : Nat) : Bool :=
  match p.n0 with
  | none => false
  | some n0 =>
    pageActive p && decide (n0 + dMin s (planesInUse s) ≤ t + w - 1) && decide (t ≤ spanEndOf s (lastLineFrom p n0))

end Sys2Proof.Machine
end

