-- ==== Sys2Proof/Machine/Envelope.lean ====
section
/-! DEFINITION. Modules in use, touchmark fields (R222), the print envelope (R20 to R27, R76), placement phases (R172,
R204) and the health map as it is read (R114 to R118). -/

namespace Sys2Proof.Machine

/-! Modules in use and their touchmarks. -/

/-- Module `m` belongs to a rank that holds a plane in use (R31, R398). -/
def moduleInUse (s : State) (m : Nat) : Bool := (planesInUse s).any fun p => p / 4 == m / 10

/-- The modules in use. -/
def modulesInUse (s : State) : List Nat := (List.range 40).filter (moduleInUse s)

/-- The planes-in-module of `m` that carry a plane in use. -/
def pimsInUse (s : State) (m : Nat) : List Nat := (List.range 4).filter fun q => (planesInUse s).contains (planeOf m q)

/-- The module-planes in use. -/
def modulePlanes (s : State) : List (Nat × Nat) :=
  (List.range 40).flatMap fun m => (pimsInUse s m).map fun q => (m, q)

/-- Dword `i` of the touchmark of group `g`. -/
def touchDw (s : State) (g i : Nat) : Dword := mapGet 0 (groupAt s g).touch.dwords i

/-- FMAX of module `m` (R222). -/
def fmaxOf (s : State) (m : Nat) : Nat := (touchDw s m 6).toNat

/-- BUF_LINES of module `m` (R222). -/
def bufLines (s : State) (m : Nat) : Nat := (touchDw s m 7).toNat

/-- The touchmark of `m` lists plane-in-module `q`, the open bit depth, and rate code `r` (R222). -/
def hasPim (s : State) (m q : Nat) : Bool := bitOf (touchDw s m 5) (16 + q)

/-- The touchmark of `m` supports 1-bit or 2-bit records. -/
def hasDepth (s : State) (m : Nat) (onebit : Bool) : Bool := bitOf (touchDw s m 5) (if onebit then 10 else 11)

/-- The touchmark of `m` lists lane-rate code `r`: 8.0, 16.0, 25.6 or 32.0 Gb/s (R222). -/
def hasRate (s : State) (m r : Nat) : Bool := bitOf (touchDw s m 5) (12 + r)

/-- Row trim τ of module `m`, plane-in-module `q`, row `i` (R222). -/
def trimOf (s : State) (m q i : Nat) : Int :=
  let k := 12 * q + i
  signed 8 (fld (touchDw s m (9 + k / 4)) (8 * (k % 4)) 8)

/-- f_max: the lowest FMAX of the modules in use (R20). -/
def fmaxBar (s : State) : Nat :=
  match (modulesInUse s).map (fmaxOf s) with
  | [] => 0
  | x :: xs => xs.foldl min x

/-! The health map (R114 to R118). -/

/-- Clusters of one module-plane: its physical columns (R31). -/
def pcols : Nat := 16640

/-- The ejector ordinal of R38. -/
def ordinal (m q c i : Nat) : Nat := ((m * 4 + q) * pcols + c) * 12 + i

/-- The generation in force for web line `n`: the newest whose boundary lies at or before it (R118). -/
def genAt (s : State) (n : Int) : Option Gen :=
  s.map.gens.foldl (fun acc g =>
    match g.boundary with
    | some b => if b ≤ n then some g else acc
    | none => acc) none

/-- The health code of an ejector under a generation. -/
def codeIn (g : Option Gen) (ord : Nat) : Nat := match g with | some x => mapGet 0 x.codes ord | none => 0

/-- The newest generation formed, pending or not. -/
def newestGen (s : State) : Option Gen := s.map.gens.getLast?

/-- The longest run of equal cluster numbers in a list. -/
def longestRun : Option Nat → Nat → Nat → List Nat → Nat
  | _, cur, best, [] => max cur best
  | last, cur, best, c :: cs =>
    if last = some c then longestRun (some c) (cur + 1) best cs else longestRun (some c) 1 (max cur best) cs

/-- k of R20: the most excluded ejectors in a cluster in use, under the generation in force at the line counter. -/
def excludedMax (s : State) : Nat :=
  match genAt s (lineCounter s) with
  | none => 0
  | some g =>
    let used := (modulePlanes s).map fun x => mp x.1 x.2
    longestRun none 0 0 ((g.codes.map fun e => e.1 / 12).filter fun c => used.contains (c / pcols))

/-- C_bar = (12 − k) × f_max (R145). -/
def barCapacity (s : State) : Nat := (12 - excludedMax s) * fmaxBar s

/-! The envelope (R20 to R27). -/

/-- Lane rate in Mb/s by its code (R178). -/
def laneMbps : Nat → Nat
  | 0 => 8000 | 1 => 16000 | 2 => 25600 | _ => 32000

/-- C_link in bits per second: 0.875 × 3 × r (R187). -/
def cLink (rate : Nat) : Nat := laneMbps rate * 1000000 * 21 / 8

/-- C_LNE in decisions per second at a V/T factor in thousandths (R23). -/
def cLne (vt : Nat) : Nat := 41600000 * vt

/-- C_PCIe in bytes per second (R24, R378). -/
def cPcie (s : State) : Nat :=
  let gb := if s.mbx.pcieWidth = 16 then 60 else if s.mbx.pcieWidth = 8 then 30 else 15
  gb * 1000000000 * s.mbx.pcieMts / 32000

/-- Transfer rate in MT/s by its code (R293). -/
def memMts : Nat → Nat
  | 0 => 4800 | 1 => 5600 | 2 => 6400 | _ => 7200

/-- G: peak DRAM bandwidth in bytes per second (R20). -/
def dramG (s : State) : Nat :=
  match s.mem.cfg with
  | some c => 2 * c.chPairs * memMts c.speed * 1000000 * 4
  | none => 0

/-- The largest rate up to 600,000 with `per` × L ≤ `cap` (R398). -/
def lmax (cap per : Nat) : Nat := if per = 0 then 600000 else min 600000 (cap / per)

/-- The slot size of a contone layer, or of a line-work or bypass layer, by its code (R398). -/
def ctSlotBytes (code : Nat) : Nat := 32 * 2 ^ code

/-- The slot size of a line-work or bypass layer by its code (R398). -/
def lwSlotBytes (code : Nat) : Nat := 4 * 2 ^ code

/-- F of E4 at JOB_OPEN, with every block occupied (R21, R48): bytes per job line. -/
def fFull (j : Job) : Nat :=
  (j.planes.map fun c =>
    if !c.inUse then 0
    else if c.format = 2 then 640 * lwSlotBytes j.bpSlot
    else 40 * j.s * ctSlotBytes j.ctSlot + (if c.format = 1 then 640 * lwSlotBytes j.lwSlot else 0)).sum

/-- 0.70 × G less the 4.0 GB/s of other traffic; none left if G does not reach it (R21). -/
def e4Room (s : State) : Nat := dramG s * 7 / 10 - 4000000000

/-- The largest L meeting E1 to E4 for a job (R398), its planes taken as in use in the state `s`. -/
def jobLmax (s : State) (j : Job) (vt : Nat) : List Nat :=
  let s1 := { s with job := some j }
  let b := if j.onebit then 1 else 2
  let e1 := (modulesInUse s1).map fun m => lmax (cLink (groupAt s m).rate) (pcols * (pimsInUse s1 m).length * b)
  let pm := ((List.range 40).map fun m => (pimsInUse s1 m).length).foldl max 0
  [e1.foldl min 600000, lmax (cLne vt) (pcols * pm), lmax (cPcie s) j.iDecl,
   if dramG s * 7 < 40000000000 then 0 else lmax (e4Room s) (j.iDecl + fFull j)]

/-- E4 of a page (R21, R76): I is its ingest bytes over LINES, F its F_page. -/
def e4Page (s : State) (p : Page) : Bool :=
  let h := 64 / jobS s
  decide ((p.ingest * h + p.fPage * p.lines) * lDeclOf s * 10 + 40000000000 * (p.lines * h) ≤ 7 * dramG s * (p.lines * h))

/-- E5 (R21). -/
def e5 (s : State) : Bool := decide (lDeclOf s ≤ barCapacity s)

/-- H of R41 for an open job: LEAD + 11 × 16 / s + ⌈STAGGER / s⌉. -/
def holdDepth (j : Job) : Nat := j.lead + 176 / j.s + cdiv j.stagger j.s

/-- A_a + 33 over planes `ps` (R104, R395). -/
def changeFloor (s : State) (ps : List Nat) : Int := earliestPlain s ps + 33

/-- The earliest boundary a map change of `e` ejectors in one module may take (R118). -/
def earliestBoundary (s : State) (e : Nat) : Int :=
  changeFloor s (planesInUse s) + cdiv ((20000 + 40 * e) * lDeclOf s) 1000000000

/-- The most ejectors a generation changes in any one module; a full image counts every ejector (R118). -/
def genSpan (g : Gen) : Nat :=
  if g.full then 798720
  else ((List.range 40).map fun m => (g.delta.filter fun e => e.1 / 798720 == m).length).foldl max 0

/-- d_r of R124. -/
def refillSpan (s : State) : Nat := leadOf s + 176 / jobS s + cdiv (staggerOf s) (jobS s) + 73

/-! Placement phases (R172, R204). -/

/-- u of R40 for row `i` of module `m` and web line `n`. -/
def rowU (s : State) (m q i : Nat) (n : Int) : Int :=
  d256At s (planeOf m q) n + 4096 * i + (if m % 10 % 2 = 1 then 256 * (staggerOf s : Int) else 0)

/-- φ before clamping: f + τ + μ (R172). -/
def phaseRaw (s : State) (m q i : Nat) (n : Int) : Int :=
  rowU s m q i n % (256 * (jobS s : Int)) + trimOf s m q i + timedAt s.web.trims m n

/-- The row-0 tick of R113. -/
def row0Tick (s : State) (m q : Nat) (n : Int) : Int := n + rowU s m q 0 n / (256 * (jobS s : Int))

/-- Once-per-job key of TRIM_CLAMP. -/
def onceTrim : Nat := 0x0309

/-- φ clamped to 0 to 256 × s − 1 and sent as PHASE; a clamp is reported once per job (R172). -/
def sendPhase (s : State) (m q i : Nat) (n : Int) : State :=
  let raw := phaseRaw s m q i n
  let top := 256 * (jobS s : Int) - 1
  let s1 := emit s (.ctrl m (phaseWord q i (clampI raw 0 top).toNat n))
  if raw < 0 ∨ top < raw then
    let (new, s2) := onceJob s1 onceTrim
    raiseIf new s2 0x0309 (it m ++ it q ++ it i ++ it raw)
  else s1

/-- The φ of every row of plane-in-module `q` of module `m` from web line `n`, where the module has joined (R172). -/
def sendRows (s : State) (m q : Nat) (n : Int) : State :=
  if (groupAt s m).joined then (List.range 12).foldl (fun t i => sendPhase t m q i n) s else s

/-- The changes of D_p and μ whose web line plane-in-module `q` of module `m` has not yet been delivered: the pending
changes of φ, as distinct web lines (R172). -/
def phaseLines (s : State) (m q : Nat) : List Int :=
  let p := planeOf m q
  let late := fun (c : Nat × Int × Int) => decide (lineCounter s < deliveryDeadline s p c.2.1)
  let d := s.web.dOff.changes.filter fun c => c.1 == p && late c
  let t := s.web.trims.changes.filter fun c => c.1 == m && late c
  ((d ++ t).map fun c => c.2.1).dedup

/-- A further change of φ at web line `n` would be a fifth for some plane-in-module of `ms` in use (R172). -/
def phasesFull (s : State) (mqs : List (Nat × Nat)) (n : Int) : Bool :=
  mqs.any fun x => decide (4 ≤ ((phaseLines s x.1 x.2).filter fun k => k != n).length)

/-- The phases of plane-in-module `q` of module `m` from web line `n`: those of `n`, and those of every later pending
change, which the change at `n` may move. -/
def sendRowsFrom (s : State) (m q : Nat) (n : Int) : State :=
  (n :: ((phaseLines s m q).filter fun k => decide (n < k)).insertionSort (· ≤ ·)).foldl (fun u k => sendRows u m q k) s

/-- The phases in force and those pending, for every row of module `m` in use: what JOB_OPEN and a join send (R172).
Those in force are sent from the web line whose delivery is now due. -/
def sendModulePhases (s : State) (m : Nat) : State :=
  (pimsInUse s m).foldl (fun t q =>
    let p := planeOf m q
    let c := lineCounter s + leadOf s
    let first := c - dLines s p (c - dLines s p (lineCounter s))
    sendRowsFrom t m q first) s

end Sys2Proof.Machine
end

