-- ==== Sys2Proof/Machine/PageOps.lean ====
section
/-! DEFINITION. Shared operations on pages: storage, resolution of n0, removal and cut, census bands, and the messages
that tell the servitor (R50 to R52, R58 to R65, R77 to R80, R243, R244, R268). -/

namespace Sys2Proof.Machine

/-! Storage. -/

/-- The size in bytes of the regions of a kind (R299, R300). -/
def regionBytes (s : State) (kind : Nat) : Nat :=
  ((s.mem.regions.filter fun r => r.kind == kind).map fun r => r.size * 2 ^ 28).sum

/-- The spill pool's size in chunks of 4 KiB (R64, R65). -/
def spillChunks (s : State) : Nat := regionBytes s 4 / 4096

/-- The chunks a page holds (R64). -/
def chunksOf (p : Page) : Nat := cdiv p.nContone 16 + cdiv p.nTwoBit 64

/-- The page holds a place (R58). -/
def holdsPlace (p : Page) : Bool :=
  p.state == .loading || p.state == .loaded || pageActive p || (p.state == .aborted && p.holds)

/-- The bytes held in the page store (R63). -/
def storeHeld (s : State) : Nat := ((s.pages.list.filter (·.holds)).map Page.footprint).sum

/-- The chunks held by all pages (R65). -/
def chunksHeld (s : State) : Nat := ((s.pages.list.filter (·.holds)).map chunksOf).sum

/-- The page counts against the reserve (R77, R79). -/
def inReserve (p : Page) : Bool := pageActive p || (p.state == .aborted && p.holds)

/-- The reserve chunks that admitted pages hold (R77). -/
def reserveHeld (s : State) : Nat := ((s.pages.list.filter inReserve).map chunksOf).sum

/-- SPILL_RESERVE of the open job (R398). -/
def reserveOf (s : State) : Nat := match s.job with | some j => j.reserve | none => 0

/-- A page without its storage. -/
def freed (p : Page) : Page :=
  { p with holds := false, blocks := [], rowPoison := [], ctChain := [], twoChain := [] }

/-- The chunks of the spill pool that pages hold, in ascending order (R64). -/
def heldChunks (s : State) : List Nat :=
  ((s.pages.list.filter (·.holds)).flatMap fun p => p.ctChain ++ p.twoChain).insertionSort (· ≤ ·)

/-- The chunk that `k` free chunks precede, where `held` lists those held in ascending order. -/
def freeChunk (held : List Nat) (k : Nat) : Nat := held.foldl (fun c h => if h ≤ c then c + 1 else c) k

/-! Messages (R268). -/

/-- PAGE: `state` 0 n0 pending, 1 resolved, 2 rejected (R268). -/
def tellPage (s : State) (p : Page) (state : Nat) : State :=
  let band := match p.band with | some b => b.planes.foldl (fun a q => a + 2 ^ q) 0 | none => 0
  let w0 := halves p.id.toNat (state * 2 ^ 30 + (if p.thin then 2 ^ 29 else 0) + band)
  let n0 := if state = 1 then sq (p.n0.getD 0) else 0
  let lines := if state = 2 then 0 else p.lines
  tellServitor s 3 [w0, n0, BitVec.ofNat 64 lines]

/-- PAGE with STATE 2: a PAGE_COMMIT of this PAGE_ID completed without admitting a page (R268). -/
def tellRejected (s : State) (id : Dword) : State := tellServitor s 3 [halves id.toNat (2 ^ 31), 0, 0]

/-- PAGEEND with its cause and, per plane in use, the first web line sent blank (R268). -/
def tellPageEnd (s : State) (id : Dword) (cause : Nat) (lines : List Int) : State :=
  tellServitor s 4 (halves id.toNat (cause * 2 ^ 28) :: lines.map sq)

/-! Resolution of n0 (R51, R52). -/

/-- e_prev: the last web line of the previously admitted page, −2⁶³ with none (R51). -/
def ePrev (s : State) : Int := s.pages.lastEnd.getD minI64

/-- CUE_MISSED as the page resolves, is removed or is cut, when captures were skipped for it (R51). -/
def reportSkips (s : State) (p : Page) : State :=
  raiseIf (p.cueSkips != 0) s 0x0103 ([p.id] ++ it p.cueCh ++ it p.cueSkips)

/-- A page takes its n0: it is the chain's last, CUE_MISSED is reported, once for the page (R51), and the servitor is
told. -/
def resolvePage (s : State) (id : Dword) (line : Int) : State :=
  let n0 := wrapS 64 line
  match pageOf s id with
  | none => s
  | some p =>
    let q := { p with n0 := some n0, cueSkips := 0 }
    let s1 := setPage s id fun x => { x with n0 := some n0, cueSkips := 0 }
    let s2 := { s1 with pages := { s1.pages with lastEnd := some (wrapS 64 (lastLineFrom p n0)) } }
    tellPage (reportSkips s2 p) q 1

/-- The start of a chained page and whether it was moved: ASAP takes max(e_prev + 1, A); AFTER takes e_prev + 1 +
START_ARG, moved to A where that is later (R51, R52). -/
def chainedStart (s : State) (p : Page) : Int × Bool :=
  let a := earliestStart s
  if p.startMode = 0 then (max (ePrev s + 1) a, false)
  else
    let want := ePrev s + 1 + p.startArg
    if want < a then (a, true) else (want, false)

/-- A chained page resolves, with PAGE_LATE_START where it is moved (R52). -/
def resolveChained (s : State) (p : Page) : State :=
  let (n0, late) := chainedStart s p
  let s1 := raiseIf late s 0x0102 ([p.id] ++ itq (ePrev s + 1 + p.startArg) ++ itq n0)
  resolvePage s1 p.id n0

/-- The first ADMITTED page, in admission order, whose n0 is not resolved. -/
def firstUnresolved (s : State) : Option Page :=
  (s.pages.list.filter fun p => p.state == .admitted && p.n0.isNone).foldl (fun acc p =>
    match acc with
    | none => some p
    | some b => if p.adm < b.adm then some p else some b) none

/-- Pages resolve in admission order until one waits on a cue (R51, R52). A servitor takes n0 from the gaffer (R271). -/
def resolveChain (s : State) : Nat → State
  | 0 => s
  | fuel + 1 =>
    match firstUnresolved s with
    | none => s
    | some p => if servitor s || p.startMode == 3 then s else resolveChain (resolveChained s p) fuel

/-- Resolve what can be resolved. -/
def resolveAll (s : State) : State := resolveChain s s.pages.list.length

/-- The module-planes that carry plane `p`. -/
def carriers (p : Nat) : List (Nat × Nat) := (List.range 10).map fun j => (10 * (p / 4) + j, p % 4)

/-! Census bands (R243, R244). -/

/-- The first line of a band plane's slot. -/
def bandSlotStart (p : Page) (b : Band) (n0 : Int) (plane : Nat) : Int :=
  n0 + p.lines + (b.planes.findIdx fun x => x == plane) * b.slotLines

/-- A plane in the due set (R243). -/
def addDue (s : State) (plane : Nat) : State :=
  if s.asy.due.contains plane then s
  else { s with asy := { s.asy with due := (s.asy.due ++ [plane]).insertionSort (· ≤ ·) } }

/-- Band planes go back to the due set, with CENSUS_INCOMPLETE for each (R244, R257). -/
def returnBand (s : State) (p : Page) (planes : List Nat) : State :=
  planes.foldl (fun t k => raise (addDue t k) 0x0504 (it k ++ [p.id])) s

/-- S of R244 from the assay setup in force. -/
def slotLinesOf (s : State) : Nat :=
  match s.asy.setup with | some a => 768 + (if a.densityEn then 512 else 0) | none => 768

/-- The band of a page by its planes; none for no plane (R243, R244). -/
def bandOf (s : State) (planes : List Nat) : Option Band :=
  if planes.isEmpty then none else some { planes := planes, slotLines := slotLinesOf s, returned := [] }

/-- The planes the assay observes (R232). -/
def observedPlanes (s : State) : List Nat :=
  match s.asy.setup with
  | some a => (planesInUse s).filter fun p => a.observe.getD p false
  | none => []

/-- A periodic band is due: with the page that the succeeding PAGE_COMMIT admits, CENSUS_EVERY pages have been admitted
since the last band (R243, with the worked C_p of R254: a band every CENSUS_EVERY pages); 0 never. -/
def periodicDue (s : State) : Bool :=
  match s.asy.setup with
  | some a => a.censusEvery != 0 && decide (a.censusEvery ≤ s.asy.periodic + 1)
  | none => false

/-- The next CENSUS_G observed planes, round-robin from the plane after the last one covered (R243). -/
def periodicPlanes (s : State) : List Nat :=
  let g := match s.asy.setup with | some a => a.censusG | none => 0
  let obs := observedPlanes s
  let after := obs.filter fun p => decide (s.asy.lastPeriodic < p)
  let before := obs.filter fun p => decide (p ≤ s.asy.lastPeriodic)
  (after ++ before).take g

/-- The planes of the band that a PAGE_COMMIT succeeding now attaches (R243). -/
def bandPlanesNow (s : State) : List Nat :=
  let due := s.asy.due.filter fun p => (observedPlanes s).contains p
  let per := if periodicDue s then periodicPlanes s else []
  if s.asy.censusHold then [] else (List.range 16).filter fun p => due.contains p || per.contains p

/-- Attach a band: its planes leave the due set, the periodic count restarts (R243). -/
def attachBand (s : State) (planes : List Nat) : State :=
  let per := periodicDue s && !s.asy.censusHold
  let last := if per then ((periodicPlanes s).getLast?).getD s.asy.lastPeriodic else s.asy.lastPeriodic
  if planes.isEmpty then { s with asy := { s.asy with periodic := s.asy.periodic + 1 } }
  else
    let asy := { s.asy with due := s.asy.due.filter fun p => !planes.contains p, periodic := 0, lastPeriodic := last }
    count { s with asy := asy } (cnum 5 7)

/-- A page only the gaffer prints: PAGE_UNSHADOWED, and its lines kept to hold the out-of-step marks (R273). -/
def unshadow (s : State) (id : Dword) (n0 : Option Int) (lines : Nat) (band : List Nat) : State :=
  let known := s.par.unshadowed.any fun x => x.1 == id
  let (a, z) := match n0 with
    | some n => (n, n + lines + (band.length * slotLinesOf s : Nat) - 1)
    | none => ((0 : Int), (-1 : Int))
  let s1 := { s with par := { s.par with unshadowed := (s.par.unshadowed.filter fun x => x.1 != id) ++ [(id, a, z, band)] } }
  raiseIf (!known) s1 0x060A [id]

/-! Ends. -/

/-- The largest web line of plane `p` for which some module of its rank has had a record released. -/
def releasedLine (s : State) (plane : Nat) : Int :=
  ((List.range 10).map fun j => mapGet minI64 s.dxl.released (mp (10 * (plane / 4) + j) (plane % 4))).foldl max minI64

/-- The first web line of each plane in use that a cut at this instant sends blank (R80). -/
def cutLines (s : State) (p : Page) : List (Nat × Int) :=
  (planesInUse s).map fun k => (k, max (p.n0.getD 0) (min (releasedLine s k + 1) ((lastLine p).getD 0 + 1)))

/-- A record made blank, of a kind; the rule's state is untouched by it (R133). -/
def blankRec (r : Rec) (k : RecKind) : Rec :=
  { r with kind := k, levels := [], assigned := true, refill := 0, seam := 0, directRow := 15, picks := [], thin := [] }

/-- Web line `n` of plane `plane` lies at or after a cut. -/
def cutAt (cuts : List (Nat × Int)) (plane : Nat) (n : Int) : Bool := cuts.any fun c => c.1 == plane && decide (c.2 ≤ n)

/-- A PRINT record of the page at or after its plane's cut becomes CUT and blank; a LATE one stays as it is settled (R80,
R87). -/
def cutRec (adm : Nat) (cuts : List (Nat × Int)) (r : Rec) : Rec :=
  if r.page = some adm ∧ r.kind = .print ∧ cutAt cuts (planeOf r.m r.q) r.n then blankRec r .cut else r

/-- A PRINT record of a page that is removed before it prints: no admitted page covers its web line (R80, R87). -/
def uncoverRec (adm : Nat) (r : Rec) : Rec :=
  if r.page = some adm ∧ r.kind = .print then { blankRec r .idle with page := none } else r

/-- The lines of a page that are sent as CUT records join the expected-defect map (R240), though no record is reported (R80, R87). -/
def markCuts (s : State) (p : Page) (cuts : List (Nat × Int)) : State :=
  match lastLine p with
  | none => s
  | some e => { s with asy := { s.asy with cutMarks := s.asy.cutMarks ++
      (cuts.filter fun c => decide (c.2 ≤ e)).map fun c => (c.1, c.2, e) } }

/-- The page ends while PRINTING (R79, R80): ABORTED, cut plane by plane, its storage kept; band planes not fully sent
return to the due set. -/
def cutPage (s : State) (p : Page) (cuts : List (Nat × Int)) : State :=
  let s1 := setPage s p.id fun x => { x with state := .aborted, cut := true, cuts := cuts }
  let s2 := markCuts { s1 with slices := { s1.slices with recs := s1.slices.recs.map (cutRec p.adm cuts) } } p cuts
  match p.band, p.n0 with
  | some b, some n0 =>
    returnBand s2 p (b.planes.filter fun k =>
      cuts.any fun c => c.1 == k && decide (c.2 ≤ bandSlotStart p b n0 k + 767))
  | _, _ => s2

/-- The records that a slice has computed of an ADMITTED page print nothing once it is removed. -/
def uncover (s : State) (p : Page) : State :=
  if p.state = .admitted then
    { s with slices := { s.slices with recs := s.slices.recs.map (uncoverRec p.adm) } }
  else s

/-- A LOADED or ADMITTED page is removed (R80): ABORTED and holding nothing; its band returns to the due set. -/
def removePage (s : State) (p : Page) : State :=
  let s1 := uncover (setPage s p.id fun x => { freed x with state := .aborted, cueSkips := 0 }) p
  let s2 := reportSkips s1 p
  match p.band with
  | some b => if p.state = .admitted then returnBand s2 p b.planes else s2
  | none => s2

/-- The last web line of the page has gone to every module in use, in every plane in use (R79). -/
def pageSent (s : State) (p : Page) : Bool :=
  match lastLine p with
  | none => false
  | some e => (modulePlanes s).all fun x => decide (e ≤ mapGet minI64 s.dxl.released (mp x.1 x.2))

/-- PAGE_DONE: the storage is freed; cut flag 1 for a cut page (R79). The assay still computes the coverage of the scans that
show it from what it held (R239), until its PAGE_ID is used again (log 40). -/
def retirePage (s : State) (p : Page) : State :=
  let s1 := setPage s p.id fun x => { x with holds := false, state := if p.cut then .aborted else .done }
  raise s1 0x0101 ([p.id] ++ itq (p.n0.getD 0) ++ it p.deadBlocks ++ it (if p.cut then 1 else 0))

/-- Every PRINTING page, and every cut page still holding its storage, whose last frame has been sent retires. A page
that only the gaffer holds is forgotten. -/
def retirePages (s : State) : State :=
  (s.pages.list.filter fun p =>
    (p.state == .printing || (p.state == .aborted && p.cut && p.holds)) && pageSent s p).foldl retirePage s

/-- The PRINTING pages all end (R145, R162): `cause` 2 overspeed, 3 tick limit, told to the servitor. A servitor ends
pages only on PAGEEND (R271). -/
def endPrinting (s : State) (cause : Nat) : State :=
  (printingPages s).foldl (fun t p =>
    let cuts := cutLines t p
    retirePages (tellPageEnd (cutPage t p cuts) p.id cause (cuts.map Prod.snd))) s

/-- OVERSPEED, carrying the web line and, last as R459 has a list, the PAGE_IDs ended (R145, R162). -/
def overspeedEnd (s : State) (cause : Nat) : State :=
  let ids := (printingPages s).map Page.id
  if servitor s || ids.isEmpty then s
  else raise (endPrinting s cause) 0x0202 (itq (lineCounter s) ++ ids)

end Sys2Proof.Machine
end

