-- ==== Sys2Proof/Machine/Tables.lean ====
section
/-! DEFINITION. The line engine's tables as a web line finds them: curves, index tables, screens, stitch masks, the poison
found in their copies, and what of their changes is pending (R93 to R106, R237). -/

namespace Sys2Proof.Machine

/-! Copies in force (R103). -/

/-- The unit curve (R95). -/
def unitCurve : List Nat := (List.range 256).map fun g => (4095 * g + 127) / 255

/-- The middle cut (R101): zone columns 128 to 255 go to the module at position k + 1. -/
def middleCut : List (BitVec 256) := List.replicate 16 (BitVec.ofNat 256 (2 ^ 256 - 2 ^ 128))

/-- Of values stamped with web lines, in commit order, the one of the latest line; of equal lines the later commit wins. -/
def latestOf {α : Type} (base : α) (cands : List (Int × α)) : α :=
  (cands.foldl (fun acc c => if acc.1 ≤ c.1 then c else acc) (minI64, base)).2

/-- The value an association list gives a key. -/
def assoc {α : Type} (l : List (Nat × α)) (k : Nat) : Option α := (l.find? fun x => x.1 == k).map Prod.snd

/-- The curve-set updates in force for web line `n`. -/
def updsAt (s : State) (n : Int) : List CurveUpd := s.tables.curveUpds.filter fun u => decide (u.line ≤ n)

/-- The knots of curve `e` in force for web line `n`. -/
def curveAt (s : State) (e : Nat) (n : Int) : List Nat :=
  latestOf (mapGet unitCurve s.tables.curves e) ((updsAt s n).filterMap fun u => (assoc u.curves e).map fun k => (u.line, k))

/-- Key of index entry `x` of plane `p`. -/
def entryKey (p x : Nat) : Nat := 166400 * p + x

/-- The curve an index entry names for web line `n`. -/
def entryAt (s : State) (p x : Nat) (n : Int) : Nat :=
  latestOf (mapGet 0 s.tables.entries (entryKey p x))
    ((updsAt s n).filterMap fun u => (assoc u.entries (entryKey p x)).map fun k => (u.line, k))

/-- The rows of mask `k` = 4 J + q in force for web line `n` (R102). -/
def maskAt (s : State) (k : Nat) (n : Int) : List (BitVec 256) :=
  latestOf (mapGet middleCut s.tables.masks k)
    ((s.tables.maskUpds.filter fun u => u.mask == k && decide (u.line ≤ n)).map fun u => (u.line, u.rows))

/-- The screen slot bound to plane `p` for web line `n` (R99). -/
def slotAt (s : State) (p : Nat) (n : Int) : Nat := (timedAt s.web.screens p n).toNat

/-- The tile of a slot; no cell where it is unloaded. -/
def tileOf (s : State) (slot : Nat) : List Qword := mapGet [] s.tables.screens slot

/-! Poison (R106). -/

/-- Kinds of R106. -/
abbrev kindScreen : Nat := 1
abbrev kindMask : Nat := 2
abbrev kindCurve : Nat := 3
abbrev kindIndex : Nat := 4

/-- The copies found poisoned that are in force for web line `n`. -/
def poisonAt (s : State) (n : Int) : List TablePoison :=
  s.tables.poisoned.filter fun p => decide (p.from_ ≤ n ∧ n < p.until_)

/-- The lines at which a unit has pending or past changes: where its copies begin. -/
def unitLines (s : State) (kind index : Nat) : List Int :=
  if kind = kindMask then (s.tables.maskUpds.filter fun u => u.mask == index).map (·.line)
  else if kind = kindCurve then (s.tables.curveUpds.filter fun u => (assoc u.curves index).isSome).map (·.line)
  else if kind = kindIndex then
    (s.tables.curveUpds.filter fun u => u.entries.any fun e => e.1 / 166400 == index).map (·.line)
  else []

/-- Poison in a burst of the copy in force for web line `c`, whose record fetched it: it holds for the web lines of that copy
(R106). -/
def addPoison (s : State) (kind index burst : Nat) (c : Int) : State :=
  let ls := unitLines s kind index
  let a := (ls.filter fun l => decide (l ≤ c)).foldl max minI64
  let z := (ls.filter fun l => decide (c < l)).foldl min (2 ^ 63 : Int)
  let x : TablePoison := { kind := kind, index := index, burst := burst, from_ := a, until_ := z
                           raised := s.tables.poisoned.any fun p => p.kind == kind && p.index == index && p.raised }
  if s.tables.poisoned.any fun p => p.kind == kind && p.index == index && p.burst == burst && p.until_ == z then s
  else { s with tables := { s.tables with poisoned := s.tables.poisoned ++ [x] } }

/-- A unit replaced from web line `n`: the poison of its earlier copies ends there. -/
def endPoison (s : State) (kind index : Nat) (n : Int) : State :=
  let cut := s.tables.poisoned.map fun p =>
    if p.kind = kind ∧ p.index = index then { p with until_ := min p.until_ n } else p
  { s with tables := { s.tables with poisoned := cut.filter fun p => decide (p.from_ < p.until_) } }

/-! Pending changes (R105). -/

/-- The last web line that module-plane `k` has handed over; none before the first of a job. -/
def handedLine (s : State) (k : Nat) : Int := mapGet minI64 s.slices.handed k

/-- Every slice of the plane's rank has handed over its record for web line `n`. -/
def handedAll (s : State) (p : Nat) (n : Int) : Bool :=
  (carriers p).all fun x => decide (n ≤ handedLine s (mp x.1 x.2))

/-- A change at web line `n` has dropped out for plane `p`. -/
def droppedFor (s : State) (p : Nat) (n : Int) : Bool :=
  if (planesInUse s).contains p then handedAll s p n else decide (n < lineCounter s)

/-- The planes a curve-set update affects: those whose entries it changes, or all in use where it changes a curve (R104). -/
def updPlanes (s : State) (u : CurveUpd) : List Nat :=
  let own := (u.entries.map fun e => e.1 / 166400).dedup
  if u.curves.isEmpty then own else (own ++ planesInUse s).dedup

/-- A curve-set update still pending; with no plane to affect, until the line counter has passed its line. -/
def updPending (s : State) (u : CurveUpd) : Bool :=
  let ps := updPlanes s u
  if u.out then false
  else if ps.isEmpty then decide (lineCounter s ≤ u.line) else ps.any fun p => !droppedFor s p u.line

/-- The planes of joint `J`'s rank (R104). -/
def jointPlanes (j : Nat) : List Nat := (List.range 4).map fun q => 4 * (j / 9) + q

/-- A mask change still pending: it affects every plane of its rank (R104), and drops out once every one of them has handed
over its line (R105). -/
def maskPending (s : State) (u : MaskUpd) : Bool := !u.out && (jointPlanes (u.mask / 4)).any fun p => !droppedFor s p u.line

/-- Dropping out is final (R105): what has dropped out by now is noted, before the job or the line numbering changes. -/
def noteDropped (s : State) : State :=
  { s with tables := { s.tables with
      curveUpds := s.tables.curveUpds.map fun u => { u with out := u.out || !updPending s u }
      maskUpds := s.tables.maskUpds.map fun u => { u with out := u.out || !maskPending s u } } }

/-- The updates that `old` selects become part of the base copies, in order of their web lines. -/
def foldCurves (t : Tables) (old : CurveUpd → Bool) : Tables :=
  let done := (t.curveUpds.filter old).insertionSort fun a b => a.line ≤ b.line
  done.foldl (fun t u => { t with curves := mapSetAll unitCurve t.curves u.curves, entries := mapSetAll 0 t.entries u.entries })
    { t with curveUpds := t.curveUpds.filter fun u => !old u }

/-- The mask changes that `old` selects become part of the base copies, in order of their web lines. -/
def foldMasks (t : Tables) (old : MaskUpd → Bool) : Tables :=
  let done := (t.maskUpds.filter old).insertionSort fun a b => a.line ≤ b.line
  done.foldl (fun t u => { t with masks := mapSet middleCut t.masks u.mask u.rows })
    { t with maskUpds := t.maskUpds.filter fun u => !old u }

/-- What has dropped out is folded into the base; a curve-set update waits for those of earlier lines, so that the base
holds them in the order of their web lines (R103). -/
def foldDropped (s : State) : State :=
  let waiting := s.tables.curveUpds.filter (updPending s)
  let curves := foldCurves s.tables fun u => waiting.all fun v => decide (u.line < v.line)
  { s with tables := foldMasks curves fun u => !maskPending s u }

/-- What is in force at web line `n` becomes the base (R159). -/
def foldTablesAt (t : Tables) (n : Int) : Tables :=
  let t1 := foldMasks (foldCurves t fun u => decide (u.line ≤ n)) fun u => decide (u.line ≤ n)
  { t1 with poisoned := (t1.poisoned.filter fun p => decide (n < p.until_)).map fun p =>
      if p.from_ ≤ n then { p with from_ := minI64 } else p }

/-- The screen bindings of plane `p` that are pending (R105). -/
def bindingsPending (s : State) (p : Nat) : List (Int × Int) :=
  ((s.web.screens.changes.filter fun c => c.1 == p).map fun c => c.2).filter fun c => !handedAll s p c.1

/-- The last web line of plane `p` that every module of its rank has been sent. -/
def sentLine (s : State) (p : Nat) : Int :=
  match (carriers p).map fun x => mapGet minI64 s.dxl.released (mp x.1 x.2) with
  | [] => minI64
  | x :: xs => xs.foldl min x

/-- The slot is bound, or has a pending binding, for a web line not yet fully sent (R99). -/
def slotInUse (s : State) (slot : Nat) : Bool :=
  match s.job with
  | none => false
  | some j => (planesInUse s).any fun p =>
      let bound := match j.planes[p]? with | some c => c.format != 2 | none => false
      bound && (slotAt s p (sentLine s p + 1) == slot ||
        s.web.screens.changes.any fun c => c.1 == p && decide (sentLine s p < c.2.1) && c.2.2 == (slot : Int))

/-! Camera geometry (R237). -/

/-- Both conditions of R237 for one camera and an offset of `d` native lines / 256. -/
def camGeometryOk (s : State) (cam : CamCfg) (d : Int) : Bool :=
  let u := 256 * (jobS s : Int)
  decide ((176 / jobS s + 16 : Nat) ≤ ((cam.pos : Int) - d - 256 * (staggerOf s : Int)) / u) &&
  decide (((cam.pos : Int) - d) / u ≤ 1000000)

/-- An offset of plane `p` keeps R237 for every enabled camera of the setup in force, where the plane is observed. -/
def offsetSeen (s : State) (p : Nat) (d : Int) : Bool :=
  match s.asy.setup with
  | none => true
  | some a => !a.observe.getD p false || a.cams.all fun c => !c.en || camGeometryOk s c d

end Sys2Proof.Machine
end

