-- ==== Sys2Proof/Machine/Defects.lean ====
section
/-! DEFINITION. The assay's expected-defect map (R240) and the late line (R107): what the line engine, the scheduler and
the head link report. -/

namespace Sys2Proof.Machine

/-- The logical columns of module `m`, first and last (R32). -/
def moduleCols (m : Nat) : Int × Int :=
  (max 0 (16384 * ((m % 10 : Nat) : Int) - 128), min 163839 (16384 * ((m % 10 : Nat) : Int) + 16511))

/-- Web lines the map spans (R240). -/
abbrev markSpan : Int := 1048576

/-- Marks no longer among the most recent web lines leave the map. -/
def pruneMarks (s : State) : State :=
  let low := lineCounter s - markSpan
  { s with asy := { s.asy with marks := s.asy.marks.filter fun c => decide (low < c.2.2 * 16 + 16)
                               markedLines := s.asy.markedLines.filter fun c => decide (low < c.2)
                               cutMarks := s.asy.cutMarks.filter fun c => decide (low < c.2.2) } }

/-- The cells of 64 logical columns by 16 web lines that overlap an area of plane `p` are marked (R240). -/
def markArea (s : State) (p : Nat) (x0 x1 n0 n1 : Int) : State :=
  let xa := (max 0 x0) / 64
  let xz := (min 163839 x1) / 64
  let na := n0 / 16
  let nz := n1 / 16
  let cells := (List.range (xz + 1 - xa).toNat).flatMap fun i =>
    (List.range (nz + 1 - na).toNat).map fun k => (p, (xa + i).toNat, na + (k : Int))
  let s1 := pruneMarks s
  { s1 with asy := { s1.asy with marks := s1.asy.marks ++ cells.filter fun c => !s1.asy.marks.contains c } }

/-- A whole plane counts as marked for a web line: the mark could not be written (R240). -/
def markFailed (s : State) (p : Nat) (n : Int) : State :=
  let s1 := pruneMarks s
  let s2 := count { s1 with asy := { s1.asy with markedLines := s1.asy.markedLines ++ [(p, n)] } } (cnum 5 5)
  match s2.pages.list.find? fun q => takesLines q && match q.n0 with
      | some a => decide (a ≤ n ∧ n ≤ lastLineFrom q a) | none => false with
  | some q =>
    let (new, s3) := oncePage s2 q.id 0x0507
    raiseIf new s3 0x0507 (it p ++ itq n)
  | none => raise s2 0x0507 (it p ++ itq n)

/-- The columns of module `m` on plane-in-module `q` are marked for web line `n`. -/
def markModule (s : State) (m q : Nat) (n : Int) : State :=
  markArea s (planeOf m q) (moduleCols m).1 (moduleCols m).2 n n

/-- Web line `n` of plane `p` falls in line ticks already used after a change of D_p (R44). -/
def skippedLine (s : State) (p : Nat) (n : Int) : Bool :=
  s.web.dOff.changes.any fun c =>
    c.1 == p && decide (c.2.1 ≤ n) && decide (n + dLines s p n ≤ c.2.1 - 1 + dLines s p (c.2.1 - 1))

/-- A line of the 16 that share web line `n`'s cells is skipped after a change of D_p, which marks them across the web (R240). -/
def skippedCell (s : State) (p : Nat) (n : Int) : Bool :=
  (List.range 16).any fun i => skippedLine s p (16 * (n / 16) + (i : Int))

/-- A line of the 16 that share web line `n`'s cells was sent as CUT records, which marks them across the web (R240). -/
def cutCell (s : State) (p : Nat) (n : Int) : Bool :=
  s.asy.cutMarks.any fun c => c.1 == p && decide (c.2.1 / 16 ≤ n / 16 ∧ n / 16 ≤ c.2.2 / 16)

/-- A sample or drop of plane `p` at logical column `x` on web line `n` is excluded: its cell, or one beside it across the
web, is marked (R240). -/
def excludedAt (s : State) (p : Nat) (x n : Int) : Bool :=
  skippedCell s p n || cutCell s p n || s.asy.markedLines.contains (p, n) ||
  s.asy.marks.any fun c => c.1 == p && c.2.2 == n / 16 && decide (((c.2.1 : Int) - x / 64).natAbs ≤ 1)

/-- The page that covers web line `n` and takes lines, band included. -/
def pageAt (s : State) (n : Int) : Option Page :=
  s.pages.list.find? fun p => takesLines p && match p.n0 with
    | some a => decide (a ≤ n ∧ n ≤ lastLineFrom p a)
    | none => false

/-- The late line of R107: counted, its area marked, LATE_LINE on the first of its page, and the out-of-step report. -/
def lateLine (s : State) (m q : Nat) (n : Int) : State :=
  let s1 := markModule (count s (cnum 1 0)) m q n
  let s2 := match pageAt s1 n with
    | some p =>
      let (new, t) := oncePage s1 p.id 0x0104
      raiseIf new t 0x0104 (it m ++ it (planeOf m q) ++ itq n)
    | none => s1
  outOfStep s2 m q 1 n

end Sys2Proof.Machine
end

