-- ==== Sys2Proof/Machine/LineEngine.lean ====
section
/-! DEFINITION. The line engine: levels of PRINT records, fetches, table loads, slice deadlines and pace (R84 to R110,
R245, R246, R402, R403). -/

namespace Sys2Proof.Machine

/-! Records and deadlines (R85 to R87). -/

/-- The slice deadline of the record for web line `n` of plane `p` (R85). -/
def sliceDeadlineOf (s : State) (p : Nat) (n : Int) : Int := deliveryDeadline s p n - 1

/-- The web line after `h` whose record plane `p` has: lines that fall in used ticks have none (R44). -/
def nextLine (s : State) (p : Nat) : Nat → Int → Int
  | 0, h => h + 1
  | fuel + 1, h => if skippedLine s p (h + 1) then nextLine s p fuel (h + 1) else h + 1

/-- The web line of the next record of module-plane (m, q). -/
def nextRecord (s : State) (m q : Nat) : Int := wrapS 64 (nextLine s (planeOf m q) 1024 (handedLine s (mp m q)))

/-- The record is the next of its slice: the earliest slice deadline, the lowest plane-in-module among equals (R86). -/
def sliceTurn (s : State) (m q : Nat) (n : Int) : Bool :=
  let d := sliceDeadlineOf s (planeOf m q) n
  n == nextRecord s m q && (pimsInUse s m).all fun k =>
    let e := sliceDeadlineOf s (planeOf m k) (nextRecord s m k)
    decide (d < e) || (e == d && decide (q ≤ k))

/-- The chip computes records for web line `n`: not FAILED, its line engine not stopped (R405), and in a pair gaffer or shadow from the line where
the shadow began (R259, R282). -/
def produces (s : State) (n : Int) : Bool :=
  s.par.state != .failed && s.pwr.state != .parked && awake s &&
  (!servitor s || (s.par.state == .shadow && match s.slices.shadowFrom with | some f => decide (f ≤ n) | none => true))

/-- Module-plane (m, q) carries a plane in use. -/
def planeRuns (s : State) (m q : Nat) : Bool := decide (m < 40 ∧ q < 4) && (planesInUse s).contains (planeOf m q)

/-- A record handed over: the last of its module-plane, at the end of its slice's queue. -/
def handOver (s : State) (r : Rec) : State :=
  { s with slices := { s.slices with recs := s.slices.recs ++ [r]
                                     handed := mapSet minI64 s.slices.handed (mp r.m r.q) r.n } }

/-- A record of a kind, as the slice hands it over. -/
def newRec (s : State) (m q : Nat) (n : Int) (kind : RecKind) (levels : List (Nat × Nat)) (dr : Nat) : Rec :=
  { m := m, q := q, n := n, kind := kind, levels := levels, page := (pageAt s n).map Page.adm, b := row0Tick s m q n
    assigned := kind != .print, gen8 := 0, refill := 0, seam := 0, directRow := dr, picks := [], thin := [], rseq := 0
    onebit := match s.job with | some j => j.onebit | none => false
    resync := false, deadDrops := false }

/-! Fetches (R81, R89, R90). -/

/-- Bits per sample of a layer kind. -/
def bitsOfLayer (layer : Nat) : Nat := if layer = 0 then 8 else 2

/-- Samples per block side in data columns and job lines: contone blocks are 64 data columns wide (R48). -/
def blockWide (layer : Nat) : Nat := if layer = 0 then 64 else 16

/-- What a fetch of a block finds: 0 sound, 1 poisoned, 2 undecodable (R72, R81). -/
def fetchBlock (p : Page) (b : Block) : Nat :=
  if b.poisoned ∨ p.rowPoison.contains (b.plane, b.layer, b.row) then 1
  else if b.spilled then 0
  else match decodeBits (bitsOfLayer b.layer) (bitsOf b.slot) with
    | (_, .ok _ _) => 0
    | _ => 2

/-- The 256 samples of `w` bits that spill units hold (R64). -/
def unitSamples (w : Nat) (bytes : List Byte) : List Nat :=
  (List.range 256).map fun i => bitsVal (((bitsOf bytes).drop (w * i)).take w)

/-- The samples of a sound block. -/
def blockSamples (b : Block) : List Nat :=
  if b.spilled then unitSamples (bitsOfLayer b.layer) b.packed
  else match decodeBits (bitsOfLayer b.layer) (bitsOf b.slot) with
    | (_, .ok samples _) => samples
    | _ => []

/-- The first data column of a layer's block column `col` of page `p`. -/
def blockFirst (p : Page) (layer col : Nat) : Int := 64 * p.col64 + blockWide layer * col

/-- Block rows of a layer that the record for page line `y` reads: the kernel's five sample rows for contone (R89). -/
def blockRows (s : State) (p : Page) (layer : Nat) (y : Int) : List Int :=
  if layer = 0 then
    let nr := cdiv (p.lines * jobS s) 4
    let kr := y / (4 / (jobS s : Int))
    ((List.range 5).map fun i => clampI (kr - 2 + (i : Nat)) 0 (nr - 1) / 16).dedup
  else [y / 16]

/-- The record of module `m`, page line `y` reads row `row`, column `col` of a layer of its plane (R89). -/
def fetchesAt (s : State) (p : Page) (m layer row : Nat) (y x : Int) (col : Nat) : Bool :=
  let lo := (moduleCols m).1 - x
  let hi := (moduleCols m).2 - x
  let pad := if layer = 0 then 8 else 0
  let a := blockFirst p layer col
  (blockRows s p layer y).contains (row : Int) && decide (lo - pad ≤ a + blockWide layer - 1 ∧ a ≤ hi + pad)

/-- The block lies among those the record of module `m`, plane `pl`, page line `y` reads (R89). -/
def fetches (s : State) (p : Page) (m pl : Nat) (y x : Int) (b : Block) : Bool :=
  b.plane == pl && fetchesAt s p m b.layer b.row y x b.col

/-- The web lines and logical columns of the block of a layer, row and column are marked (R81, R240). -/
def markPlace (s : State) (p : Page) (plane layer row col : Nat) (n0 x : Int) : State :=
  let h : Int := if layer = 0 then 64 / (jobS s : Int) else 16
  let a := blockFirst p layer col + x
  markArea s plane a (a + blockWide layer - 1) (n0 + row * h) (n0 + row * h + h - 1)

/-- Slice `m` fetches a block for the first time: what it finds holds for its later records; a dead block is counted once
per page, by its cause, and its area marked (R81, R89). -/
def settleBlock (m : Nat) (n0 x : Int) (id : Dword) (s : State) (b : Block) : State :=
  match pageOf s id with
  | none => s
  | some p =>
    if b.settled.any fun e => e.1 == m then s
    else
      let v := fetchBlock p b
      let first := v != 0 && !b.settled.any fun e => e.2 != 0
      let s1 := setPage s id fun q =>
        { q with blocks := q.blocks.map fun c => if c = b then { c with settled := c.settled ++ [(m, v)] } else c
                 deadBlocks := q.deadBlocks + (if first then 1 else 0) }
      let s2 := if first then count s1 (cnum 1 v) else s1
      if v = 0 then s2 else markPlace s2 p b.plane b.layer b.row b.col n0 x

/-- The blocks that storage does not list, of the rows with a poisoned index entry that the record of module `m`, plane `pl`,
page line `y` reads: they are dead like the rest of their row (R81). -/
def emptyBlocks (s : State) (p : Page) (m pl : Nat) (y x : Int) : List (Nat × Nat × Nat × Nat) :=
  (p.rowPoison.filter fun e => e.1 == pl).flatMap fun e =>
    let cols := (List.range (if e.2.1 = 0 then p.ncol64 else 4 * p.ncol64)).filter (fetchesAt s p m e.2.1 e.2.2 y x)
    let listed := p.blocks.filter fun k => k.plane == pl && k.layer == e.2.1 && k.row == e.2.2
    (cols.filter fun c => !listed.any fun k => k.col == c).map fun c => (pl, e.2.1, e.2.2, c)

/-- An unlisted block of a poisoned row is found dead: once per page counted, its area marked (R81). -/
def settleEmpty (n0 x : Int) (id : Dword) (s : State) (b : Nat × Nat × Nat × Nat) : State :=
  match pageOf s id with
  | none => s
  | some p =>
    if p.emptyDead.contains b then s
    else
      let s1 := setPage s id fun q => { q with emptyDead := q.emptyDead ++ [b], deadBlocks := q.deadBlocks + 1 }
      markPlace (count s1 (cnum 1 1)) p b.1 b.2.1 b.2.2.1 b.2.2.2 n0 x

/-- The fetches of one record. -/
def settleRecord (s : State) (p : Page) (m pl : Nat) (n0 y x : Int) : State :=
  let s1 := (p.blocks.filter (fetches s p m pl y x)).foldl (settleBlock m n0 x p.id) s
  (emptyBlocks s p m pl y x).foldl (settleEmpty n0 x p.id) s1

/-- Blocks of one layer, plane, row and column. -/
def blockAt (p : Page) (pl layer : Nat) (row col : Int) : Option Block :=
  p.blocks.find? fun b => b.plane == pl && b.layer == layer && (b.row : Int) == row && (b.col : Int) == col

/-- dead() of R90 for slice `m`, by block row and column of the window. -/
def deadAt (p : Page) (m pl layer : Nat) (row col : Int) : Bool :=
  match blockAt p pl layer row col with
  | some b => b.settled.any fun e => e.1 == m && e.2 != 0
  | none => p.rowPoison.any fun e => e.1 == pl && e.2.1 == layer && (e.2.2 : Int) == row

/-- The page has layer `layer` of plane `pl`. -/
def hasLayer (p : Page) (pl layer : Nat) : Bool := p.layers.any fun l => l.plane == pl && l.layer == layer

/-- Data column `d` lies in the page's window (R53). -/
def inWindow (p : Page) (d : Int) : Bool := decide ((64 * p.col64 : Int) ≤ d ∧ d < 64 * (p.col64 + p.ncol64))

/-- dead(p, L, d, y) of R90. -/
def dead (s : State) (p : Page) (m pl layer : Nat) (d y : Int) : Bool :=
  if layer = 0 then deadAt p m pl 0 (y / (64 / (jobS s : Int))) (d / 64 - p.col64)
  else deadAt p m pl layer (y / 16) (d / 16 - 4 * p.col64)

/-- lw2(p, L, d, y) of R90. -/
def lw2 (p : Page) (pl layer : Nat) (d y : Int) : Nat :=
  if !hasLayer p pl layer || !inWindow p d then 0
  else match blockAt p pl layer (y / 16) (d / 16 - 4 * p.col64) with
    | some b => (blockSamples b).getD (16 * (y % 16) + d % 16).toNat 0
    | none => 0

/-- cs(p, i, k) of R90. -/
def cs (s : State) (p : Page) (m pl : Nat) (i k : Int) : Nat :=
  let nr : Int := cdiv (p.lines * jobS s) 4
  let kk := clampI k 0 (nr - 1)
  let ii := clampI i 0 40959
  if !hasLayer p pl 0 || !inWindow p (4 * ii) then 0
  else
    let col := ii / 16 - p.col64
    if deadAt p m pl 0 (kk / 16) col then 0
    else match blockAt p pl 0 (kk / 16) col with
      | some b => (blockSamples b).getD (16 * (kk % 16) + ii % 16).toNat 0
      | none => 0

/-! Upsampling (R91, R92). -/

/-- The kernel rows of R91. -/
def kernelRow (four : Bool) (phase : Nat) : List Int :=
  if four then
    match phase with
    | 0 => [-6, 50, 93, -9, 0]
    | 1 => [-1, 12, 123, -6, 0]
    | 2 => [0, -6, 123, 12, -1]
    | _ => [0, -9, 93, 50, -6]
  else if phase = 0 then [-3, 29, 111, -9, 0] else [0, -9, 111, 29, -3]

/-- upsample(p, d, y) of R92 over a sample function. -/
def upsample (s : State) (sample : Int → Int → Nat) (d y : Int) : Nat :=
  let h : Int := 4 / (jobS s : Int)
  let i := d / 4
  let kr := y / h
  let kv := kernelRow (jobS s == 1) (y % h).toNat
  let kh := kernelRow true (d % 4).toNat
  let acc := ((List.range 5).map fun a =>
    kh.getD a 0 * ((List.range 5).map fun b =>
      kv.getD b 0 * (sample (i - 2 + (a : Nat)) (kr - 2 + (b : Nat)) : Int)).sum).sum
  (clampI ((acc + 512) / 1024) 0 4080).toNat

/-! Tone and screen (R94 to R98). -/

/-- A curve at tone `u` (R95). -/
def curveTone (k : List Nat) (u : Nat) : Int :=
  let g := u / 16
  let f : Int := (u % 16 : Nat)
  let a : Int := k.getD g 0
  let b : Int := k.getD (g + 1) 0
  if f = 0 then a else a + ((b - a) * f + 8) / 16

/-- Threshold `k` of a tile's cell (R97, R98). -/
def threshold (tile : List Qword) (xx yy k : Nat) : Int := (fld (tile.getD (256 * yy + xx) 0) (16 * (k - 1)) 12 : Nat)

/-- What a pixel comes to: its level, whether a dead block took it, and the poisoned table units it depends on. -/
structure Pixel where
  level : Nat
  dead : Bool
  hits : List (Nat × Nat)
deriving DecidableEq, Repr

/-- A pixel that no table or block spoiled. -/
def Pixel.clean (level : Nat) : Pixel := { level := level, dead := false, hits := [] }

/-- The level of tone input `u` at column `c` of module position `j`, logical column `x`, plane `p` and web line `n` (R89,
R95, R98); level 0 where a curve, index entry or cell it depends on is poisoned (R106). -/
def screened (s : State) (bad : List TablePoison) (p j c x : Nat) (n : Int) (u : Nat) : Pixel :=
  let planish := match s.job with | some jb => (match jb.planes[p]? with | some k => k.planish | none => false) | none => false
  let ix := 16640 * j + c
  let e := entryAt s p ix n
  let slot := slotAt s p n
  let xx := x % 256
  let yy := (n % 256).toNat
  let is := fun (kind index : Nat) (burst : Option Nat) =>
    bad.any fun b => b.kind == kind && b.index == index && match burst with | some v => b.burst == v | none => true
  let badIndex := planish && is kindIndex p (some (ix / 32))
  let badCurve := planish && !badIndex && is kindCurve e none
  let badCell := is kindScreen slot (some ((256 * yy + xx) / 8))
  let hits := (if badIndex then [(kindIndex, p)] else []) ++ (if badCurve then [(kindCurve, e)] else []) ++
    (if badCell then [(kindScreen, slot)] else [])
  if hits.isEmpty then
    let t := curveTone (if planish then curveAt s e n else unitCurve) u
    let tile := tileOf s slot
    Pixel.clean ((List.range 3).countP fun k => decide (threshold tile xx yy (k + 1) ≤ t))
  else { level := 0, dead := false, hits := hits }

/-- Where a PRINT record's levels come from (R89, R245, R246). -/
inductive Source where
  | page (y : Int)
  | flat (v : Nat)
  | census (k : Nat)
  | blank
deriving DecidableEq, Repr

/-- The pixel of data column `d`, logical column `x`, from page line `y` (R89, R96, R100). -/
def pagePixel (s : State) (pg : Page) (bad : List TablePoison) (m p c x : Nat) (n d y : Int) : Pixel :=
  let cfg := match s.job with | some jb => jb.planes[p]? | none => none
  let fmt := match cfg with | some k => k.format | none => 0
  let gone : Pixel := { level := 0, dead := true, hits := [] }
  if fmt = 2 then
    if dead s pg m p 2 d y then gone else Pixel.clean (lw2 pg p 2 d y)
  else if dead s pg m p 0 d y || dead s pg m p 1 d y then gone
  else match lw2 pg p 1 d y with
    | 1 => Pixel.clean 0
    | 2 => Pixel.clean (match cfg with | some k => k.force | none => 0)
    | 3 => Pixel.clean 3
    | _ =>
      if cs s pg m p (d / 4) (y / (4 / (jobS s : Int))) = 0 then Pixel.clean 0
      else screened s bad p (m % 10) c x n (upsample s (cs s pg m p) d y)

/-- The pixel of a flat contone value: the density stripe, with no line-work (R246). A BYPASS plane has no bypass sample
there. -/
def flatPixel (s : State) (bad : List TablePoison) (m p c x : Nat) (n : Int) (v : Nat) : Pixel :=
  let fmt := match s.job with | some jb => (match jb.planes[p]? with | some k => k.format | none => 0) | none => 0
  if fmt = 2 ∨ v = 0 then Pixel.clean 0 else screened s bad p (m % 10) c x n (min 4080 (16 * v))

/-- The stitch mask of joint `J` gives zone column `i` to the module at `side`; a poisoned row gives it to neither (R101,
R106). -/
def stitched (s : State) (bad : List TablePoison) (J q i : Nat) (n : Int) (side : Bool) : Option (Nat × Nat) × Bool :=
  let l := (n % 16).toNat
  let k := 4 * J + q
  if bad.any fun b => b.kind == kindMask && b.index == k && b.burst == l / 2 then (some (kindMask, k), false)
  else (none, ((maskAt s k n).getD l 0).getLsbD i == side)

/-- The procedure of R89 for physical column `c`, with its census form of R245. -/
def columnPixel (s : State) (pg : Page) (bad : List TablePoison) (m q : Nat) (n : Int) (src : Source) (c : Nat) : Pixel :=
  let r := m / 10
  let j := m % 10
  let p := 4 * r + q
  let xi : Int := 16384 * (j : Int) + c - 128
  if xi < 0 ∨ 163839 < xi then Pixel.clean 0
  else
    let x := xi.toNat
    match src with
    | .blank => Pixel.clean 0
    | .census k => Pixel.clean (if k % 16 = (c + 8 * (j % 2)) % 16 then 3 else 0)
    | _ =>
      let st := if c < 256 ∧ 1 ≤ j then stitched s bad (9 * r + j - 1) q c n true
                else if 16384 ≤ c ∧ j ≤ 8 then stitched s bad (9 * r + j) q (c - 16384) n false
                else (none, true)
      match st with
      | (some h, _) => { level := 0, dead := false, hits := [h] }
      | (none, false) => Pixel.clean 0
      | (none, true) =>
        let d := xi - timedAt s.web.xShift p n
        if d < 0 ∨ 163839 < d then Pixel.clean 0
        else match src with
          | .page y => pagePixel s pg bad m p c x n d y
          | .flat v => flatPixel s bad m p c x n v
          | _ => Pixel.clean 0

/-- The source of plane `p`'s record for web line `n` of a page that starts at `n0`, and its DIRECT_ROW (R128, R245,
R246). -/
def sourceAt (pg : Page) (n0 : Int) (p : Nat) (n : Int) : Source × Nat :=
  if n < n0 + pg.lines then (.page (n - n0), 15)
  else match pg.band with
    | none => (.blank, 15)
    | some b =>
      let w := (n - n0 - pg.lines).toNat
      let i := w % b.slotLines
      if b.planes[w / b.slotLines]? ≠ some p then (.blank, 15)
      else if i < 768 then (.census (i % 64), i / 64)
      else (.flat (32 * ((i - 768) / 64) + 31), 15)

/-- TABLE_POISON once for each unit a record fetched poisoned data from, and LNE_TABLE_POISON for each (R106, R110). -/
def tablePoison (s : State) (hits : List (Nat × Nat)) : State :=
  hits.foldl (fun t h =>
    let seen := t.tables.poisoned.any fun p => p.kind == h.1 && p.index == h.2 && p.raised
    let mark := t.tables.poisoned.map fun p => if p.kind = h.1 ∧ p.index = h.2 then { p with raised := true } else p
    let t1 := count { t with tables := { t.tables with poisoned := mark } } (cnum 1 3)
    raiseIf (!seen) t1 0x0106 (it h.1 ++ it h.2)) s

/-- A slice computes a PRINT record and hands it over. -/
def printRecord (s : State) (pg : Page) (n0 : Int) (m q : Nat) (n : Int) : State :=
  let p := planeOf m q
  let (src, dr) := sourceAt pg n0 p n
  let s1 := match src with
    | .page y => settleRecord s pg m p n0 y (timedAt s.web.xShift p n)
    | _ => s
  let pg1 := (pageOf s1 pg.id).getD pg
  let bad := poisonAt s1 n
  let px := (List.range pcols).map fun c => (c, columnPixel s1 pg1 bad m q n src c)
  let hits := (px.flatMap fun x => x.2.hits).dedup
  let spoiled := (px.filter fun x => !x.2.hits.isEmpty).map fun x => 16384 * ((m % 10 : Nat) : Int) + (x.1 : Int) - 128
  let deadArea := px.any fun x => x.2.dead || !x.2.hits.isEmpty
  let levels := (px.filter fun x => x.2.level != 0).map fun x => (x.1, x.2.level)
  let s2 := tablePoison (spoiled.foldl (fun t x => markArea t p x x n n) s1) hits
  let s3 := if deadArea then outOfStep s2 m q 2 n else s2
  handOver s3 { newRec s3 m q n .print levels dr with deadDrops := deadArea }

/-! Slice deadlines (R87, R107, R120, R215, R273). -/

/-- The generation whose acknowledgement module `m`'s record for web line `n` waits for: the one that already holds the module's
records back, or the one in force for that line; a servitor's always count as acknowledged (R120). -/
def mapWaits (s : State) (m : Nat) (n : Int) : Option Nat :=
  let waits := fun (g : Nat) => !s.map.acked.contains (m, g)
  if servitor s then none
  else match s.map.holding.find? fun h => h.1 == m && waits h.2 with
    | some h => some h.2
    | none => match genAt s n with
      | some g => if waits g.number then some g.number else none
      | none => none

/-- A record sent LATE for want of a map acknowledgement, as is every later one to the module until that arrives (R120). -/
def mapWaitLine (s : State) (m g : Nat) : State :=
  let s0 := dropHolding s m
  let s1 := count { s0 with map := { s0.map with holding := s0.map.holding ++ [(m, g)] } } (cnum 2 47)
  let key := g * 64 + m
  if s1.map.waitRaised.contains key then s1
  else raise { s1 with map := { s1.map with waitRaised := s1.map.waitRaised ++ [key] } } 0x0205 (it m ++ it g)

/-- The record of (m, q, n) among those handed over, changed. -/
def setRec (s : State) (m q : Nat) (n : Int) (f : Rec → Rec) : State :=
  { s with slices := { s.slices with recs := s.slices.recs.map fun r => if r.m = m ∧ r.q = q ∧ r.n = n then f r else r } }

/-- The record handed over and not yet released. -/
def recAt (s : State) (m q : Nat) (n : Int) : Option Rec :=
  s.slices.recs.find? fun r => r.m == m && r.q == q && r.n == n

/-- A record that its group, out of RUN, does not take: not delivered, its web line marked where it would have printed
(R215). -/
def undelivered (s : State) (m q : Nat) (n : Int) (drops : Bool) : State :=
  let k := mp m q
  let s1 := { s with slices := { s.slices with recs := s.slices.recs.filter fun r => !(r.m == m && r.q == q && r.n == n) }
                     dxl := { s.dxl with released := mapSet minI64 s.dxl.released k (max n (mapGet minI64 s.dxl.released k)) } }
  retirePages (if drops then markModule s1 m q n else s1)

/-- The records of a page the servitor does not hold keep their module-planes' marks (R273). -/
def holdMarks (s : State) (m q : Nat) (n : Int) : State :=
  if s.par.unshadowed.any fun x => decide (x.2.1 ≤ n ∧ n ≤ x.2.2.1) then setMark s (mp m q) false else s

/-- A page of the gaffer that is due and that this servitor has not admitted (R273). -/
def dueUnadmitted (s : State) (n : Int) : State :=
  if !servitor s || (pageAt s n).isSome then s
  else match s.par.pageMsgs.find? fun x => x.2.1 == 1 &&
      decide (x.2.2.2.2.1 ≤ n ∧ n < x.2.2.2.2.1 + x.2.2.2.2.2) with
    | some x => unshadow s x.1 (some x.2.2.2.2.1) x.2.2.2.2.2 ((List.range 16).filter fun k => x.2.2.2.1.testBit k)
    | none => s

/-- The record of (m, q, n) is LATE: the late line, and the record in its place. -/
def makeLate (s : State) (m q : Nat) (n : Int) : State :=
  match recAt s m q n with
  | some _ => setRec (lateLine s m q n) m q n fun r => blankRec r .late
  | none => handOver (lateLine s m q n) (newRec s m q n .late [] 15)

/-- What the slice hands over at the deadline of a record it has not handed over: CUT on a page cut there, LATE on an
admitted page, IDLE elsewhere (R87). -/
def deadlineKind (s : State) (m q : Nat) (n : Int) : RecKind :=
  match pageAt s n with
  | some p =>
    if pageActive p then .late
    else if p.cut && cutAt p.cuts (planeOf m q) n then .cut
    else if p.cut then .late
    else .idle
  | none => .idle

/-- The deadline of a record: hand it over as it stands, or LATE, IDLE or CUT. -/
def deadlineRecord (s : State) (m q : Nat) (n : Int) : State :=
  match recAt s m q n with
  | some r =>
    if r.kind = .print ∧ r.assigned then makeLate s m q n else s
  | none =>
    match deadlineKind s m q n with
    | .late => makeLate s m q n
    | .cut => handOver s (newRec s m q n .cut [] 15)
    | k => handOver s (newRec s m q n k [] 15)

/-- SLICE_DEADLINE (R87, R107, R120, R199, R215): at or after the record's slice deadline. A record not complete, or complete
and still waiting for the link, is LATE; of a module that has not acknowledged the generation every record is. -/
def execSliceDeadline (m q : Nat) (n : Int) (s : State) : Host.Outcome State Fault Refusal :=
  let due := decide (sliceDeadlineOf s (planeOf m q) n ≤ lineCounter s)
  if planeRuns s m q && produces s n && due && ((recAt s m q n).isSome || sliceTurn s m q n) then
    let s0 := holdMarks (dueUnadmitted s n) m q n
    let s1 := deadlineRecord s0 m q n
    let s2 := match mapWaits s1 m n, recAt s1 m q n with
      | some g, some r =>
        if (groupAt s1 m).joined then mapWaitLine (if r.kind = .late then s1 else makeLate s1 m q n) m g else s1
      | _, _ => s1
    let drops := match recAt s2 m q n with | some r => r.kind == .print | none => false
    .next (if (groupAt s2 m).joined then s2 else undelivered s2 m q n drops)
  else .next s

/-! Pace (R108, R109). -/

/-- The demand Q_m in 1/4,096 of 41.6 × 10⁹ decisions per second (R109). -/
def demandOf (s : State) (m : Nat) : Nat := 16640 * (pimsInUse s m).length * s.ftb.rho10.toNat * 4 / 41600000000

/-- PACE_m < 1.05 × Q_m. -/
def paceShort (s : State) (m pace : Nat) : Bool :=
  decide (41600000000 * 100 * 1024 * pace < 105 * 16640 * 4096 * (pimsInUse s m).length * s.ftb.rho10.toNat)

/-- PACE_LOW, once for each page that prints while the shortage holds (R109). -/
def reportPace (s : State) (m pace : Nat) : State :=
  let fresh := (printingPages s).filter fun p => !p.once.contains 0x0105
  let s1 := fresh.foldl (fun t p => setPage t p.id fun x => { x with once := x.once ++ [0x0105] }) s
  raiseIf (!fresh.isEmpty) s1 0x0105 (it m ++ it pace ++ it (demandOf s m))

/-- How many short readings in a row module `m` has with this one, counted up to 100. -/
def lowRun (s : State) (m pace : Nat) : Nat :=
  if paceShort s m pace then min 100 (mapGet 0 s.slices.lowRuns m + 1) else 0

/-- A slice's run of short readings is now `run` long: the hundredth of a row begins a PACE_LOW condition, which is counted; it
and each later one in the row report it where a page prints that has not reported it (R109, R110). -/
def paceRun (s : State) (m pace run : Nat) : State :=
  let before := mapGet 0 s.slices.lowRuns m
  let s1 := { s with slices := { s.slices with lowRuns := mapSet 0 s.slices.lowRuns m run } }
  if run < 100 then s1 else reportPace (if before < 100 then count s1 (cnum 1 4) else s1) m pace

/-- One slice's reading. -/
def paceSlice (s : State) (m pace : Nat) : State := paceRun s m pace (lowRun s m pace)

/-- The readings `ps` of the 40 slices, in slice order. -/
def readPaces (s : State) (ps : List Nat) : State := (List.range 40).foldl (fun t m => paceSlice t m (ps.getD m 0)) s

/-- PACE_READING (R108, R109): `pace` holds PACE_0 to PACE_39. During an anneal the readings hold (R424), and there are none
in SLEEP, in OFF and from 10 µs into SAVE on (R405, R413). -/
def execPaceReading (pace : List Nat) (s : State) : Host.Outcome State Fault Refusal :=
  if s.anneal.running ∨ awake s = false then .next s
  else
    let ps := (List.range 40).map fun m => min 0xFFFF (pace.getD m 0)
    let s1 := { s with slices := { s.slices with pace := ps }, obs := { s.obs with paceMin := ps.foldl min s.obs.paceMin } }
    .next (readPaces s1 ps)

/-! Loads (R101 to R106, R402, R403). -/

/-- How the reads of a table load end: POISONED for a poisoned completion (R106), HOST_READ_ERROR for a failed one. -/
def tableRead (s : State) (ranges : List (Nat × Nat)) : Option Nat :=
  let ends := ranges.map fun r => if r.2 = 0 then DmaEnd.ok else hostReadEnd s r.1 r.2
  if ends.contains .failed then some stHostReadError else if ends.contains .poisoned then some stPoisoned else none

/-- The 12-bit values of 16-bit words in host memory; the RSV bits above them are ignored (R5, R36, R93, R94). -/
def hostWords (s : State) (a n : Nat) : List Nat :=
  (List.range n).map fun i => leNat (hostBytes s (a + 2 * i) 2) % 4096

/-- The curve records of a CURVE_LOAD: curve number and knots (R93, R402). -/
def curveRecords (s : State) (a n : Nat) : List (Nat × List Nat) :=
  (List.range n).map fun i => (fld (hostDw s (a + 520 * i)) 0 12, hostWords s (a + 520 * i + 8) 256)

/-- The entry list of a CURVE_LOAD: plane, entry, curve (R402). -/
def entryList (s : State) (a n : Nat) : List (Nat × Nat × Nat) :=
  (List.range n).map fun i =>
    let w := leNat (hostBytes s (a + 8 * i) 8)
    (w / 2 ^ 60 % 16, w / 2 ^ 42 % 2 ^ 18, w / 2 ^ 30 % 2 ^ 12)

/-- The curve belongs to the assay: in an AUTO_CURVE plane's block while CURVE_LOCK is clear (R252). -/
def assayOwnsCurve (s : State) (e : Nat) : Bool :=
  match s.asy.setup with
  | none => false
  | some a => !s.asy.curveLock && (List.range 16).any fun p =>
      a.autoCurve.getD p false && decide (a.curveBase + 32 * p ≤ e ∧ e < a.curveBase + 32 * p + 32)

/-- The plane's entries belong to the assay (R252). -/
def assayOwnsPlane (s : State) (p : Nat) : Bool :=
  match s.asy.setup with
  | none => false
  | some a => !s.asy.curveLock && a.autoCurve.getD p false

/-- A curve-set update committed (R103, R104): with no job open it applies at once, to every record computed after it. -/
def addCurveUpd (s : State) (u : CurveUpd) : State :=
  let s1 := foldDropped s
  let t1 := { s1.tables with curveGen := (s.tables.curveGen + 1) % 2 ^ 16 }
  if s.job.isSome then { s1 with tables := { t1 with curveUpds := t1.curveUpds ++ [u] } }
  else
    { s1 with tables := { t1 with curves := mapSetAll unitCurve t1.curves u.curves
                                  entries := mapSetAll 0 t1.entries u.entries } }

/-- The line from which a change counts: the one named, or every record from now with no job open (R104). -/
def changeLine (s : State) (n : Int) : Int := if s.job.isSome then n else minI64

/-- A partly replaced index table reads the rest of its copy in force: poison there fails the load (R106). -/
def indexPoisoned (s : State) (entries : List (Nat × Nat)) (n : Int) : Bool :=
  let planes := (entries.map fun e => e.1 / 166400).dedup
  (poisonAt s (if s.job.isSome then n else lineCounter s)).any fun p =>
    p.kind == kindIndex && planes.contains p.index &&
    (List.range 32).any fun i =>
      decide (32 * p.burst + i < 166400) && (assoc entries (entryKey p.index (32 * p.burst + i))).isNone

/-- CURVE_LOAD (R103 to R106, R252, R402). -/
def execCurveLoad (e : Entry) (s : State) : Host.Outcome State Fault Refusal :=
  .next (command [0x0202] e (fun _ s =>
    let nc := fld (pw e 0) 16 16
    let mask := fld (pw e 0) 0 16
    let ne := (pw e 1).toNat
    let planes := (List.range 16).filter fun p => mask.testBit p
    let n := pqS e 8
    let (ca, ea, ta) := (pq e 2, pq e 4, pq e 6)
    checked s [(!rsvOk e (List.replicate 10 allBits) || decide (4096 < nc) || decide (2662400 < ne) ||
                (nc == 0 && ne == 0 && mask == 0) || ca % 8 != 0 || ea % 8 != 0 || ta % 8 != 0, stFormat)] fun s =>
      match tableRead s [(ca, 520 * nc), (ea, 8 * ne), (ta, 332800 * planes.length)] with
      | some st => reject s st
      | none =>
        let cr := curveRecords s ca nc
        let el := entryList s ea ne
        let tabs := (List.range planes.length).map fun i => (planes.getD i 0, hostWords s (ta + 332800 * i) 166400)
        let nums := cr.map Prod.fst
        let keys := el.map fun x => entryKey x.1 x.2.1
        let bad := el.any (fun x => decide (166400 ≤ x.2.1) || planes.contains x.1) || decide (¬ nums.Nodup) ||
          decide (¬ keys.Nodup)
        let entries := (el.map fun x => (entryKey x.1 x.2.1, x.2.2)) ++
          tabs.flatMap fun t => (List.range 166400).map fun i => (entryKey t.1 i, t.2.getD i 0)
        let u : CurveUpd := { line := n, curves := cr, entries := entries, assay := false, out := false }
        let owned := nums.any (assayOwnsCurve s) || (el.map (·.1) ++ planes).any (assayOwnsPlane s)
        let passed := s.job.isSome && decide (n < changeFloor s (updPlanes s u))
        let full := s.job.isSome && decide (8 ≤ (s.tables.curveUpds.filter (updPending s)).length)
        checked s [(bad, stFormat), (owned, stAssayOwned), (passed, stLinePassed), (full, stPendingFull),
                   (indexPoisoned s entries n, stPoisoned)] fun s =>
          let s1 := addCurveUpd s u
          let units := nums.map (fun c => (kindCurve, c)) ++ (entries.map fun x => x.1 / 166400).dedup.map fun p => (kindIndex, p)
          let s2 := units.foldl (fun t x => endPoison t x.1 x.2 (changeLine s n)) s1
          okWith s2 (it s2.tables.curveGen)) s)

/-- A cell of R97 is valid: no reserved bit set and 1 ≤ T1 ≤ T2 ≤ T3. -/
def cellOk (w : Qword) : Bool :=
  fld w 44 20 == 0 && fld w 28 4 == 0 && fld w 12 4 == 0 &&
  decide (1 ≤ fld w 0 12 ∧ fld w 0 12 ≤ fld w 16 12 ∧ fld w 16 12 ≤ fld w 32 12)

/-- SCREEN_LOAD (R97 to R99, R104 to R106, R403). -/
def execScreenLoad (e : Entry) (s : State) : Host.Outcome State Fault Refusal :=
  .next (command [0x0203] e (fun _ s =>
    let slot := fld (pw e 0) 27 5
    let load := bitOf (pw e 0) 26
    let bind_ := bitOf (pw e 0) 25
    let mask := fld (pw e 0) 0 16
    let planes := (List.range 16).filter fun p => mask.testBit p
    let a := pq e 2
    let n := pqS e 4
    let bindable := fun (p : Nat) => match s.job with
      | some j => (match j.planes[p]? with | some c => c.inUse && c.format != 2 | none => false)
      | none => false
    checked s [(!rsvOk e [0xFE00FFFF, 0, allBits, allBits, allBits, allBits] || (!load && !bind_) || (!bind_ && mask != 0) ||
                a % 64 != 0, stFormat), (bind_ && s.job.isNone, stNoJob),
               (bind_ && planes.any fun p => !bindable p, stFormat)] fun s =>
      match tableRead s [(a, if load then 524288 else 0)] with
      | some st => reject s st
      | none =>
        let tile := if load then (List.range 65536).map fun i => BitVec.ofNat 64 (leNat (hostBytes s (a + 8 * i) 8)) else []
        let full := planes.any fun p => decide (4 ≤ ((bindingsPending s p).filter fun c => c.1 != n).length)
        checked s [(tile.any fun w => !cellOk w, stFormat), (load && slotInUse s slot, stSlotInUse),
                   (!load && (tileOf s slot).isEmpty, stNoScreen),
                   (bind_ && decide (n < changeFloor s planes), stLinePassed), (bind_ && full, stPendingFull)] fun s =>
          let s1 := if load then endPoison { s with tables := { s.tables with screens := mapSet [] s.tables.screens slot tile } }
                      kindScreen slot minI64 else s
          let scr := if bind_ then planes.foldl (fun t p => timedPut t p n slot) s1.web.screens else s1.web.screens
          okWith { s1 with web := { s1.web with screens := scr } } []) s)

/-- The records of a STITCH_LOAD: joint, plane-in-module, rows (R101, R396). -/
def stitchRecords (s : State) (a n : Nat) : List (Nat × Nat × List (BitVec 256)) :=
  (List.range n).map fun i =>
    let b := a + 520 * i
    let w := hostDw s b
    (fld w 8 6, fld w 0 2,
     (List.range 16).map fun l => BitVec.ofNat 256 (leNat (hostBytes s (b + 8 + 32 * l) 32)))

/-- STITCH_LOAD (R101 to R106, R396). -/
def execStitchLoad (e : Entry) (s : State) : Host.Outcome State Fault Refusal :=
  .next (command [0x0204] e (fun _ s =>
    let k := (pw e 0).toNat
    let a := pq e 2
    let n := pqS e 4
    checked s [(!rsvOk e [allBits, 0, allBits, allBits, allBits, allBits] || decide (k < 1 ∨ 144 < k), stFormat)] fun s =>
      match tableRead s [(a, 520 * k)] with
      | some st => reject s st
      | none =>
        let rs := stitchRecords s a k
        let nums := rs.map fun r => 4 * r.1 + r.2.1
        let planes := (rs.flatMap fun r => jointPlanes r.1).dedup
        let job := s.job.isSome
        let full := nums.any fun m => decide (4 ≤ (s.tables.maskUpds.filter fun u => u.mask == m && maskPending s u && u.line != n).length)
        checked s [((rs.any fun r => decide (36 ≤ r.1)), stFormat),
                   (job && decide (n < changeFloor s planes), stLinePassed), (job && full, stPendingFull)] fun s =>
          let s1 := foldDropped s
          let t := rs.foldl (fun t r =>
            let m := 4 * r.1 + r.2.1
            if job then { t with maskUpds := (t.maskUpds.filter fun u => !(u.mask == m && u.line == n)) ++
              [{ mask := m, rows := r.2.2, line := n, out := false }] }
            else { t with masks := mapSet middleCut t.masks m r.2.2 }) s1.tables
          okWith (nums.foldl (fun t m => endPoison t kindMask m (changeLine s n)) { s1 with tables := t }) []) s)

end Sys2Proof.Machine
end

