-- ==== Sys2Proof/Machine/Mailbox.lean ====
section
/-! DEFINITION. Reset, boot, the direct register window and the mailbox rings (R7, R379 to R388, R393, R436 to R438). -/

namespace Sys2Proof.Machine

/-- What every chip reset leaves: the reset state, with what a reset does not touch: the waiting commands, host memory,
what has left the chip, the model's free counter, the fuses (R431), the keep device's slots (R418), the pins' input
levels and the temperatures. Configuration, tables, positions and DRAM contents are gone (R7, R379). -/
def chipReset (s : State) : State :=
  let z := State.reset
  let sec := { z.sec with ownerHash := s.sec.ownerHash, sealBits := s.sec.sealBits, retireBits := s.sec.retireBits
                          rb := s.sec.rb, nonces := s.sec.nonces }
  let pwr := { z.pwr with keepDev := s.pwr.keepDev, temps := s.pwr.temps, tj := s.pwr.tj, holdMonMv := s.pwr.holdMonMv }
  let pins := { z.pins with ceaseN := s.pins.ceaseN, ceaseAck := s.pins.ceaseN, roleSel := s.pins.roleSel
                            axSwitch := s.pins.axSwitch }
  let mbx := { z.mbx with pcieWidth := s.mbx.pcieWidth, pcieMts := s.mbx.pcieMts, maxPayload := s.mbx.maxPayload
                          maxRead := s.mbx.maxRead }
  { z with pending := s.pending, host := s.host, out := s.out, free := s.free, sec := sec, pwr := pwr, pins := pins
           mbx := mbx }

/-- POWER_ON_RESET (R470, R472): every block in its reset state, outputs driven, boot in WAIT_IMAGE. -/
def execPowerOnReset (s : State) : Host.Outcome State Fault Refusal := .next (chipReset s)

/-- The chip holds itself in reset with its banks undriven, and CEASE_ACK reads low (R472, R479). -/
def holdReset (s : State) : State :=
  let t := chipReset s
  { t with pins := { t.pins with resetHeld := true, driven := false, ceaseAck := false } }

/-- RESET_N (R379): the whole pulse, asserted and released again (DESIGN CHOICE, log 198). With a rail still out of range the release is
the power-on reset's, which comes later (R470, R472). -/
def execResetN (s : State) : Host.Outcome State Fault Refusal :=
  .next (if s.pins.resetHeld then holdReset s else chipReset s)

/-- POWER_LOSS (R472). -/
def execPowerLoss (s : State) : Host.Outcome State Fault Refusal := .next (holdReset s)

/-- Endpoint reset (R379): the endpoint and the mailbox only; completions of commands in flight are discarded. -/
def endpointReset (s : State) : State :=
  let fl := s.mbx.inFlight.map fun r => { r with discard := true }
  { s with mbx := { s.mbx with enable := false, sqTail := 0, sqHead := 0, cqHead := 0, cqBase := 0, cqIndex := 0
                               cqUnread := 0, phase := true, ring := [], inFlight := fl, msix := [], pba := 0 } }

/-- The PCIe function's identity (R377): device ID and class code. -/
abbrev pcieDeviceId : Nat := 0x1640
abbrev pcieClassCode : Nat := 0x118000

/-- DMA reads of the chip: at most 512 bytes each (R58), no more than the host allows (R377). -/
def dmaReadSize (s : State) : Nat := min 512 s.mbx.maxRead

/-- DMA reads outstanding at most (R377). -/
abbrev dmaReadsMax : Nat := 768

/-- The link as it comes up again (R377): width, rate in MT/s, largest payload and largest read request in bytes, each one of those
R377 lists. The spec states none of them: which it is, is a free value (log 182). -/
def relink (s : State) : State :=
  let (s1, v) := drawFree s
  { s1 with mbx := { s1.mbx with pcieWidth := [4, 8, 16].getD (v % 3) 4, pcieMts := [2500, 5000, 8000, 16000, 32000].getD (v / 3 % 5) 2500
                                 maxPayload := [128, 256, 512].getD (v / 15 % 3) 128
                                 maxRead := [128, 256, 512, 1024, 2048, 4096].getD (v / 45 % 6) 128 } }

/-- ENDPOINT_RESET (R377, R379). -/
def execEndpointReset (s : State) : Host.Outcome State Fault Refusal := .next (relink (endpointReset s))

/-- A write of CHIP_RESET: KEY 0xA5 resets the chip (R379, R381); OFF is left only by a power-on reset or RESET_N (R409). -/
def writeChipReset (s : State) (v : Dword) : State :=
  if fld v 0 8 = 0xA5 ∧ s.pwr.state ≠ .off ∧ ¬ s.pins.resetHeld then chipReset s else s

/-- CHIP_RESET (R381). -/
def execChipReset (value : Dword) (s : State) : Host.Outcome State Fault Refusal := .next (writeChipReset s value)

/-! Boot. -/

/-- BOOT_STATUS.STATE code (R382). -/
def bootCode : BootState → Nat
  | .waitImage => 0 | .verifying => 1 | .starting => 2 | .running => 3 | .refused => 4 | .reloadRequired => 5

/-- A change of BOOT_STATUS.STATE sends vector 31 (R382). -/
def setBoot (s : State) (b : BootState) (cause : Nat) : State :=
  sendVector { s with boot := { s.boot with state := b, cause := cause } } 31

/-- The image area accepts an image and GO, out of reset: WAIT_IMAGE, or REFUSED for a cause other than 6 (R383). -/
def acceptsImage (s : State) : Bool :=
  !s.pins.resetHeld && (s.boot.state == .waitImage || (s.boot.state == .refused && s.boot.cause != 6))

/-- The image area written from offset 0 (R383): what was written beyond it earlier stays; ignored after GO until STATE is REFUSED
(R438). -/
def writeImage (s : State) (image : List Byte) : State :=
  if acceptsImage s then { s with boot := { s.boot with image := image ++ s.boot.image.drop image.length } } else s

/-- A write of BOOT_CTRL: GO starts verification of the image in BAR2 (R381, R383). -/
def writeBootCtrl (s : State) (v : Dword) : State :=
  if bitOf v 31 ∧ acceptsImage s then
    setBoot { s with boot := { s.boot with imageLen := fld v 0 24 } } .verifying 0
  else s

/-- BOOT_GO (R383): the host wrote `image` to BAR2 and then BOOT_CTRL. -/
def execBootGo (value : Dword) (image : List Byte) (s : State) : Host.Outcome State Fault Refusal :=
  .next (writeBootCtrl (writeImage s image) value)

/-- Dword `i` of the image. -/
def imageDw (s : State) (i : Nat) : Dword := BitVec.ofNat 32 (leNat ((s.boot.image.drop (4 * i)).take 4))

/-- Bytes of the image, 0 past what was written. -/
def imageBytes (s : State) (a n : Nat) : List Byte := (List.range n).map fun i => s.boot.image.getD (a + i) 0

/-- The key slots and the LC_ bit that the present lifecycle accepts (R432, R438 check 4). -/
def lifecycleAccepts (s : State) : Bool :=
  let slot := fld (imageDw s 1) 16 8
  match lifecycle s with
  | 0 => decide (slot ≤ 1) && bitOf (imageDw s 3) 8
  | 1 => slot == 0 && bitOf (imageDw s 3) 9
  | _ => false

/-- IMAGE_LEN within R381 and equal to the hallmark's (R438 check 2). -/
def imageLenOk (s : State) : Bool :=
  let n := s.boot.imageLen
  decide (4096 ≤ n ∧ n ≤ 15728640 ∧ n % 4 = 0) && (imageDw s 4).toNat == n

/-- The hallmark's fixed fields (R436, R438 check 3). -/
def hallmarkOk (s : State) : Bool :=
  imageDw s 0 == 0x4B4D4C48 && fld (imageDw s 1) 24 8 == 1 && fld (imageDw s 1) 0 16 == 512 &&
  fld (imageDw s 3) 16 16 == 0x1640 && decide (fld (imageDw s 1) 16 8 ≤ 1) && decide (fld (imageDw s 3) 0 8 ≤ 64) &&
  fld (imageDw s 3) 10 6 == 0 && imageDw s 5 == 0 && (List.range 62).all fun i => imageDw s (66 + i) == 0

/-- The signer's key, the signature and the body hash (R436, R437, R438 check 5). -/
def signatureOk (s : State) : Bool :=
  let key := imageBytes s 72 96
  let body := imageBytes s 512 (s.boot.imageLen - 512)
  decide (sha384 key = Config.keyHash (fld (imageDw s 1) 16 8)) &&
  ecdsaVerify key (sha384 (imageBytes s 0 168)) (imageBytes s 168 96) &&
  decide (beNat (imageBytes s 24 48) = (sha384 body).toNat)

/-- The first failing check of VERIFYING, as its cause (R438). -/
def verifyCause (s : State) : Option Nat :=
  firstFail [(lifecycle s == 2, 6), (!imageLenOk s, 5), (!hallmarkOk s, 1), (!lifecycleAccepts s, 6),
             (!signatureOk s, 2), (decide (fld (imageDw s 3) 0 8 < rbCount s), 3)]

/-- BOOT_VERIFY_DONE (R438): REFUSED with its cause, or STARTING. -/
def execBootVerifyDone (s : State) : Host.Outcome State Fault Refusal :=
  if s.boot.state = .verifying then
    match verifyCause s with
    | some c => .next (setBoot s .refused c)
    | none => .next (setBoot s .starting 0)
  else .next s

/-- ID (R381): part 0x1640, stepping 0xB0, family 0x01. -/
def idDw : Dword := 0x1640B001

/-- A set stored: a ninth replaces the one whose temperature lies nearest (R422). -/
def storeSet (sets : List AnnealSet) (x : AnnealSet) : List AnnealSet :=
  if sets.length < 8 then sets ++ [x]
  else
    let d := fun (a : AnnealSet) => (a.tj - x.tj).natAbs
    let best := (sets.map d).foldl min (match sets with | a :: _ => d a | [] => 0)
    let i := sets.findIdx fun a => d a == best
    modAt (fun _ => x) sets i

/-- What an anneal that ends leaves (R422, R427): PASS stores a set tagged with Tj; FAIL leaves the sets and is retried 1 s later,
after three in a row 60 s later. The analogue inputs are recalibrated next. -/
def annealEnd (s : State) (pass : Bool) : State :=
  let s1 := count s (cnum 10 1)
  let a := { s1.anneal with running := false, windowEnd := none, ainCal := some 0 }
  if pass then
    { s1 with anneal := { a with due := false, failRuns := 0, taken := s.anneal.taken + 1
                                 sets := storeSet s.anneal.sets { tj := s.pwr.tj, tag := s.anneal.taken } } }
  else
    let n := s.anneal.failRuns + 1
    count { s1 with anneal := { a with due := true, failRuns := n
                                       retryAt := s.time.clk + if 3 ≤ n then 60 * 400000000 else 400000000 } } (cnum 10 2)

/-- A temperature in 1/64 °C as a signed 16.16 item (R459). -/
def itTemp (t : Int) : List Dword := it (t * 1024)

/-- ANNEAL_DONE with its outcome: 0 PASS, 1 FAIL (R427, R487). -/
def raiseAnneal (s : State) (pass : Bool) : State := raise s 0x0A05 (it (if pass then 0 else 1) ++ itTemp s.pwr.tj)

/-- The boot anneal of R423; a failed one raises ANNEAL_DONE, as R427 says of every failed anneal. -/
def bootAnneal (s : State) (pass : Bool) : State :=
  let s1 := annealEnd s pass
  if pass then s1 else raiseAnneal s1 false

/-- Lanes enabled, and not yet on, wait for signal in DETECT; an unconnected receiver stays there (R209, R481). -/
def lanesWait (s : State) : State :=
  { s with dxl := { s.dxl with lanes := s.dxl.lanes.map fun x => if x.state = .down then { x with state := .detect } else x } }

/-- EXTEST, CLAMP and HIGHZ are gone when RUNNING is reached: the TAP holds BYPASS (R444). -/
def dropBoundary (s : State) : State :=
  if s.sec.jtag.toNat = 0x00 ∨ s.sec.jtag.toNat = 0x04 ∨ s.sec.jtag.toNat = 0x05 then { s with sec := { s.sec with jtag := 0xFF } } else s

/-- BOOT_START_DONE (R14, R383): Finbuly finds its stepping and runs; the chip is in PARKED (R407), SYNCING (R259), and
has run its boot anneal (R423). A CEASE that stands, or CEASE_N held, is acknowledged as R479 says of a chip with no module joined;
ROLE_SEL high is refused (R262). The spec names no power state before: the old state of POWER_CHANGED is a free value. Whether the
boot anneal passes is a free value too (log 38). -/
def execBootStartDone (s : State) : Host.Outcome State Fault Refusal :=
  if s.boot.state = .starting then
    if fld idDw 8 8 = 0xB0 then
      let b := { s.boot with fwVersion := imageDw s 2, imgRollback := fld (imageDw s 3) 0 8
                             keySlot := fld (imageDw s 1) 16 8 }
      let (s0, outcome) := drawFree { s with boot := b, pwr := { s.pwr with state := .parked } }
      let (s2, old) := drawFree (setBoot (bootAnneal s0 (outcome % 2 == 0)) .running 0)
      let s3 := raise s2 0x0A01 (it (old : Nat) ++ it (powerCode .parked : Nat))
      let s4 := if s.pins.ceaseN || s.cease.inForce then sendCease s3 0 else s3
      .next (refuseRole (dropBoundary (lanesWait s4)))
    else .next (setBoot s .refused 4)
  else .next s

/-- FW_RELOAD is in Memory.lean; a firmware fault makes STATE RELOAD_REQUIRED with cause 7 (R305, R382). There the debug level is
CLOSED, as R444 has it of every STATE but RUNNING. DEDUCED (log 181): no DEBUG_LEVEL event has a cause for it, and none is raised. -/
def bootReload (s : State) : State := setBoot { s with sec := { s.sec with debug := .closed } } .reloadRequired 7

/-! The direct register window (R380). -/

/-- Master position in pair coordinates (R284). -/
def masterPos (s : State) : Int :=
  match s.encs[0]? with
  | some e => wrapS 64 (e.pos + e.offset)
  | none => 0

/-- CHIP_STATUS (R381): the fields Finbuly sets read 0 until it has run, and stand in RELOAD_REQUIRED. -/
def chipStatus (s : State) : Nat :=
  let fw := if hasRun s then
      powerCode s.pwr.state * 2 ^ 28 + pairCode s.par.state * 2 ^ 26 + lifecycle s * 2 ^ 24 + debugCode s.sec.debug * 2 ^ 22
      + (if s.job.isSome then 2 ^ 21 else 0) + (if s.mem.ready then 2 ^ 17 else 0)
    else if s.par.state = .failed then 3 * 2 ^ 26 else 0
  fw + (if s.pins.ceaseN then 2 ^ 20 else 0) + (if s.pins.ceaseAck then 2 ^ 19 else 0)
    + (if s.cease.inForce then 2 ^ 18 else 0) + (if s.pins.roleSel then 2 ^ 16 else 0)

/-- BOOT_STATUS (R382). -/
def bootStatus (s : State) : Nat := bootCode s.boot.state * 2 ^ 28 + s.boot.cause * 2 ^ 16

/-- QCH_STATUS (R455). -/
def qchStatus (s : State) : Nat :=
  (if s.quench.armed then 2 ^ 31 else 0) + (if s.quench.valid then 2 ^ 30 else 0) + s.quench.sources * 2 ^ 26
  + (if s.quench.ceaseSent then 2 ^ 25 else 0) + s.quench.qseq

/-- The QCH window: the header of R455 from the quench block, the rest from the latched snapshot. -/
def qchRead (s : State) (off : Nat) : Dword :=
  match off with
  | 0x80000 => BitVec.ofNat 32 (qchStatus s)
  | 0x80004 => BitVec.ofNat 32 (s.quench.tqSec / 2 ^ 32)
  | 0x80008 => BitVec.ofNat 32 s.quench.tqSec
  | 0x8000C => BitVec.ofNat 32 s.quench.tqNsec
  | 0x80010 => BitVec.ofNat 32 s.quench.evCode
  | 0x80014 => BitVec.ofNat 32 s.quench.evSeq
  | _ => mapGet 0 s.quench.window (off / 4)

/-- A dword read of BAR0 once Finbuly has run (R380). -/
def bar0Running (s : State) (off : Nat) : Dword :=
  match off with
  | 0x000C => s.boot.fwVersion
  | 0x0010 => BitVec.ofNat 32 (chipStatus s)
  | 0x0100 => if s.mbx.enable then BitVec.ofNat 32 (2 ^ 31) else 0
  | 0x0104 => BitVec.ofNat 32 s.mbx.sqTail
  | 0x0108 => BitVec.ofNat 32 s.mbx.sqHead
  | 0x010C => BitVec.ofNat 32 s.mbx.cqHead
  | 0x0110 => BitVec.ofNat 32 s.mbx.inFlight.length
  | 0x0118 => BitVec.ofNat 32 s.mbx.cqBase.toNat
  | 0x011C => BitVec.ofNat 32 (s.mbx.cqBase.toNat / 2 ^ 32)
  | 0x1000 => BitVec.ofNat 32 (unsignedOf 64 (lineCounter s))
  | 0x1004 => BitVec.ofNat 32 (unsignedOf 64 (lineCounter s) / 2 ^ 32)
  | 0x1008 => BitVec.ofNat 32 (unsignedOf 64 (masterPos s))
  | 0x100C => BitVec.ofNat 32 (unsignedOf 64 (masterPos s) / 2 ^ 32)
  | 0x1010 => BitVec.ofInt 32 (estimate s)
  | 0x1100 => BitVec.ofNat 32 s.time.nsec
  | 0x1104 => BitVec.ofNat 32 s.time.latched
  | 0x1108 => BitVec.ofNat 32 (s.time.latched / 2 ^ 32)
  | 0x1200 => BitVec.ofNat 32 s.par.epoch
  | _ => if 0x80000 ≤ off then qchRead s off else 0

/-- A dword read of BAR0 (R380): before RUNNING only the registers hardware owns respond. A read of TIM_NSEC latches SEC,
which `latchTime` does. -/
def bar0Read (s : State) (off : Nat) : Dword :=
  if off = 0 then idDw
  else if off = 4 then BitVec.ofNat 32 (bootStatus s)
  else if off = 0x14 then s.mbx.scratch
  else if 0x2000 ≤ off ∧ off ≤ 0x21FF then mapGet 0 s.mbx.msix ((off - 0x2000) / 4)
  else if off = 0x3000 then s.mbx.pba
  else if hasRun s then bar0Running s off else 0

/-- SEC latched into TIM_SEC_LO and TIM_SEC_HI by a read of TIM_NSEC (R380). -/
def latchTime (s : State) : State :=
  if hasRun s then { s with time := { s.time with latched := s.time.sec } } else s

/-- TIM_NSEC_READ (R380). -/
def execTimNsecRead (s : State) : Host.Outcome State Fault Refusal := .next (latchTime s)

/-- A write of dword `k` of the MSI-X table: a vector that becomes unmasked with its pending bit set is sent (R382). -/
def writeMsix (s : State) (k : Nat) (v : Dword) : State :=
  let s1 := { s with mbx := { s.mbx with msix := mapSet 0 s.mbx.msix k v } }
  let vec := k / 4
  if s1.mbx.pba.getLsbD vec && !vectorMasked s1 vec then
    sendVector { s1 with mbx := { s1.mbx with pba := s1.mbx.pba &&& ~~~(BitVec.ofNat 32 (2 ^ vec)) } } vec
  else s1

/-- A write of MBX_CQ_HEAD: the host has read the completions before it (R385). -/
def writeCqHead (s : State) (v : Dword) : State :=
  let h := v.toNat % 256
  let freed := (h + 256 - s.mbx.cqHead) % 256
  { s with mbx := { s.mbx with cqHead := h, cqUnread := s.mbx.cqUnread - freed } }

/-- A write of one half of MBX_CQ_BASE; bits [5:0] read 0 (R380). -/
def writeCqBase (s : State) (hi : Bool) (v : Dword) : State :=
  let old := s.mbx.cqBase.toNat
  let new := if hi then v.toNat * 2 ^ 32 + old % 2 ^ 32 else old / 2 ^ 32 * 2 ^ 32 + v.toNat / 64 * 64
  { s with mbx := { s.mbx with cqBase := BitVec.ofNat 64 new } }

/-- A write of a direct register with no behaviour of its own (R380). -/
def writePlain (s : State) (off : Nat) (v : Dword) : State :=
  if off % 4 ≠ 0 ∨ s.pins.resetHeld then s
  else if off = 0x14 then { s with mbx := { s.mbx with scratch := v } }
  else if 0x2000 ≤ off ∧ off ≤ 0x21FF then writeMsix s ((off - 0x2000) / 4) v
  else if !hasRun s then s
  else if off = 0x10C then writeCqHead s v
  else if off = 0x118 then writeCqBase s false v
  else if off = 0x11C then writeCqBase s true v
  else s

/-- REGISTER_WRITE (R380): registers that are RO or not listed ignore it. -/
def execRegisterWrite (offset : Nat) (value : Dword) (s : State) : Host.Outcome State Fault Refusal :=
  .next (writePlain s offset value)

/-! The rings (R385 to R388). -/

/-- ENABLE written as 1: the ring indices and the expected PHASE reset, only while RUNNING with nothing in flight (R388). -/
def mbxEnable (s : State) : State :=
  if bootRunning s ∧ s.mbx.inFlight = [] then
    { s with mbx := { s.mbx with enable := true, sqTail := 0, sqHead := 0, cqHead := 0, cqIndex := 0, cqUnread := 0
                                 phase := true } }
  else s

/-- MBX_ENABLE (R388). -/
def execMbxEnable (s : State) : Host.Outcome State Fault Refusal := .next (mbxEnable s)

/-- ENABLE written as 0 stops fetching (R388). -/
def mbxDisable (s : State) : State := if hasRun s then { s with mbx := { s.mbx with enable := false } } else s

/-- MBX_DISABLE (R388). -/
def execMbxDisable (s : State) : Host.Outcome State Fault Refusal := .next (mbxDisable s)

/-- One ring entry stored by the host. -/
def storeRing (ring : List RingSlot) (w : RingStore) : List RingSlot :=
  let slot : RingSlot := { index := w.index % 256, entry := w.entry, latch := .syncing, epoch := 0, seen := 0 }
  (ring.filter fun x => x.index != w.index % 256) ++ [slot]

/-- A write of MBX_SQ_TAIL: the entries from the old tail to the new one become visible with the pair state and epoch
latched now (R266, R386). -/
def writeTail (s : State) (v : Dword) : State :=
  let new := v.toNat % 256
  let n := (new + 256 - s.mbx.sqTail) % 256
  let made := (List.range n).map fun i => (s.mbx.sqTail + i) % 256
  let entryOf := fun (i : Nat) => match s.mbx.ring.find? fun x => x.index == i with
    | some x => x.entry
    | none => { words := List.replicate 16 0 }
  let slots := made.map fun i =>
    RingSlot.mk i (entryOf i) s.par.state (BitVec.ofNat 32 s.par.epoch) s.sec.nonces
  let rest := s.mbx.ring.filter fun x => !made.contains x.index
  { s with mbx := { s.mbx with sqTail := new, ring := rest ++ slots } }

/-- Stores of the host to its own memory. -/
def hostStores (s : State) (cells : List Host.Cell) : State :=
  { s with host := { s.host with bytes := mapSetAll 0 s.host.bytes cells } }

/-- A dword read of BAR2 (R383 to R385): in RUNNING the submission ring, 0 elsewhere; before, the image area holds what was written
through BAR2 (R438), 0 where nothing was. DESIGN CHOICE (log 183): it reads so too. -/
def bar2Read (s : State) (off : Nat) : Dword :=
  if bootRunning s then
    if 0x00F00000 ≤ off ∧ off ≤ 0x00F03FFF then
      match s.mbx.ring.find? fun x => x.index == (off - 0x00F00000) / 64 with
      | some x => x.entry.words.getD ((off - 0x00F00000) % 64 / 4) 0
      | none => 0
    else 0
  else if off < 0x00F00000 ∧ !hasRun s then imageDw s (off / 4) else 0

/-- DOORBELL (R386): the host stored `stores` in its memory and `ring` in the submission ring, then wrote the tail. The
ring is there in RUNNING (R384); the tail responds once Finbuly has run (R380, log 170). -/
def execDoorbell (tail : Dword) (ring : List RingStore) (stores : List Host.Cell) (s : State) :
    Host.Outcome State Fault Refusal :=
  let s1 := hostStores s stores
  let s2 := if bootRunning s1 then { s1 with mbx := { s1.mbx with ring := ring.foldl storeRing s1.mbx.ring } } else s1
  .next (if hasRun s2 then writeTail s2 tail else s2)

/-- Finbuly may fetch: RUNNING and enabled, an entry waiting, fewer than 64 in flight and more free completion entries
than commands in flight (R387); in SAVE, or while the processor is halted (R441), it fetches nothing (R414). -/
def mayFetch (s : State) : Bool :=
  bootRunning s && s.mbx.enable && s.mbx.sqHead != s.mbx.sqTail && decide (s.mbx.inFlight.length < 64) &&
  decide (s.mbx.inFlight.length < 256 - s.mbx.cqUnread) && s.pwr.state != .save && s.pwr.state != .off &&
  !s.sec.halted

/-- COMMAND_FETCH (R387): the entry at MBX_SQ_HEAD is copied whole and is in flight. -/
def execCommandFetch (s : State) : Host.Outcome State Fault Refusal :=
  if mayFetch s then
    match s.mbx.ring.find? fun x => x.index == s.mbx.sqHead with
    | some x =>
      let r : InFlight := { entry := x.entry, latch := x.latch, epoch := x.epoch, seen := x.seen, committed := false, discard := false
                            note := [] }
      .next { s with mbx := { s.mbx with sqHead := (s.mbx.sqHead + 1) % 256, inFlight := s.mbx.inFlight ++ [r] } }
    | none => .next s
  else .next s

/-- UNKNOWN_OPCODE (R393): an entry whose opcode no table lists completes with UNKNOWN_OPCODE. -/
def execUnknownOpcode (e : Entry) (s : State) : Host.Outcome State Fault Refusal :=
  if assigned (opcodeOf e) then .next s
  else match commitRecord s e with
    | none => .next s
    | some r => .next (finish s r (if r.latch = .failed then stState else stUnknownOpcode) [])

/-- HEALTH_PULSE (R260): the pulse that begins carries the high time of READY or NOT_READY; none begins in FAILED, SAVE,
OFF or reset. -/
def execHealthPulse (s : State) : Host.Outcome State Fault Refusal :=
  if s.par.state = .failed ∨ s.pwr.state = .save ∨ s.pwr.state = .off ∨ s.pins.resetHeld then
    .next { s with pins := { s.pins with healthHigh := false } }
  else
    .next (emit { s with pins := { s.pins with healthHigh := true } } (.health s.pins.healthReady))

/-- Write of any BAR0 register, as the host's write to it (R380, R441). -/
def bar0Write (s : State) (off : Nat) (v : Dword) : State :=
  if off = 0x8 then writeBootCtrl s v
  else if off = 0x18 then writeChipReset s v
  else if off = 0x100 then (if bitOf v 31 then mbxEnable s else mbxDisable s)
  else if off = 0x104 then (if hasRun s then writeTail s v else s)
  else writePlain s off v

end Sys2Proof.Machine
end

