-- ==== Sys2Proof/Machine/Records.lean ====
section
/-! DEFINITION. The axis record (R355), the loop record (R356), page state codes (R399) and servo codes (R404): the forms
in which commands, messages, images and the snapshot show the state. -/

namespace Sys2Proof.Machine

/-- Axis state codes (R325). -/
def axisCode : AxisState → Nat
  | .disabled => 0 | .idle => 1 | .moving => 2 | .table => 3 | .homing => 4 | .velocity => 5 | .follower => 6
  | .stalled => 7

/-- Loop mode codes (R350, R404): 0 OFF, 1 MANUAL, 2 AUTO; FAULTED is 3. -/
def loopCode : LoopMode → Nat
  | .off => 0 | .manual => 1 | .auto => 2 | .faulted => 3

/-- Page state codes (R399). -/
def pageCode : PageState → Nat
  | .loading => 0 | .loaded => 1 | .admitted => 2 | .printing => 3 | .done => 4 | .aborted => 5

/-- Servo state codes (R404, R487). -/
def servoCode : ServoState → Nat
  | .free => 0 | .acquiring => 1 | .locked => 2 | .holdover => 3

/-- Following error in 1/65,536 step; 0 without feedback (R323). -/
def feFine (a : Axis) : Int := if a.cfg.fbCh = 15 then 0 else wrapS 64 (a.pos - (a.fb + a.fbOffset))

/-- Following error in whole steps (R348, R355). -/
def feOf (a : Axis) : Int := (feFine a).tdiv 65536

/-- The seven words of an axis record (R355). -/
def axisRecord (s : State) (i : Nat) : List Qword :=
  let a := axisAt s i
  let hph := match a.homing with | some h => h.phase | none => 0
  let inTable := a.state == .table
  let w0 := i * 2 ^ 61 + axisCode a.state * 2 ^ 57 + (if a.homed then 2 ^ 56 else 0) + (if a.vlimEn then 2 ^ 55 else 0)
    + hph * 2 ^ 52 + (if inTable then a.tslot * 2 ^ 48 else 0) + a.cur % 2 ^ 16 * 2 ^ 32 + a.kfact % 2 ^ 16 * 2 ^ 16
    + (if inTable then a.tRepeat % 2 ^ 16 else 0)
  [BitVec.ofNat 64 w0, sq a.pos, halves (unsignedOf 32 (a.vel / 256)) (unsignedOf 32 (a.acc / 65536)),
   (if inTable then BitVec.ofNat 64 (a.ttime * 1000 / 4096) else sq a.target), halves a.vmax a.amax, halves a.dmax a.jmax,
   halves (unsignedOf 32 (feOf a)) 0]

/-- The three words of a loop record (R356). -/
def loopRecord (s : State) (k : Nat) : List Qword :=
  let l := loopAt s k
  [halves (k * 2 ^ 27 + loopCode l.mode * 2 ^ 25 + l.ovr % 4 * 2 ^ 23) (unsignedOf 32 l.sp), sq l.integ,
   halves (unsignedOf 32 l.outWritten) 0]

/-- The dwords of qwords, low dword first. -/
def qdws (ws : List Qword) : List Dword := ws.flatMap fun w => dwordsOf w.toNat

/-- The current map generation number: the newest whose boundary the line counter has reached; 0 before any. -/
def genInForce (s : State) (n : Int) : Nat :=
  (s.map.gens.foldl (fun (acc : Nat) g =>
    match g.boundary with
    | some b => if b ≤ n then g.number else acc
    | none => acc) 0)

/-- Counter numbers in catalogue order (R462). -/
def allCounters : List Nat :=
  (List.range 12).flatMap fun g =>
    ((List.range 815).map fun i => cnum (g + 1) i).filter fun k => counterWidth k != 0

/-- A log entry's 16 dwords (R459). -/
def eventDws (ev : Event) : List Dword :=
  let b := fun (c : Bool) (v : Nat) => if c then v else 0
  let d0 := ev.code * 2 ^ 16 + b ev.lost (2 ^ 15) + b ev.cont (2 ^ 14) + b (Config.eventFromHw ev.code) (2 ^ 13)
    + b ev.poison (2 ^ 12) + ev.payload.length
  [BitVec.ofNat 32 d0, BitVec.ofNat 32 ev.seq, BitVec.ofNat 32 (ev.sec / 2 ^ 32 * 2 ^ 16), BitVec.ofNat 32 ev.sec,
   BitVec.ofNat 32 ev.nsec, BitVec.ofNat 32 ev.lineLo] ++ (List.range 10).map fun i => ev.payload.getD i 0

/-- A cullet entry's 8 dwords (R314): word 0 with KIND, LOST, POISON and COUNT, the place, the address, SEQ and time. -/
def culletDws (c : Cullet) : List Dword :=
  let b := fun (x : Bool) (v : Nat) => if x then v else 0
  [BitVec.ofNat 32 (c.kind * 2 ^ 24 + b c.lost (2 ^ 23) + b c.poison (2 ^ 22) + c.count % 2 ^ 16), c.place] ++
  dwordsOf c.addr ++ [BitVec.ofNat 32 c.seq, BitVec.ofNat 32 (c.sec / 2 ^ 32 % 2 ^ 16 * 2 ^ 16), BitVec.ofNat 32 c.nsec,
  BitVec.ofNat 32 c.sec]

end Sys2Proof.Machine
end

