-- ==== Sys2Proof/Machine/MapOps.lean ====
section
/-! DEFINITION. Health-map generations: their images, their words to modules and to the servitor, and their formation
(R115 to R119, R122, R205, R268, R304). -/

namespace Sys2Proof.Machine

/-- Ejectors of one module (R118). -/
abbrev moduleEjectors : Nat := 798720

/-- Clusters of one module. -/
abbrev moduleClusters : Nat := 66560

/-- The dword of cluster `x`, counted over the bar, under an ejector code map (R115). -/
def clusterDw (codes : Sparse Nat) (x : Nat) : Dword :=
  BitVec.ofNat 32 ((List.range 12).foldl (fun a i => a + mapGet 0 codes (12 * x + i) % 4 * 4 ^ i) 0)

/-- The cluster dwords of module `m` (R115). -/
def moduleImage (codes : Sparse Nat) (m : Nat) : List Dword :=
  (List.range moduleClusters).map fun i => clusterDw codes (moduleClusters * m + i)

/-- The newest generation that is not pending: the one in force where nothing is (R119). -/
def settledGen (s : State) : Option Gen := (s.map.gens.filter fun g => s.map.pending != some g.number).getLast?

/-- Its ejector codes; none before the first generation. -/
def settledCodes (s : State) : Sparse Nat := match settledGen s with | some g => g.codes | none => []

/-- The number after `g` (R117): 0 is never used. -/
def nextGen (s : State) : Nat :=
  match newestGen s with
  | none => 1
  | some g => if g.number + 1 = 2 ^ 32 then 1 else g.number + 1

/-! Words to a module (R205). -/

/-- MAPCL for cluster `i` of module `m`. -/
def mapclWord (codes : Sparse Nat) (m i : Nat) : Qword :=
  ctrlWord 0x50 [(54, i / pcols), (39, i % pcols), (15, (clusterDw codes (moduleClusters * m + i)).toNat % 2 ^ 24)]

/-- MAPEJ words for a module's changed ejectors, two to a word. -/
def mapejWords : List (Nat × Nat) → List Qword
  | [] => []
  | [a] =>
    let x := a.1 % moduleEjectors
    [ctrlWord 0x51 [(54, x / 12 / pcols), (39, x / 12 % pcols), (35, x % 12), (33, a.2)]]
  | a :: b :: rest =>
    let x := a.1 % moduleEjectors
    let y := b.1 % moduleEjectors
    ctrlWord 0x51 [(54, x / 12 / pcols), (39, x / 12 % pcols), (35, x % 12), (33, a.2), (32, 1), (30, y / 12 / pcols),
                   (15, y / 12 % pcols), (11, y % 12), (9, b.2)] :: mapejWords rest

/-- The entry words of a generation for module `m`: a full image, or what a delta changes there. -/
def genModuleWords (g : Gen) (full : Bool) (m : Nat) : List Qword :=
  if full then (List.range moduleClusters).map (mapclWord g.codes m)
  else mapejWords (g.delta.filter fun e => e.1 / moduleEjectors == m)

/-- A generation goes to module `m`: MAPBEGIN, entries, MAPEND with MCRC (R205). -/
def sendGenTo (s : State) (g : Gen) (full : Bool) (m : Nat) : State :=
  let words := ctrlWord 0x44 [(55, if full then 1 else 0), (16, g.number)] :: genModuleWords g full m ++
    [ctrlWord 0x45 [(24, crc32d (moduleImage g.codes m))]]
  emitAll s (words.map fun w => .ctrl m w)

/-! Words to the servitor (R268). -/

/-- The packed address of an ejector ordinal (R37). -/
def packedOf (ord : Nat) : Nat :=
  ord / moduleEjectors * 2 ^ 26 + ord / 199680 % 4 * 2 ^ 24 + ord / 12 % pcols * 2 ^ 8 + ord % 12 * 2 ^ 4

/-- The entry words of a GEN message: R116 entries, or cluster dwords two to a word. -/
def genEntryWords (g : Gen) (full : Bool) : List Qword :=
  if full then
    (List.range (20 * moduleClusters)).map fun i =>
      halves (clusterDw g.codes (2 * i)).toNat (clusterDw g.codes (2 * i + 1)).toNat
  else g.delta.map fun e => halves (packedOf e.1) e.2

/-- n_g of a GEN message: −2⁶³ for no boundary. -/
def genLine (g : Gen) : Qword := sq (g.boundary.getD minI64)

/-- The parts of a GEN message, at most 65,533 entry words each; FIRST counts entries. -/
def genParts (s : State) (g : Gen) (full : Bool) : Nat → Nat → List Qword → State
  | 0, _, _ => s
  | fuel + 1, first, ws =>
    let part := ws.take 65533
    let rest := ws.drop 65533
    let w0 := halves g.number ((if full then 2 ^ 31 else 0) + (if rest.isEmpty then 2 ^ 30 else 0) + first)
    let s1 := tellServitor s 1 (w0 :: genLine g :: part)
    if rest.isEmpty then s1 else genParts s1 g full fuel (first + (if full then 2 else 1) * part.length) rest

/-- GEN: the generation in parts. -/
def tellGen (s : State) (g : Gen) (full : Bool) : State :=
  let ws := genEntryWords g full
  genParts s g full (ws.length / 65533 + 1) 0 ws

/-! Formation (R117, R118). -/

/-- The modules that take a new generation: those joined, and those whose map is being settled (R118, R206). -/
def mapTakers (s : State) : List Nat :=
  (List.range 40).filter fun g => (groupAt s g).joined || (groupAt s g).step == 4

/-- A generation joins the list, pending, and goes to every module that takes it and to the servitor. -/
def addGen (s : State) (g : Gen) : State :=
  let s1 := { s with map := { s.map with gens := s.map.gens ++ [g], pending := some g.number } }
  tellGen ((mapTakers s1).foldl (fun t m => sendGenTo t g g.full m) s1) g g.full

/-- The ejectors that module reports name and that are not yet excluded by one: they take code 3 in the next generation
formed, whatever forms it (R123). -/
def reportChanges (s : State) : List (Nat × Nat) :=
  (s.map.reports.filter fun x => mapGet 0 (settledCodes s) x != 3).map fun x => (x, 3)

/-- No module report waits any longer. -/
def dropReports (s : State) : State := { s with map := { s.map with reports := [] } }

/-- The boundary a generation of span `e` takes: none while no job is open; else the line asked for, 0 asking for the
earliest (R118). -/
def boundaryFor (s : State) (e : Nat) (asked : Int) : Option Int :=
  if s.job.isNone then none else some (if asked = 0 then earliestBoundary s e else asked)

/-- A delta over the newest codes, or a full image of `codes` (R116, R117). -/
def newGen (s : State) (full : Bool) (codes : Sparse Nat) (delta : List (Nat × Nat)) (asked : Int) : Gen :=
  let g : Gen := { number := nextGen s, boundary := none, full := full, codes := codes, delta := delta }
  { g with boundary := boundaryFor s (genSpan g) asked }

/-! Poisoned clusters (R304). -/

/-- Module-plane `k` still reads poisoned map entries for web line `n`: no generation that rewrites them is in force. -/
def mapPoisoned (s : State) (k : Nat) (n : Int) : Bool :=
  s.map.poisoned.any fun x => x.1 == k &&
    !s.map.poisonFix.any fun f => f.1 == k && match s.map.gens.find? fun g => g.number == f.2 with
      | some g => (match g.boundary with | some b => decide (b ≤ n) | none => false)
      | none => false

/-- The poisoned clusters that no generation formed rewrites. -/
def unfixedPoison (s : State) : List (Nat × Nat) :=
  s.map.poisoned.filter fun x => !s.map.poisonFix.any fun f => f.1 == x.1

/-- The ejector changes that rewrite poisoned clusters: code 3 throughout. -/
def poisonChanges (xs : List (Nat × Nat)) : List (Nat × Nat) :=
  xs.flatMap fun x => (List.range 12).map fun i => ((x.1 * pcols + x.2) * 12 + i, 3)

/-- The module-planes of a change list. -/
def changePlanes (xs : List (Nat × Nat)) : List Nat := (xs.map Prod.fst).dedup

/-- MAP_POISON and the due set for each repaired module-plane; the generation that repairs it is noted. -/
def reportPoison (s : State) (number : Nat) (xs : List (Nat × Nat)) : State :=
  (changePlanes xs).foldl (fun t k =>
    let cl := (xs.filter fun x => x.1 == k).map Prod.snd
    let t1 := addDue { t with map := { t.map with poisonFix := t.map.poisonFix ++ [(k, number)] } } (planeOf (k / 4) (k % 4))
    raise t1 0x0706 (it (k / 4 : Nat) ++ it (k % 4 : Nat) ++ it cl.length)) s

/-! Joins and reports (R122, R123). -/

/-- What a new touchmark changes in a module's codes: 3 for its exclusion list, 0 for every other ejector (R122). -/
def joinChanges (codes : Sparse Nat) (m : Nat) (excl : List Nat) : List (Nat × Nat) :=
  ((codes.filter fun e => e.1 / moduleEjectors == m && !excl.contains e.1).map fun e => (e.1, 0)) ++ excl.map fun x => (x, 3)

/-- Generation `g` makes a touchmark's change: the exclusions it lists have code 3, and a delta leaves the module's other codes at 0
but for those it sets itself. -/
def joinMet (g : Gen) (j : Nat × List Nat) : Bool :=
  j.2.all (fun x => mapGet 0 g.codes x == 3) && (g.full ||
    (g.codes.filter fun e => e.1 / moduleEjectors == j.1 && !j.2.contains e.1).all fun e => (assoc g.delta e.1).isSome)

/-- A module's touchmark change waits for a generation (R122). In a servitor the gaffer's generation makes it; it waits here only while
no generation received does, for the chip to form it should it become the gaffer first (DEDUCED, log 176). -/
def queueJoin (s : State) (j : Nat × List Nat) : State :=
  let rest := s.map.joins.filter fun x => x.1 != j.1
  let met := servitor s && s.map.gens.any fun g => joinMet g j
  { s with map := { s.map with joins := if met then rest else rest ++ [j] } }

/-- Changes that leave a code as it stands are no changes. -/
def realChanges (codes : Sparse Nat) (xs : List (Nat × Nat)) : List (Nat × Nat) :=
  let merged := mapSetAll 4 [] xs
  merged.filter fun e => mapGet 0 codes e.1 != e.2

/-- The planes in use of module `m`'s rank enter the due set (R243). -/
def rankDue (s : State) (m : Nat) : State :=
  ((List.range 4).map fun q => planeOf m q).foldl (fun t p => if (planesInUse t).contains p then addDue t p else t) s

end Sys2Proof.Machine
end

