-- ==== Sys2Proof/Machine/Scheduler.lean ====
section
/-! DEFINITION. The cluster scheduler and the health-map commands: REFILL, thinning, the Cluster Assignment Rule, release,
generations, overspeed (R111 to R147, R199, R396, R401). -/

namespace Sys2Proof.Machine

/-! REFILL (R124, R125). -/

/-- REFILL of R124 for a module of `fmax`, and whether it was capped. -/
def refillFor (s : State) (rho fmax : Nat) : Nat × Bool :=
  let a := match s.job with | some j => j.accelMax | none => 0
  let need := 256 * (rho * rho + 2 * a * refillSpan s)
  match (List.range 63).find? fun i => decide (need ≤ (17 * (i + 1) * fmax) * (17 * (i + 1) * fmax)) with
  | some i => (i + 1, false)
  | none => (63, true)

/-- rho as held: the estimate's magnitude in lines/s, rounded up, at most 2,097,151. -/
def rhoNow (s : State) : Nat := min 2097151 (cdiv (estimate s).natAbs 1024)

/-- The chip's own rho for tick `c`: held at its c − 8, or at the first hold after it. -/
def ownRho (s : State) (c : Int) : Option Nat :=
  match s.csc.heldRho.find? fun x => x.1 == c with
  | some x => some x.2
  | none => match s.csc.fixedTo with
    | some f => if c ≤ f then (s.csc.heldRho.find? fun x => decide (c ≤ x.1)).map Prod.snd else none
    | none => none

/-- The rho under which a record of tick `c` is scheduled now, and whether its stamp was missed (R125). -/
def rhoFor (s : State) (c : Int) : Option (Nat × Bool) :=
  if servitor s then
    match s.csc.rho.find? fun x => x.1 == c with
    | some x => some (x.2, false)
    | none => if c ≤ lineCounter s then (ownRho s c).map fun v => (v, true) else none
  else (ownRho s c).map fun v => (v, false)

/-- The generation of a record: the one in force for its web line. -/
def genNumber (s : State) (n : Int) : Nat := match genAt s n with | some g => g.number | none => 0

/-- The codes of the generation whose low 8 bits a record carries. -/
def codesBy8 (s : State) (g8 : Nat) : Sparse Nat :=
  match (s.map.gens.filter fun g => g.number % 256 == g8).getLast? with
  | some g => g.codes
  | none => []

/-- A record takes its REFILL and generation, stamped with the tick c − 8 at which they are fixed; REFILL_CAP on the first cap of
its page (R124, R127, R147). -/
def fixRecord (s : State) (r : Rec) (rho : Nat) : State :=
  let (rf, capped) := refillFor s rho (fmaxOf s r.m)
  let c := sliceDeadlineOf s (planeOf r.m r.q) r.n
  let s1 := setRec s r.m r.q r.n fun x => { x with assigned := true, refill := rf, gen8 := genNumber s r.n % 256 }
  let s2 := { s1 with csc := { s1.csc with stamped :=
    (s1.csc.stamped.filter fun x => x.2.2 != r.m || decide (lineCounter s - refillSpan s ≤ x.1)) ++ [(c - 8, rf, r.m)] } }
  match pageAt s2 r.n with
  | some p =>
    if capped then
      let (new, s3) := oncePage s2 p.id 0x0204
      raiseIf new s3 0x0204 (it r.m ++ it rho)
    else s2
  | none => s2

/-! Thinning and assignment (R129 to R135). -/

/-- Cluster `c` of module-plane `k`. -/
def clusterOf (k c : Nat) : Nat := k * pcols + c

/-- The next-free tick of row `e` (R129). -/
def nfOf (x : Csc) (k c e : Nat) : Int := mapGet (mapGet minI64 x.nfBase k) x.nf (12 * clusterOf k c + e)

/-- What one column's drop comes to: thinned, with the state it leaves, or placed on a row. -/
inductive Placed where
  | thinned (fx : Option ThinFx)
  | fired (row : Nat)
deriving DecidableEq, Repr

/-- κ of R135. -/
def dropClass (level : Nat) (n : Int) : Nat := 2 * (level - 1) + (if n % 2 = 0 then 1 else 0)

/-- The search of R131: the first row from b mod 12 that is in service and free. -/
def searchRow (codes : Sparse Nat) (x : Csc) (k c : Nat) (b : Int) : Option Nat :=
  let s0 := (b % 12).toNat
  ((List.range 12).map fun i => (s0 + i) % 12).find? fun e =>
    mapGet 0 codes (12 * clusterOf k c + e) == 0 && decide (nfOf x k c e ≤ b)

/-- R135 and R131 for one drop of an ordinary record. -/
def placeDrop (codes : Sparse Nat) (x : Csc) (r : Rec) (k c level : Nat) : Placed :=
  let cl := clusterOf k c
  let kap := dropClass level r.n
  match searchRow codes x k c r.b with
  | none => .thinned (some { cluster := cl, bf := r.b, kf := kap, armed := true })
  | some e =>
    let bf := mapGet minI64 x.bf cl
    let kf := mapGet 0 x.kf cl
    if mapGet 0 x.armed cl = 1 ∧ r.b < bf + r.refill ∧ kap < kf then
      .thinned (some { cluster := cl, bf := bf, kf := kf, armed := false })
    else .fired e

/-- R135 and R131 for one drop of a census record. -/
def placeCensus (x : Csc) (r : Rec) (k c : Nat) : Placed :=
  if r.b < nfOf x k c r.directRow then .thinned none else .fired r.directRow

/-- The seam step (R130, R135). -/
def seamStep (x : Csc) (k : Nat) (b : Int) (span : Nat) : Csc :=
  if span = 0 then x
  else
    { x with nfBase := mapSet minI64 x.nfBase k (b - 1 + span)
             nf := x.nf.filter fun e => e.1 / (12 * pcols) != k
             armed := x.armed.filter fun e => e.1 / pcols != k }

/-- A PRINT record planned against a cluster state. -/
def planRec (codes : Sparse Nat) (x : Csc) (r : Rec) : Rec :=
  let k := mp r.m r.q
  let y := seamStep x k r.b r.seam
  let out := r.levels.map fun l =>
    (l.1, if r.directRow = 15 then placeDrop codes y r k l.1 l.2 else placeCensus y r k l.1)
  { r with picks := out.filterMap fun o => match o.2 with | .fired e => some (o.1, e) | .thinned _ => none
           thin := out.filterMap fun o => match o.2 with | .thinned fx => fx | .fired _ => none }

/-- The cluster state after a planned record (R130, R131, R135). -/
def commitRec (x : Csc) (r : Rec) : Csc :=
  let k := mp r.m r.q
  let y := seamStep x k r.b r.seam
  { y with nf := mapSetAll minI64 y.nf (r.picks.map fun p => (12 * clusterOf k p.1 + p.2, r.b + r.refill))
           bf := mapSetAll minI64 y.bf (r.thin.map fun t => (t.cluster, t.bf))
           kf := mapSetAll 0 y.kf (r.thin.map fun t => (t.cluster, t.kf))
           armed := mapSetAll 0 y.armed (r.thin.map fun t => (t.cluster, if t.armed then 1 else 0)) }

/-- The records of module-plane `k` planned in order, each against the state those before it leave; the first PRINT record
is the seam where one is due. -/
def planList (s : State) (k : Nat) : Csc → Nat → List Rec → List Rec
  | _, _, [] => []
  | x, seam, r :: rs =>
    if mp r.m r.q = k ∧ r.kind = .print ∧ r.assigned then
      let p := planRec (codesBy8 s r.gen8) x { r with seam := seam }
      p :: planList s k (commitRec x p) 0 rs
    else r :: planList s k x seam rs

/-- The scheduled records of module-plane `k` are thinned and assigned (R131, R135). -/
def planPlane (s : State) (k : Nat) : State :=
  { s with slices := { s.slices with recs := planList s k s.csc (mapGet 0 s.csc.seamReq k) s.slices.recs } }

/-- Every record that can be scheduled now is: REFILL fixed, then thinned and assigned. A missed stamp marks every
module-plane (R125). -/
def scheduleReady (s : State) : State :=
  let ready := s.slices.recs.filter fun r => r.kind == .print && !r.assigned
  let (s1, ks) := ready.foldl (fun (acc : State × List Nat) r =>
    match rhoFor acc.1 (sliceDeadlineOf acc.1 (planeOf r.m r.q) r.n) with
    | some (rho, missed) =>
      let t := fixRecord acc.1 r rho
      (if missed then setAllRefillMarks t else t, acc.2 ++ [mp r.m r.q])
    | none => acc) (s, [])
  ks.dedup.foldl planPlane s1

/-- REFILL_FIX (R124, R125, R267): at the start of tick c − 8 rho is held for tick c, the gaffer sends PRHO, and the records
due are scheduled. -/
def execRefillFix (s : State) : Host.Outcome State Fault Refusal :=
  let c := lineCounter s + 8
  let done := match s.csc.fixedTo with | some f => decide (c ≤ f) | none => false
  if s.par.state = .failed ∨ done = true then .next s
  else
    let from_ := match s.csc.fixedTo with | some f => max (f + 1) (c - 63) | none => c
    let rho := rhoNow s
    let ticks := (List.range (c + 1 - from_).toNat).map fun i => (from_ + (i : Nat), rho)
    let held := (s.csc.heldRho.filter fun x => decide (lineCounter s - 64 ≤ x.1)) ++ ticks
    let got := s.csc.rho.filter fun x => decide (lineCounter s - 64 ≤ x.1)
    let s1 := { s with csc := { s.csc with heldRho := held, rho := got, fixedTo := some c } }
    let s2 := if isGaffer s && s.par.linkRun then
        emitAll s1 (ticks.map fun x => .partner (ctrlWord 0xA2 [(40, unsignedOf 16 x.1), (8, x.2)]))
      else s1
    .next (scheduleReady s2)

/-- A record of plane `plane` for web line `n` prints the page: it is ADMITTED or PRINTING, or was cut after that line of that
plane (R80, R87). -/
def printsLine (p : Page) (plane : Nat) (n : Int) : Bool :=
  pageActive p || (p.state == .aborted && p.cut && p.holds && !cutAt p.cuts plane n)

/-- RECORD_COMPLETE (R85, R86, R88, R89, R124): the slice's next record of a web line that a page still prints, begun no earlier
than 32 line ticks before its slice deadline; the scheduler takes it at once where its rho is held. -/
def execRecordComplete (m q : Nat) (n : Int) (s : State) : Host.Outcome State Fault Refusal :=
  let d := sliceDeadlineOf s (planeOf m q) n
  if planeRuns s m q && produces s n && sliceTurn s m q n && decide (d - 32 ≤ lineCounter s ∧ lineCounter s ≤ d) then
    match pageAt s n with
    | some p =>
      match p.n0 with
      | some n0 => .next (if printsLine p (planeOf m q) n then scheduleReady (printRecord s p n0 m q n) else s)
      | none => .next s
    | none => .next s
  else .next s

/-- SCHED_LATE (R134): a record not scheduled by its delivery deadline. -/
def execSchedLate (m q : Nat) (n : Int) (s : State) : Host.Outcome State Fault Refusal :=
  match recAt s m q n with
  | some r =>
    if r.kind = .print ∧ ¬ r.assigned ∧ deliveryDeadline s (planeOf m q) n ≤ lineCounter s then
      .next (count (makeLate s m q n) (cnum 2 48))
    else .next s
  | none => .next s

/-! Release (R199, R79, R133, R137, R141 to R143, R175). -/

/-- The records of module-plane `k` in the replay buffer. -/
def replayCount (s : State) (k : Nat) : Nat := (s.dxl.replay.filter fun r => mp r.m r.q == k).length

/-- The release conditions of R199, R120 and R124. -/
def mayRelease (s : State) (r : Rec) : Bool :=
  let p := planeOf r.m r.q
  let d := deliveryDeadline s p r.n
  r.assigned && (groupAt s r.m).joined && produces s r.n && decide (d - 32 ≤ lineCounter s) &&
  decide (replayCount s (mp r.m r.q) < 48) &&
  (if r.kind = .print then decide (d - 1 - 8 ≤ lineCounter s) && (mapWaits s r.m r.n).isNone
   else decide (d - 1 ≤ lineCounter s))

/-- Columns of a planned record whose drop is thinned, with their levels. -/
def thinnedOf (r : Rec) : List (Nat × Nat) := r.levels.filter fun l => !r.picks.any fun p => p.1 == l.1

/-- The count of one thinned drop (R146). -/
def countThin (r : Rec) (s : State) (l : Nat × Nat) : State :=
  if r.directRow ≠ 15 then count s (cnum 2 45)
  else
    let forced := r.thin.any fun t => t.cluster == clusterOf (mp r.m r.q) l.1 && t.armed
    let s1 := count s (cnum 2 (if forced then 0 else 1))
    count (count s1 (cnum 2 (1 + l.2))) (cnum 2 (5 + r.m))

/-- Every thinned drop is counted and marked; THINNING on the first of its page (R137). It is done as the record is released,
when R133 makes its plan the cluster's state: a drop planned to be thinned in a record that then goes LATE is reported with
the late line, and not counted as thinned (DESIGN CHOICE, log 137). -/
def reportThin (s : State) (r : Rec) : State :=
  let ts := thinnedOf r
  let p := planeOf r.m r.q
  let s1 := ts.foldl (fun t l =>
    let x : Int := 16384 * ((r.m % 10 : Nat) : Int) + (l.1 : Int) - 128
    markArea (countThin r t l) p x x r.n r.n) s
  match pageAt s1 r.n with
  | some pg =>
    if ts.isEmpty then s1
    else
      let (new, s2) := oncePage s1 pg.id 0x0201
      raiseIf new s2 0x0201 ([pg.id] ++ it r.m ++ it r.q ++ itq r.n)
  | none => s1

/-- The rows of a record whose φ is clamped, counted (R172, R175). -/
def countClamps (s : State) (r : Rec) : State :=
  let top := 256 * (jobS s : Int) - 1
  let k := (List.range 12).countP fun i =>
    let raw := phaseRaw s r.m r.q i r.n
    decide (raw < 0 ∨ top < raw)
  if k = 0 then s else countN s (cnum 3 31) k

/-- A seam leaves: SEAM, its request is met, and the out-of-step mark clears (R141, R142). -/
def reportSeam (s : State) (r : Rec) : State :=
  if r.seam = 0 then s
  else
    let k := mp r.m r.q
    let s1 := clearMark { s with csc := { s.csc with seamReq := mapErase s.csc.seamReq k
                                                     joinSeams := dropKey s.csc.joinSeams k } } k
    raise (count s1 (cnum 2 49)) 0x0207 (it r.m ++ it r.q ++ itq r.b ++ it r.seam)

/-- A released record joins the last 63 of its module-plane, with its REFILL or, blank, with 0 (R142). -/
def noteRefill (s : State) (r : Rec) : State :=
  let k := mp r.m r.q
  let list := (r.refill :: refillsOf s k).take 63
  { s with csc := { s.csc with refills := (s.csc.refills.filter fun x => x.1 != k) ++ [(k, list)] } }

/-- The run of records without a drop that clears an out-of-step mark (R141). -/
def noteDrops (s : State) (r : Rec) (drops : Bool) : State :=
  let k := mp r.m r.q
  if s.csc.marks.contains k then
    let run := if drops ∨ r.kind = .late ∨ r.deadDrops then 0 else mapGet 0 s.csc.cleanRuns k + 1
    if run = 64 then clearMark s k
    else { s with csc := { s.csc with cleanRuns := mapSet 0 s.csc.cleanRuns k run } }
  else s

/-- What a PRINT record does as it leaves: its plan becomes the cluster state (R133). -/
def releasePrint (s : State) (r : Rec) : State := reportSeam (reportThin { s with csc := commitRec s.csc r } r) r

/-- An ADMITTED page whose first frame is sent is PRINTING (R79). -/
def beginPrinting (s : State) (n : Int) : State :=
  match pageAt s n with
  | some p => if p.state = .admitted then setPage s p.id fun x => { x with state := .printing } else s
  | none => s

/-- The record goes out: numbered, sent, kept for replay (R197, R201). -/
def transmit (s : State) (r : Rec) : State :=
  let k := mp r.m r.q
  let released := r.levels.filter fun l => r.picks.any fun p => p.1 == l.1
  let out := { r with levels := released, rseq := mapGet 0 s.dxl.rseq k, resync := s.dxl.resync.contains k }
  let s1 := sendRec s out
  let dxl := { s1.dxl with replay := s1.dxl.replay ++ [out], rseq := mapSet 0 s1.dxl.rseq k ((out.rseq + 1) % 256)
                           resync := dropKey s1.dxl.resync k, released := mapSet minI64 s1.dxl.released k r.n
                           firstLine := if mapGet minI64 s1.dxl.firstLine k = minI64 then
                             mapSet minI64 s1.dxl.firstLine k r.n else s1.dxl.firstLine }
  let recs := s1.slices.recs.filter fun x => !(x.m == r.m && x.q == r.q && x.n == r.n)
  { s1 with dxl := dxl, slices := { s1.slices with recs := recs } }

/-- The release of a record that may go. A CUT or IDLE record is no expected defect (R87). -/
def releaseRecord (s : State) (r : Rec) : State :=
  let s1 := if r.kind = .print then releasePrint s r else s
  let s2 := noteDrops (noteRefill (countClamps s1 r) r) r (!r.picks.isEmpty)
  retirePages (transmit (beginPrinting s2 r.n) r)

/-- RECORD_RELEASE (R199): the first record of module `m`'s group goes once it may. A PRINT record of a module-plane whose
map is poisoned goes LATE (R304). -/
def execRecordRelease (m : Nat) (s : State) : Host.Outcome State Fault Refusal :=
  match s.slices.recs.find? fun r => r.m == m with
  | none => .next s
  | some r0 =>
    let k := mp m r0.q
    let late := r0.kind == .print && r0.assigned && mapPoisoned s k r0.n
    let s1 := planPlane (if late then makeLate s m r0.q r0.n else s) k
    match s1.slices.recs.find? fun r => r.m == m with
    | none => .next s
    | some r => .next (if mayRelease s1 r then releaseRecord s1 r else s1)

/-- OVERSPEED (R145): after 1,000 consecutive ticks above 1.10 × C_bar, which LINE_TICK counts. -/
def execOverspeed (s : State) : Host.Outcome State Fault Refusal :=
  if s.csc.overRun < 1000 then .next s
  else .next (overspeedEnd { s with csc := { s.csc with overRun := 0 } } 2)

/-! Generations (R117 to R123, R147, R304). -/

/-- A pending generation has applied. With a boundary, while a job is open or in a servitor, that is once the line counter
reaches n_g + D_max − LEAD; with none, or while no job is open, once every joined module has acknowledged it (R118, R119,
R489). -/
def genApplied (s : State) (g : Gen) : Bool :=
  let acked := (joinedModules s).all fun m => s.map.acked.contains (m, g.number)
  match g.boundary with
  | some b =>
    if s.job.isSome || servitor s then decide (b + dMax s (planesInUse s) - leadOf s ≤ lineCounter s) else acked
  | none => !servitor s && acked

/-- A generation stops being pending: it takes any web line where it had no boundary or, formed in a job since closed, has one no
longer (R118), and the poison it rewrites is gone. -/
def settleGen (s : State) (g : Gen) : State :=
  let line := if s.job.isNone && !servitor s then minI64 else g.boundary.getD minI64
  let fixed := (s.map.poisonFix.filter fun f => f.2 == g.number).map Prod.fst
  let gens := s.map.gens.map fun x => if x.number = g.number then { x with boundary := some line } else x
  let s1 := { s with map := { s.map with pending := none, gens := gens
                                         poisoned := s.map.poisoned.filter fun x => !fixed.contains x.1
                                         poisonFix := s.map.poisonFix.filter fun f => f.2 != g.number } }
  raise s1 0x0206 (it g.number ++ itq line)

/-- MAP_APPLIED (R119, R147). -/
def execMapApplied (s : State) : Host.Outcome State Fault Refusal :=
  match s.map.pending with
  | none => .next s
  | some k =>
    match s.map.gens.find? fun g => g.number == k with
    | none => .next s
    | some g => .next (if genApplied s g then settleGen s g else s)

/-- The changes that wait for a generation: touchmarks, module reports, poisoned clusters. -/
def waitingChanges (s : State) : List (Nat × Nat) :=
  let codes := settledCodes s
  s.map.joins.flatMap (fun j => joinChanges codes j.1 j.2) ++ reportChanges s ++
  poisonChanges (unfixedPoison s)

/-- GENERATION_FORM (R117, R122, R123, R304): generation 1 once a module has joined; later ones of what waits, once nothing
is pending. -/
def execGenerationForm (s : State) : Host.Outcome State Fault Refusal :=
  let first := s.map.gens.isEmpty
  let poison := unfixedPoison s
  let waits := !s.map.joins.isEmpty || !s.map.reports.isEmpty || !poison.isEmpty
  if !forms s || s.map.pending.isSome then .next s
  else if (first && (joinedModules s).isEmpty) || (!first && !waits) then .next s
  else
    let codes := settledCodes s
    let all := waitingChanges s
    let delta := realChanges codes all
    let cleared := { s with map := { s.map with reports := [], joins := [] } }
    if !first && delta.isEmpty && poison.isEmpty && s.map.joins.isEmpty then .next cleared
    else
      let keep := mapSetAll 4 [] (delta ++ poisonChanges poison)
      let g := newGen s first (mapSetAll 0 codes all) keep 0
      let s1 := addGen cleared g
      let s2 := s.map.joins.foldl (fun t j => rankDue t j.1) s1
      .next (reportPoison s2 g.number poison)

/-! MAP_PUSH and MAP_READ (R396, R401). -/

/-- The ejector ordinal of a packed address; none where a field is out of range (R37, R38). -/
def unpack (w : Dword) : Option Nat :=
  let m := fld w 26 6
  let q := fld w 24 2
  let c := fld w 8 15
  let i := fld w 4 4
  if 40 ≤ m ∨ pcols ≤ c ∨ 12 ≤ i then none else some (ordinal m q c i)

/-- The entries of a map delta: ordinals and codes; none where an address is invalid (R116). -/
def deltaEntries (s : State) (a n : Nat) : List (Option Nat × Nat) :=
  (List.range n).map fun i => (unpack (hostDw s (a + 8 * i)), fld (hostDw s (a + 8 * i + 4)) 0 2)

/-- The cluster dwords of a full image (R115). -/
def fullImage (s : State) (a : Nat) : List Dword := hostDws s a (40 * moduleClusters)

/-- The ejector codes of a full image. -/
def imageCodes (img : List Dword) : List (Nat × Nat) :=
  (List.range img.length).flatMap fun x => (List.range 12).map fun i => (12 * x + i, fld (img.getD x 0) (2 * i) 2)

/-- A full image breaks R401: code 1 or 3 where the code in force differs. -/
def imageBad (codes : Sparse Nat) (img : List Dword) : Bool :=
  (imageCodes img).any fun e => (e.2 == 1 || e.2 == 3) && mapGet 0 codes e.1 != e.2

/-- A delta breaks R116 or R401. -/
def deltaBad (ds : List (Option Nat × Nat)) : Bool :=
  ds.any (fun d => d.1.isNone || d.2 == 1 || d.2 == 3) || decide (¬ (ds.map Prod.fst).Nodup)

/-- Building module images over poisoned clusters that the change does not wholly replace (R106). -/
def copyPoisoned (s : State) (delta : List (Nat × Nat)) : Bool :=
  let mods := (delta.map fun e => e.1 / moduleEjectors).dedup
  (unfixedPoison s).any fun x => mods.contains (x.1 / 4) &&
    (List.range 12).any fun i => (assoc delta ((x.1 * pcols + x.2) * 12 + i)).isNone

/-- The result of MAP_PUSH (R401). -/
def pushResult (g : Gen) : List Dword :=
  it g.number ++ (match g.boundary with | some b => it 1 ++ itq b | none => it 0 ++ itq 0)

/-- MAP_PUSH (R114 to R119, R123, R401). A chip that ROLE_SEL has put in SHADOW forms no generation (R262). Before generation 1,
which the first module's join forms (R117), it is rejected as if that generation were pending (DESIGN CHOICE, log 138). -/
def execMapPush (e : Entry) (s : State) : Host.Outcome State Fault Refusal :=
  .next (command [0x0201] e (fun _ s =>
    let full := bitOf (pw e 0) 31
    let n := (pw e 1).toNat
    let a := pq e 2
    let line := pqS e 4
    let bytes := if full then 10649600 else 8 * n
    checked s [(!rsvOk e [0x80000000, allBits, allBits, allBits, allBits, allBits] || a % 64 != 0 ||
                (if full then n != 0 else decide (n < 1 ∨ 31948800 < n)), stFormat)] fun s =>
      let codes := settledCodes s
      let read := tableRead s [(a, bytes)]
      let img := if full then fullImage s a else []
      let ds := if full then [] else deltaEntries s a n
      let changes := if full then imageCodes img else ds.map fun d => (d.1.getD 0, d.2)
      let all := changes ++ reportChanges s
      let g := newGen s full (mapSetAll 0 codes all) (if full then [] else mapSetAll 4 [] all) line
      let early := match g.boundary with | some b => decide (b < earliestBoundary s (genSpan g)) | none => false
      checked s [(s.par.state == .shadow, stNotGaffer),
                 (read.isNone && (if full then imageBad codes img else deltaBad ds), stFormat),
                 (s.map.pending.isSome || s.map.gens.isEmpty, stPendingFull), (early, stLinePassed), (read.isSome, read.getD stPoisoned),
                 (!full && copyPoisoned s changes, stPoisoned)] fun s =>
        let fixed := changePlanes ((unfixedPoison s).filter fun x => full || decide ((assoc changes ((x.1 * pcols + x.2) * 12)).isSome))
        let s1 := addGen (dropReports s) g
        let s2 := { s1 with map := { s1.map with poisonFix := s1.map.poisonFix ++ fixed.map fun k => (k, g.number) } }
        okWith s2 (pushResult g)) s)

/-- MAP_READ (R303, R396): the module's cluster dwords; STATE when no generation is pending; POISONED_DATA where the copy
holds poison. -/
def execMapRead (e : Entry) (s : State) : Host.Outcome State Fault Refusal :=
  .next (command [0x0205] e (fun _ s =>
    let pend := bitOf (pw e 0) 31
    let m := fld (pw e 0) 0 6
    let g := if pend then (match s.map.pending with | some k => s.map.gens.find? fun x => x.number == k | none => none)
             else settledGen s
    let codes := match g with | some x => x.codes | none => []
    let bad := !pend && s.map.poisoned.any fun x => x.1 / 4 == m
    checked s [(!rsvOk e [0x8000003F, 0, allBits, allBits] || decide (40 ≤ m), stFormat),
               (pend && s.map.pending.isNone, stState)] fun s =>
      let hit := s.map.poisoned.filter fun x => x.1 / 4 == m
      let sent := (if bad then hit else []).map fun x => Sent.epWrite (pq e 2 + 4 * (x.1 % 4 * 16640 + x.2)) 4
      .done (emitAll (hostPutDws s (pq e 2) (moduleImage codes m)) sent) (if bad then stPoisonedData else stOk) []) s)

end Sys2Proof.Machine
end

