-- ==== Sys2Proof/Machine/Link.lean ====
section
/-! DEFINITION. The head link: lanes, bring-up, join, re-striping, CEASE and the words modules send (R177 to R230, R446). -/

namespace Sys2Proof.Machine

/-! Lanes (R209). -/

/-- The lanes of group `g` are enabled: the chip has booted and is not FAILED; module and camera lanes in PRINT and READY, the
partner's also in PARKED (R405), where pairing is enabled. -/
def lanesRun (s : State) (g : Nat) : Bool :=
  bootRunning s && s.par.state != .failed &&
  (match s.pwr.state with
   | .print | .ready => g != 44 || s.par.enabled
   | .parked => g == 44 && s.par.enabled
   | .sleep | .save | .off => false)

/-- The group whose spare or missing lane this is has been brought up. -/
def groupUp (s : State) (g : Nat) : Bool := (groupAt s g).run

/-- LANE_DETECT (R209): signal and CDR lock for 10 µs. A lane put DOWN by three failed searches waits for its group to
start again. -/
def execLaneDetect (lane : Nat) (s : State) : Host.Outcome State Fault Refusal :=
  let x := laneAt s lane
  let may := x.state == .detect || (x.state == .down && decide (x.searches < 3))
  if decide (lane < 172) && lanesRun s (laneGroup lane) && may then
    .next (setLane s lane fun y =>
      { (if y.state = .down then laneTo .polarity y else { y with state := .polarity }) with since := s.time.clk, farLocked := false })
  else .next s

/-- A failed search: back to DETECT, or DOWN with LANE_FAILED at the third in a row (R209). -/
def searchFailed (s : State) (lane : Nat) : State :=
  let n := (laneAt s lane).searches + 1
  if 3 ≤ n then raise (setLane s lane fun y => { laneTo .down y with searches := 3 }) 0x0401 (it lane)
  else setLane s lane fun y => { laneTo .detect y with searches := n }

/-- POLARITY lasts at most 30 µs, in TIME ticks (R209). -/
abbrev polarityBound : Nat := 12000

/-- LOCK lasts at most 4 superframes of 1,024 symbols of 69 bits, in TIME ticks (R209, R214). No command gives a group's rate before
its first bring-up: until then the bound is that of 8.0 Gb/s, the slowest. DESIGN CHOICE (log 177). -/
def lockBound (s : State) (lane : Nat) : Nat :=
  let g := groupAt s (laneGroup lane)
  4 * 1024 * 69 * 400 / laneMbps (if g.rated then g.rate else 0)

/-- POLARITY_COUNT (R209): `ones` bits of 1 among 4,096. Above 60 % the search begins; below 40 % inversion is set and the
count repeats; a count that ends past the bound of the state fails the search (log 152). -/
def execPolarityCount (lane ones : Nat) (s : State) : Host.Outcome State Fault Refusal :=
  let x := laneAt s lane
  if x.state = .polarity then
    .next (if x.since + polarityBound < s.time.clk then searchFailed s lane
      else if 60 * 4096 < 100 * ones then setLane s lane fun y => { y with state := .slip, trials := 0 }
      else if 100 * ones < 40 * 4096 then setLane s lane fun y => { y with inverted := true }
      else s)
  else .next s

/-- SLIP_TRIAL (R208, R209): up to 66 trials of 64 training symbols. In LOCK a trial
shows only whether the far end has locked (log 152). -/
def execSlipTrial (lane : Nat) (trial : Trial) (s : State) : Host.Outcome State Fault Refusal :=
  let x := laneAt s lane
  if x.state = .slip then
    .next (if trial.valid then setLane s lane fun y => { y with state := .lock, since := s.time.clk, farLocked := trial.train1 }
      else if 66 ≤ x.trials + 1 then searchFailed s lane
      else setLane s lane fun y => { y with trials := x.trials + 1 })
  else if x.state = .lock ∧ trial.valid ∧ trial.train1 then .next (setLane s lane fun y => { y with farLocked := true })
  else .next s

/-- Lanes of a group in ORDERED or RUN. -/
def orderedLanes (s : State) (g : Nat) : List Nat :=
  (groupLanes g).filter fun l => (laneAt s l).state == .ordered || (laneAt s l).state == .run

/-- Logical lanes as claimed. -/
def claimed (s : State) (ls : List Nat) : List Nat := ls.filterMap fun l => (laneAt s l).logical

/-- Two lanes of a group claim one logical lane: bring-up fails with LANE_ORDER and starts again (R210). -/
def orderFailed (s : State) (g : Nat) : State :=
  raise (setGroup (restartLanes s g) g fun x => { x with step := 0 }) 0x0402 (it g)

/-- A lane recovered in a group that runs without its spare becomes the spare (R213); one that is ORDERED while its group is
being brought up must not claim a logical lane another has (R210). -/
def rejoinLane (s : State) (lane logical : Nat) : State :=
  let g := laneGroup lane
  if groupUp s g ∧ ¬ (40 ≤ g ∧ g < 44) then
    setGroup (setLane s lane fun y => { y with state := .run, searches := 0, logical := some 3 }) g fun x => { x with spare := true }
  else
    let s1 := setLane s lane fun y => { y with state := .ordered, searches := 0, logical := some logical }
    if (groupAt s1 g).step ≠ 0 ∧ ¬ (claimed s1 (orderedLanes s1 g)).Nodup then orderFailed s1 g else s1

/-- MARK_LOCK (R209): two MARKs 1,024 slots apart name the lane's logical lane; past the bound of LOCK the search has failed
(log 152). -/
def execMarkLock (lane logical : Nat) (s : State) : Host.Outcome State Fault Refusal :=
  let x := laneAt s lane
  if x.state = .lock then
    .next (if x.since + lockBound s lane < s.time.clk then searchFailed s lane else rejoinLane s lane (logical % 4))
  else .next s

/-- What a lane's transmitter sends (R208, R481): nothing in electrical idle, TRAIN0, TRAIN1 or superframes. -/
inductive LaneSends where
  | idle | train0 | train1 | superframes
deriving DecidableEq, Repr

/-- The lane is in word lock (R208, R209). -/
def wordLocked (x : Lane) : Bool := x.state == .lock || x.state == .ordered || x.state == .run

/-- What the transmitters of group `g` send (R208): TRAIN0 until three of its receive lanes are in word lock, then TRAIN1, and
superframes once every locked lane sees TRAIN1 or superframe symbols. Those of the cameras, and of lanes that are not enabled, are in
electrical idle (R405, R481). -/
def groupSends (s : State) (g : Nat) : LaneSends :=
  let locked := ((groupLanes g).map (laneAt s)).filter wordLocked
  if !lanesRun s g || decide (40 ≤ g ∧ g < 44) then .idle
  else if locked.length < 3 then .train0
  else if locked.all fun x => x.farLocked || x.state != .lock then .superframes else .train1

/-! Handshake (R206, R210, R211). -/

/-- TMREQ for `n` dwords from `off` (R211). -/
def tmreqWord (off n : Nat) : Qword := ctrlWord 0x4A [(40, off), (32, n)]

/-- The touchmark of group `g` is read from its first dword. -/
def startRead (s : State) (g tries : Nat) : State :=
  emit (setGroup s g fun x => { x with fresh := { Touch.none with asked := 33, tries := tries } }) (.ctrl g (tmreqWord 0 33))

/-- ECHO with the next token (R194). -/
def sendEcho (s : State) (g : Nat) : State :=
  let tok := (s.dxl.tokens + 1) % 2 ^ 16
  let s1 := setGroup { s with dxl := { s.dxl with tokens := tok } } g fun x => { x with echoToken := tok }
  emit s1 (.ctrl g (ctrlWord 0x49 [(40, tok)]))

/-- Every lane of a group RUN. -/
def lanesToRun (s : State) (g : Nat) : State :=
  (groupLanes g).foldl (fun t l => if (laneAt t l).state = .ordered then setLane t l fun y => { y with state := .run } else t) s

/-- The seams of a join (R143): their span follows what the module reports until they are sent. -/
def joinSeams (s : State) (m : Nat) : State :=
  let span := joinSpan (groupAt s m)
  let ks := (List.range 4).map (mp m)
  let req := ks.foldl (fun r k => mapSet 0 r k (max span (mapGet 0 r k))) s.csc.seamReq
  let own := ks.filter fun k => mapGet 0 s.csc.seamReq k == 0
  { s with csc := { s.csc with seamReq := req, joinSeams := (s.csc.joinSeams ++ own).dedup } }

/-- The seams of a join of module `m` that have not been sent take the span its STATUS calls for (R143). -/
def adjustJoinSeams (s : State) (m : Nat) : State :=
  let span := joinSpan (groupAt s m)
  let ks := ((List.range 4).map (mp m)).filter fun k => s.csc.joinSeams.contains k
  { s with csc := { s.csc with seamReq := ks.foldl (fun r k => mapSet 0 r k span) s.csc.seamReq } }

/-- Touchmark fields of a finished read. -/
def fdw (t : Touch) (i : Nat) : Dword := mapGet 0 t.dwords i

/-- MAKER and MODEL, SERIAL, final CRC: what tells one touchmark from another (R223). -/
def touchKey (t : Touch) : Dword × Dword × Dword × Dword := (fdw t 2, fdw t 3, fdw t 4, fdw t (t.total - 1))

/-- EXCL_N (R222). -/
def exclN (t : Touch) : Nat := fld (fdw t 8) 16 16

/-- The ejectors of module `m` that the exclusion list names (R222). -/
def exclusions (t : Touch) (m : Nat) : List Nat :=
  (List.range (exclN t)).filterMap fun i => (unpack (fdw t (32 + i))).map fun o => m * moduleEjectors + o

/-- A word on every lane of one group. -/
def onGroupLanes (s : State) (g : Nat) (w : Qword) : State := emitAll s ((groupLanes g).map fun l => .lane l w)

/-- The group runs: its ORDERED lanes go to RUN, a fourth among them the spare (R210). -/
def groupToRun (s : State) (g : Nat) : State :=
  let spare := (orderedLanes s g).length == 4
  lanesToRun (setGroup s g fun y => { y with run := true, spare := spare }) g

/-- The group is in RUN and the module has joined: ROLE, phases, seams, MODULE_JOINED, and the generation a new touchmark
calls for. With CEASE_N asserted a CEASE follows; one in force for another cause is not sent to the module, and CEASE_ACK does
not wait for it (R122, R143, R172, R210, R219, log 147). -/
def finishJoin (s : State) (g : Nat) : State :=
  let x := groupAt s g
  let s1 := groupToRun (setGroup s g fun y => { y with joined := true, step := 0, recorded := some (touchKey y.touch) }) g
  let s2 := onGroupLanes s1 g (ctrlWord 0x4B [(54, roleCode s.par.state), (16, s.par.epoch)])
  let s3 := joinSeams (if s.job.isSome then sendModulePhases s2 g else s2) g
  let resync := (List.range 4).map (mp g)
  let first := s3.dxl.firstLine.filter fun e => !resync.contains e.1
  let s4 := { s3 with dxl := { s3.dxl with resync := (s3.dxl.resync ++ resync).dedup, firstLine := first } }
  let s5 := if x.newTouch then queueJoin s4 (g, exclusions x.touch g) else s4
  let s6 := raise s5 0x0407 (it g ++ [fdw x.touch 3, fdw x.touch 4] ++ it (if x.newTouch then 1 else 0))
  if s.pins.ceaseN then sendCease s6 0 else s6

/-- The generations a module lacks: those after the one it holds; without one it lacks the newest settled as a full image,
and any pending one. -/
def mapToSend (s : State) (held : Option Nat) : List (Gen × Bool) :=
  match held with
  | some n => (((s.map.gens.dropWhile fun g => g.number != n)).drop 1).map fun g => (g, g.full)
  | none =>
    let pend := (s.map.gens.filter fun g => s.map.pending == some g.number).map fun g => (g, g.full)
    match settledGen s with
    | some g => (g, true) :: pend
    | none => pend.map fun x => (x.1, true)

/-- The map is settled at join (R206): what the module lacks goes out; with nothing to send it joins. -/
def settleMap (s : State) (g : Nat) (held : Option Nat) : State :=
  let s1 := match held with
    | some n => { s with map := { s.map with acked := if s.map.acked.contains (g, n) then s.map.acked else s.map.acked ++ [(g, n)] } }
    | none => { s with map := { s.map with acked := s.map.acked.filter fun a => a.1 != g } }
  let list := mapToSend s1 held
  let s2 := setGroup s1 g fun x => { x with step := 4, unprompted := none }
  let s3 := list.foldl (fun t x => sendGenTo t x.1 x.2 g) s2
  if list.isEmpty then finishJoin s3 g else s3

/-- GROUP_BRINGUP (R178, R210, R225, R228): lane order, deskew, then the handshake for a module group; a camera pair with both
lanes, or the partner link, goes straight to RUN. A camera pair whose lanes claim one logical lane fails with LANE_ORDER as
group 40 + k. DESIGN CHOICE (log 180). The rate is the group's in the host's link configuration, the partner link's
that of PAIR_CONFIG (log 144). -/
def execGroupBringup (link : LinkUp) (s : State) : Host.Outcome State Fault Refusal :=
  let g := link.g
  let x := groupAt s g
  let ls := orderedLanes s g
  let need := if 40 ≤ g ∧ g < 44 then 2 else 3
  if decide (44 < g) || !lanesRun s g || x.run || x.step != 0 || decide (ls.length < need) then .next s
  else if ¬ (claimed s ls).Nodup then .next (orderFailed s g)
  else
    let s1 := if g < 44 then setGroup s g fun y => { y with rate := link.rate % 4, rated := true } else s
    if g < 40 then .next (startRead (setGroup s1 g fun y => { y with step := 1 }) g 0) else .next (groupToRun s1 g)

/-- SPARE_ABSENT (R210): 5 ms on, the group has three lanes and runs without a spare. -/
def execSpareAbsent (g : Nat) (s : State) : Host.Outcome State Fault Refusal :=
  let x := groupAt s g
  if (g < 40 ∨ g = 44) ∧ (x.run ∨ x.step ≠ 0) ∧ (orderedLanes s g).length = 3 then
    .next (raise (setGroup s g fun y => { y with spare := false }) 0x0403 (it g))
  else .next s

/-- The record is a touchmark: magic, version, length and CRC (R222). One whose magic, version or length is wrong is treated as one whose
CRC fails. DESIGN CHOICE (log 179). -/
def touchOk (t : Touch) : Bool :=
  let ds := (List.range t.total).map (fdw t)
  fdw t 0 == 0xA7164D31 && fld (fdw t 1) 24 8 == 1 && t.total == 33 + exclN t + fld (fdw t 8) 0 16 &&
  (fdw t (t.total - 1)).toNat == crc32d (ds.take (t.total - 1))

/-- The signature of a touchmark's AUTH block under a public key (R445, R446). -/
def authStatus (t : Touch) (keyId : Nat) (key : List Byte) : Nat :=
  let n := exclN t
  let auth := 32 + n
  let sig := dwBytes ((List.range 24).map fun i => fdw t (auth + 1 + i))
  let msg := dwBytes ((List.range (33 + n)).map (fdw t))
  if fld (fdw t 8) 0 16 = 0 then stAuthAbsent
  else if fld (fdw t 8) 0 16 = 25 ∧ fld (fdw t auth) 24 8 = 1 ∧ fld (fdw t auth) 0 16 = keyId ∧ touchOk t = true ∧
      ecdsaVerify key (sha384 msg) sig = true then stOk
  else stAuthFail

/-- A fresh read made for MODULE_AUTH has ended (R446). -/
def authRead (s : State) (g : Nat) : State :=
  let t := (groupAt s g).fresh
  match runningAuth s g with
  | none => setGroup s g fun y => { y with auth := false }
  | some (r, keyId) =>
    if !touchOk t && t.tries == 0 then startRead s g 1
    else
      let st := if fld (fdw t 8) 0 16 ≠ 0 ∧ touchOk t = false then stAuthFail
                else authStatus t keyId (r.note.map fun v => BitVec.ofNat 8 v)
      endAuth (setGroup s g fun y => { y with auth := false }) g st

/-- The touchmark has been read at bring-up: read once more where its CRC fails, then TOUCHMARK_BAD; a rate it does not
list is refused, RATE_UNSUPPORTED carrying it as its code 0 to 3 (log 148); else the handshake goes on with the latency (R178,
R210, R211, R223). -/
def touchRead (s : State) (g : Nat) : State :=
  let x := groupAt s g
  let t := x.fresh
  if !touchOk t then
    if t.tries = 0 then startRead s g 1 else raise (setGroup s g fun y => { y with step := 9 }) 0x0408 (it g)
  else
    let s1 := setGroup s g fun y => { y with touch := { t with valid := true }
                                             newTouch := y.recorded != some (touchKey t) }
    if !hasRate s1 g x.rate then raise (setGroup s1 g fun y => { y with step := 9 }) 0x0409 (it g ++ it x.rate)
    else sendEcho (setGroup s1 g fun y => { y with step := 2 }) g

/-- The end of a read, for whom it was made. -/
def readDone (s : State) (g : Nat) : State := if (groupAt s g).auth then authRead s g else touchRead s g

/-- A touchmark dword in its turn: LEN_DW sets the length, and the rest is asked for 255 dwords at a time (R211, R222). With a
length no touchmark has, the read ends with the 33 dwords first asked for. -/
def touchDword (s : State) (g off : Nat) (data : Dword) : State :=
  let t := (groupAt s g).fresh
  let total := if off = 1 then fld data 0 16 else t.total
  let t1 := { t with dwords := mapSet 0 t.dwords off data, got := off + 1, total := total }
  let s1 := setGroup s g fun y => { y with fresh := t1 }
  if off + 1 < t.asked then s1
  else if off + 1 < total ∧ total ≤ 16384 then
    let n := min 255 (total - (off + 1))
    emit (setGroup s1 g fun y => { y with fresh := { t1 with asked := off + 1 + n } }) (.ctrl g (tmreqWord (off + 1) n))
  else readDone s1 g

/-- The MCRC that follows an unprompted MAPACK (R206). -/
def mcrcWord (s : State) (g : Nat) (data : Dword) : State :=
  match (groupAt s g).unprompted with
  | none => s
  | some n =>
    let ok := s.map.gens.any fun x => x.number == n && crc32d (moduleImage x.codes g) == data.toNat
    settleMap s g (if ok then some n else none)

/-- TMDATA (R206, R211): dwords in order; OFFSET 0xFFFF carries MCRC. -/
def execTmdata (g offset : Nat) (data : Dword) (s : State) : Host.Outcome State Fault Refusal :=
  let x := groupAt s g
  if 40 ≤ g then .next s
  else if offset = 0xFFFF then .next (if x.step = 3 then mcrcWord s g data else s)
  else if (x.step = 1 ∨ x.auth) ∧ offset = x.fresh.got ∧ offset < x.fresh.asked then .next (touchDword s g offset data)
  else .next s

/-- MCRC_TIMEOUT (R206): the module's map is unknown. -/
def execMcrcTimeout (g : Nat) (s : State) : Host.Outcome State Fault Refusal :=
  let x := groupAt s g
  if g < 40 ∧ x.step = 3 ∧ x.unprompted.isSome then .next (settleMap s g none) else .next s

/-- The map step has ended: the newest generation is acknowledged. -/
def mapSettled (s : State) (g : Nat) : Bool :=
  match newestGen s with
  | some x => s.map.acked.contains (g, x.number)
  | none => true

/-- A generation acknowledged by a module. -/
def ackGen (s : State) (g n : Nat) : State :=
  let s1 := if s.map.acked.contains (g, n) then s else { s with map := { s.map with acked := s.map.acked ++ [(g, n)] } }
  if (groupAt s1 g).step = 4 ∧ mapSettled s1 g = true then finishJoin s1 g else s1

/-- MAPACK (R206): an acknowledgement; OK 0 is answered with a full image; the unprompted one of a join says what the module
holds. -/
def execMapack (g : Nat) (ok unprompted : Bool) (gen : Dword) (s : State) : Host.Outcome State Fault Refusal :=
  let x := groupAt s g
  let n := gen.toNat
  if 40 ≤ g then .next s
  else if unprompted then
    if x.step ≠ 3 then .next s
    else if n = 0 then .next (settleMap s g none)
    else .next (setGroup s g fun y => { y with unprompted := some n })
  else
    match s.map.gens.find? fun k => k.number == n with
    | none => .next s
    | some k =>
      if !x.run && x.step != 4 then .next s
      else .next (if ok then ackGen s g n else sendGenTo s k true g)

/-- 250 ns in units of 78.125 ps (R194). -/
abbrev maxLatency : Nat := 3200

/-- JOBCFG to a module that joins (R196): of the open job, or the one of a join with no job open. -/
def sendJoinJobcfg (s : State) (g : Nat) : State :=
  match s.job with
  | some j => emit s (.ctrl g (jobcfgWord s j g))
  | none =>
    let (s1, v) := drawFree s
    emit s1 (.ctrl g (joinJobcfg v))

/-- ECHO_RSP (R194): L_m is half the round trip less the turnaround, rounded down to its unit (log 145), and goes out in
LATENCY. Above 250 ns the group does not enter RUN; at bring-up JOBCFG and LINEBASE follow. -/
def execEchoRsp (g token turn roundTrip : Nat) (s : State) : Host.Outcome State Fault Refusal :=
  let x := groupAt s g
  if 40 ≤ g ∨ token ≠ x.echoToken ∨ ¬ (x.run ∨ x.step = 2) then .next s
  else
    let l := (roundTrip - turn) / 2
    let s1 := emit (setGroup s g fun y => { y with latency := l }) (.ctrl g (ctrlWord 0x48 [(40, l % 2 ^ 16)]))
    if maxLatency < l then
      .next (raise (if x.run then s1 else setGroup s1 g fun y => { y with step := 9 }) 0x040A (it g ++ it l))
    else if x.run then .next s1
    else
      let s2 := emitAll (sendJoinJobcfg s1 g) ((linebaseWords (lineCounter s)).map fun w => .ctrl g w)
      .next (setGroup s2 g fun y => { y with step := 3 })

/-- LATENCY_MEASURE (R194): every 100 ms. -/
def execLatencyMeasure (g : Nat) (s : State) : Host.Outcome State Fault Refusal :=
  if g < 40 ∧ (groupAt s g).run then .next (sendEcho s g) else .next s

/-! Losing lanes (R212 to R215, R225). -/

/-- A request to re-stripe upstream: RESTRIPE_REQ on every lane of the transmit group (R213, R228). -/
def sendRestripeReq (s : State) (g llane cause : Nat) : State := onGroupLanes s g (ctrlWord 0x2F [(54, llane), (50, cause)])

/-- What a group that went down leaves undelivered is marked, and its next records resynchronise (R201, R215). -/
def groupLost (s : State) (m : Nat) : State :=
  let lost := s.dxl.replay.filter fun r => r.m == m && r.kind == .print &&
    decide (mapGet minI64 s.dxl.heldLine (mp r.m r.q) < r.n)
  let s1 := lost.foldl (fun t r => markModule t r.m r.q r.n) s
  { s1 with dxl := { s1.dxl with replay := s1.dxl.replay.filter fun r => r.m != m
                                 resync := (s1.dxl.resync ++ (List.range 4).map (mp m)).dedup } }

/-- A module group, or the partner link, goes down (R215, R228). -/
def groupDown (s : State) (g : Nat) : State :=
  let s1 := leaveRun s g
  raise (if g < 40 then groupLost s1 g else s1) 0x0406 (it g ++ itq (lineCounter s))

/-- A camera pair goes out of service (R225). -/
def cameraDown (s : State) (k : Nat) : State := raise (leaveRun s (40 + k)) 0x040E (it k)

/-- A lane in RUN trips (R212, R213): a data lane is re-striped to the spare, or without one its group goes down; a lost
spare is logged. -/
def laneTrips (s : State) (lane cause : Nat) (st : LaneState) : State :=
  let g := laneGroup lane
  let x := groupAt s g
  let ll := (laneAt s lane).logical.getD 3
  let s1 := setLane s lane fun y => laneTo st y
  if 40 ≤ g ∧ g < 44 then cameraDown s1 (g - 40)
  else if ll = 3 then raise (setGroup s1 g fun y => { y with spare := false }) 0x0404 (it g ++ it lane)
  else if x.spare then
    sendRestripeReq (setGroup s1 g fun y => { y with spare := false, restripe := some (ll, 4, 0, 0) }) g ll cause
  else groupDown s1 g

/-- A lane that is locked but not in RUN goes back to a state. -/
def laneFalls (s : State) (lane cause : Nat) (st : LaneState) : State :=
  match (laneAt s lane).state with
  | .run => laneTrips s lane cause st
  | .lock | .ordered =>
    let s1 := setLane s lane fun y => laneTo st y
    let g := laneGroup lane
    if (groupAt s1 g).step ≠ 0 ∧ (orderedLanes s1 g).length < 3 then setGroup s1 g fun x => { x with step := 0 } else s1
  | _ => s

/-- LOS (R209, R212): counted; the lane goes DOWN. -/
def execLos (lane : Nat) (s : State) : Host.Outcome State Fault Refusal :=
  if 172 ≤ lane ∨ (laneAt s lane).state ≠ .run then .next s
  else .next (laneFalls (count s (cnum 4 (344 + lane))) lane 1 .down)

/-- LOL (R209, R212): counted; the lane goes to DETECT. -/
def execLol (lane : Nat) (markMissing : Bool) (s : State) : Host.Outcome State Fault Refusal :=
  let st := (laneAt s lane).state
  if 172 ≤ lane ∨ ¬ (st = .run ∨ st = .lock ∨ st = .ordered) then .next s
  else .next (laneFalls (count s (cnum 4 (516 + lane))) lane (if markMissing then 3 else 2) .detect)

/-- The physical lane, within the group, that sends logical lane `ll`. -/
def txLane (s : State) (g ll : Nat) : Nat := ((groupLanes g).findIdx fun l => (laneAt s l).txLogical == ll)

/-- RESTRIPE_REQ (R213): the far end lost one of our lanes; RESTRIPE on every lane names the spare and the switch slot, which
is a free value among the multiples of 64. -/
def execRestripeReq (g llane cause : Nat) (s : State) : Host.Outcome State Fault Refusal :=
  let x := groupAt s g
  if ¬ (g < 40 ∨ g = 44) ∨ x.run = false ∨ 3 ≤ llane ∨ cause = 0 ∨ 3 < cause then .next s
  else
    let phys := txLane s g 3
    let (s1, v) := drawFree s
    let w := ctrlWord 0x2E [(54, llane), (52, phys % 4), (46, v % 64), (36, 64 * (v / 64 % 16))]
    let s2 := setGroup s1 g fun y => { y with restripeTx := some (llane, phys % 4) }
    .next (onGroupLanes s2 g w)

/-- RESTRIPE (R213): the far end names the slot from which its spare carries the lane that failed here. -/
def execRestripe (g llane phys sfn slot : Nat) (s : State) : Host.Outcome State Fault Refusal :=
  if (g < 40 ∨ g = 44) ∧ (groupAt s g).run ∧ llane < 3 ∧ phys < 4 then
    .next (setGroup s g fun y => { y with restripe := some (llane, phys, sfn % 64, slot % 1024) })
  else .next s

/-- One re-stripe counted and raised: direction 0 downstream, 1 upstream (R229, R230). -/
def reportRestripe (s : State) (g dir llane phys : Nat) : State :=
  let s1 := if g < 40 then count s (cnum 4 (688 + g)) else s
  let s2 := raise s1 0x0405 (it g ++ it dir ++ it llane ++ it phys)
  if g < 40 then sendEcho s2 g else s2

/-- RESTRIPE_SWITCH (R194, R213): the switch slot arrives; the latency is measured again. -/
def execRestripeSwitch (g : Nat) (upstream : Bool) (s : State) : Host.Outcome State Fault Refusal :=
  let x := groupAt s g
  let base := (groupLanes g).headD 0
  if upstream then
    match x.restripe with
    | some (ll, phys, _, _) =>
      if 4 ≤ phys then .next s
      else
        let s1 := setGroup (setLane s (base + phys) fun y => { y with logical := some ll }) g fun y => { y with restripe := none }
        .next (reportRestripe s1 g 1 ll phys)
    | none => .next s
  else
    match x.restripeTx with
    | some (ll, phys) =>
      let old := txLane s g ll
      let s1 := setLane (setLane s (base + old) fun y => { y with txLogical := 3 }) (base + phys) fun y => { y with txLogical := ll }
      .next (reportRestripe (setGroup s1 g fun y => { y with restripeTx := none }) g 0 ll phys)
    | none => .next s

/-! CEASE (R219 to R221, R479). -/

/-- CEASE_ACK follows CEASE_N: from reset release until RUNNING, but in SAVE 10 µs on it keeps its level (R479). Undriven, it does
not. -/
def ackFollows (s : State) : Bool :=
  !hasRun s && s.pins.driven && (s.pwr.state != .save || (s.pwr.saving && decide (s.time.clk < s.pwr.saveClk + 4000)))

/-- CEASE_N (R219, R415, R478, R479): the level recognised starts a CEASE, whatever the chip's condition; out of reset release and
before RUNNING the acknowledge follows the pin. A chip held in reset starts none. -/
def execCeaseN (s : State) : Host.Outcome State Fault Refusal :=
  let s1 := { s with pins := { s.pins with ceaseN := true } }
  if s.pins.resetHeld then .next s1
  else
    let s2 := sendCease s1 0
    .next (if ackFollows s then { s2 with pins := { s2.pins with ceaseAck := true } } else s2)

/-- CEASE_N released (R219, R479). -/
def execCeaseNRelease (s : State) : Host.Outcome State Fault Refusal :=
  let s1 := { s with pins := { s.pins with ceaseN := false } }
  .next (if ackFollows s then { s1 with pins := { s1.pins with ceaseAck := false } } else s1)

/-- RESUME for the CEASE in force (R219, R221). -/
def resume (s : State) : State :=
  if s.cease.inForce then
    let s1 := onEveryGroup s (resumeWord s.cease.seq)
    { s1 with cease := { s1.cease with inForce := false, waiting := [] }
              pins := { s1.pins with ceaseAck := false } }
  else s

/-- CEASE_CLEAR (R219, R395). -/
def execCeaseClear (e : Entry) (s : State) : Host.Outcome State Fault Refusal :=
  .next (command [0x0113] e (fun _ s =>
    checked s [(!rsvOk e [], stFormat), (s.pins.ceaseN, stState)] fun s => okWith (resume s) []) s)

/-- CEASE_ISSUE (R219). -/
def execCeaseIssue (e : Entry) (s : State) : Host.Outcome State Fault Refusal :=
  .next (command [0x0906] e (fun _ s => checked s [(!rsvOk e [], stFormat)] fun s => okWith (sendCease s 2) []) s)

/-- CEASED (R221, R413): CEASE_ACK once every module joined when the CEASE went out has confirmed its CSEQ. -/
def execCeased (g cseq : Nat) (s : State) : Host.Outcome State Fault Refusal :=
  if g < 40 ∧ s.cease.inForce ∧ cseq = s.cease.seq then
    let wait := s.cease.waiting.filter fun m => m != g
    let ack := wait.isEmpty && mayAck s
    .next { s with cease := { s.cease with waiting := wait }, pins := { s.pins with ceaseAck := s.pins.ceaseAck || ack } }
  else .next s

/-- CEASE_UNCONFIRMED (R221): 3.5 µs after the CEASE, for each module that was joined and has no link. -/
def execCeaseUnconfirmed (s : State) : Host.Outcome State Fault Refusal :=
  if s.cease.inForce then
    .next ((s.cease.waiting.filter fun m => !(groupAt s m).run).foldl (fun t m => raise t 0x040D (it m ++ it s.cease.seq)) s)
  else .next s

/-! Words from modules (R201 to R207, R217). -/

/-- A module's accepted epoch as it arrives; above the gaffer's own it deposes it (R264, R265). -/
def seenEpoch (s : State) (g : Nat) (e : Dword) : State :=
  let s1 := setGroup s g fun x => { x with accEpoch := e, epochs := addEpoch s.time.clk e.toNat x.epochs }
  if isGaffer s ∧ s.par.epoch < e.toNat then depose s1 e.toNat else s1

/-- MARK (R191, R264, R265): an upstream MARK. -/
def execMark (g : Nat) (body : MarkBody) (s : State) : Host.Outcome State Fault Refusal :=
  if g < 40 then .next (seenEpoch (setGroup s g fun x => { x with port := body.port, echo := body.echo % 64 }) g body.epoch) else .next s

/-- STATUS (R143, R207): `body` is bits [55:8] of the word. The seams of its join that are still to be sent follow it. -/
def execStatus (g : Nat) (body : BitVec 48) (s : State) : Host.Outcome State Fault Refusal :=
  if 40 ≤ g then .next s
  else
    let s1 := setGroup s g fun x => { x with mstate := fld body 44 4, port := bitOf body 43, accepting := bitOf body 42
                                             fired := bitOf body 41, ceasedFlag := bitOf body 40, statusIn := true }
    .next (seenEpoch (adjustJoinSeams s1 g) g (BitVec.ofNat 32 (fld body 8 32)))

/-- The web line nearest `base` whose low 32 bits are these. -/
def nearLine (base : Int) (lo : Dword) : Int := base + signed 32 (unsignedOf 32 ((lo.toNat : Int) - base))

/-- The records of `k` that a HELD frees: up to the RSEQ it names; in a servitor, up to its web line (R201, R271). -/
def freeHeld (s : State) (k rseq : Nat) (n : Int) : List Rec :=
  let mine := s.dxl.replay.filter fun r => mp r.m r.q == k
  if servitor s then mine.filter fun r => decide (r.n ≤ n)
  else if mine.any fun r => r.rseq == rseq then
    mine.takeWhile (fun r => r.rseq != rseq) ++ mine.filter fun r => r.rseq == rseq
  else []

/-- HELD (R201, R203, R271). -/
def execHeld (g q rseq : Nat) (nLo : Dword) (s : State) : Host.Outcome State Fault Refusal :=
  let k := mp g q
  if ¬ (g < 40 ∧ q < 4 ∧ (groupAt s g).run) then .next s
  else
    let base := mapGet minI64 s.dxl.released k
    let n := nearLine (if base = minI64 then lineCounter s else base) nLo
    let gone := freeHeld s k rseq n
    .next { s with dxl := { s.dxl with replay := s.dxl.replay.filter fun r => !gone.contains r
                                       lastHeld := mapSet 0 s.dxl.lastHeld k rseq
                                       heldLine := mapSet minI64 s.dxl.heldLine k n } }

/-- The first web line of module-plane `k` that the module does not report as held: the one after its HELD, but none from
before it joined (R201). -/
def firstUnheld (s : State) (k : Nat) : Int :=
  let first := mapGet minI64 s.dxl.firstLine k
  let held := mapGet minI64 s.dxl.heldLine k
  if held = minI64 then first else max first (held + 1)

/-- Records lost under R201: counted and marked, RECORD_LOST, the out-of-step report, a resync and a seam of span 63. -/
def recordsLost (s : State) (g q : Nat) : State :=
  let k := mp g q
  let last := mapGet minI64 s.dxl.released k
  let first := if mapGet minI64 s.dxl.firstLine k = minI64 then last + 1 else firstUnheld s k
  let lines := (List.range (last + 1 - first).toNat).filter fun i => !skippedLine s (planeOf g q) (first + (i : Int))
  let s1 := countN s (cnum 4 (768 + g)) lines.length
  let s2 := markArea s1 (planeOf g q) (moduleCols g).1 (moduleCols g).2 first last
  let s3 := requestSeam { s2 with dxl := { s2.dxl with resync := (s2.dxl.resync ++ [k]).dedup
                                                       replay := s2.dxl.replay.filter fun r => mp r.m r.q != k } } k 63
  outOfStep (raise s3 0x040B (it g ++ it q ++ itq first)) g q 3 first

/-- RESEND (R201): the named record and every later one of the module-plane again, unchanged; or, no longer buffered, the
loss of R201. -/
def execResend (g q rseq : Nat) (s : State) : Host.Outcome State Fault Refusal :=
  let k := mp g q
  if ¬ (g < 40 ∧ q < 4 ∧ (groupAt s g).run) then .next s
  else
    let mine := (s.dxl.replay.filter fun r => mp r.m r.q == k).dropWhile fun r => r.rseq != rseq
    if rseq = mapGet 0 s.dxl.rseq k ∧ mine = [] then .next s
    else if mine.isEmpty then .next (recordsLost s g q)
    else .next (countN (mine.foldl sendRec s) (cnum 4 (728 + g)) mine.length)

/-- EHR (R123, R207): the ejector takes code 3 in the next generation. -/
def execEhr (g cause : Nat) (addr : Dword) (s : State) : Host.Outcome State Fault Refusal :=
  match unpack addr with
  | some o =>
    if o / moduleEjectors = g ∧ cause < 16 then
      .next (if s.map.reports.contains o then s else { s with map := { s.map with reports := s.map.reports ++ [o] } })
    else .next (count s (cnum 4 814))
  | none => .next (count s (cnum 4 814))

/-- TEMP (R207). -/
def execTemp (g sensor : Nat) (value : BitVec 16) (s : State) : Host.Outcome State Fault Refusal :=
  if g < 40 ∧ sensor < 16 then
    .next { s with dxl := { s.dxl with temps := mapSet 0x8000 s.dxl.temps (16 * g + sensor) value.toNat } }
  else .next s

/-- The rows a FAULT speaks of: it names no web line, so every line whose row could have fallen in the last 100 µs is marked
(R202, R207). -/
def markRows (s : State) (m q : Nat) : State :=
  let p := planeOf m q
  let c := lineCounter s
  let span : Int := 176 / (jobS s : Int) + cdiv (staggerOf s) (jobS s) + cdiv (lDeclOf s) 10000
  if planeRuns s m q then
    markArea s p (moduleCols m).1 (moduleCols m).2 (c - dLines s p c - span) (c - dLines s p c)
  else s

/-- FAULT (R132, R202, R207, R217): schedule faults are answered with a seam; the rest is counted, where no counter of R229 is
named in the group's own counts (log 151), and ROLE_CONFLICT is reported. -/
def execFault (g q kind count_ : Nat) (s : State) : Host.Outcome State Fault Refusal :=
  if ¬ (g < 40 ∧ q < 4) then .next s
  else match kind with
    | 1 => .next (raise (countN (requestSeam s (mp g q) 63) (cnum 2 50) count_) 0x0208 (it g ++ it q ++ it count_))
    | 2 => .next (markRows (countN s (cnum 4 808) count_) g q)
    | 3 => .next (markRows (countN s (cnum 4 809) count_) g q)
    | 4 => .next (raise (setGroup s g fun x => { x with conflicts := x.conflicts + count_ }) 0x040C (it g ++ [(groupAt s g).accEpoch]))
    | 5 => .next (setGroup s g fun x => { x with crcFails := x.crcFails + count_ })
    | _ => .next s

/-! Discarded words (R183, R188, R269). -/

/-- A word lost on the partner link sets every out-of-step mark of the servitor as a refill mark (R269). -/
def partnerWordLost (s : State) (lane : Nat) : State := if 168 ≤ lane ∧ servitor s then setAllRefillMarks (count s (cnum 6 3)) else s

/-- CHK_FAIL (R188, R229, R269). -/
def execChkFail (lane : Nat) (s : State) : Host.Outcome State Fault Refusal :=
  if lane < 172 then .next (partnerWordLost (count s (cnum 4 (172 + lane))) lane) else .next s

/-- STUFFING_VIOLATION (R183, R229, R269). -/
def execStuffingViolation (lane : Nat) (s : State) : Host.Outcome State Fault Refusal :=
  if lane < 172 then .next (partnerWordLost (count s (cnum 4 lane)) lane) else .next s

/-! Received control words (R188, R189). -/

/-- CHK holds (R188). -/
def chkOk (w : Qword) : Bool := w.toNat % 256 == crc8 (w.toNat / 256)

/-- The command a control word on a module's lane is, by its TYPE (R189 and the field maps of R191 to R219); `none` where the
TYPE is unknown or not valid upstream. With an ECHO_RSP goes the round trip the AZ1640 has measured (R194). -/
def moduleWord (g roundTrip : Nat) (w : Qword) : Option Instr :=
  match fld w 56 8 with
  | 0x2D => some (.mark g ⟨fld w 46 2 == 1, fld w 48 6, BitVec.ofNat 32 (fld w 8 32)⟩)
  | 0x2E => some (.restripe g (fld w 54 2) (fld w 52 2) (fld w 46 6) (fld w 36 10))
  | 0x2F => some (.restripeReq g (fld w 54 2) (fld w 50 4))
  | 0x80 => some (.held g (fld w 54 2) (fld w 40 8) (BitVec.ofNat 32 (fld w 8 32)))
  | 0x81 => some (.resend g (fld w 54 2) (fld w 40 8))
  | 0x82 => some (.status g (BitVec.ofNat 48 (fld w 8 48)))
  | 0x83 => some (.mapack g (bitOf w 55) (bitOf w 54) (BitVec.ofNat 32 (fld w 16 32)))
  | 0x84 => some (.ehr g (fld w 52 4) (BitVec.ofNat 32 (fld w 16 32)))
  | 0x85 => some (.tmdata g (fld w 40 16) (BitVec.ofNat 32 (fld w 8 32)))
  | 0x86 => some (.temp g (fld w 52 4) (BitVec.ofNat 16 (fld w 36 16)))
  | 0x87 => some (.echoRsp g (fld w 40 16) (fld w 16 24) roundTrip)
  | 0x88 => some (.fault g (fld w 54 2) (fld w 50 4) (fld w 34 16))
  | 0x9A => some (.ceased g (fld w 48 8))
  | _ => none

/-- The command a control word on camera `k`'s lanes is; SCANEND closes the data words `data` that came since its SCAN
(R226). -/
def cameraWord (k : Nat) (data : List Qword) (w : Qword) : Option Instr :=
  match fld w 56 8 with
  | 0xC0 => some (.scan k (fld w 40 16) (fld w 24 16) (fld w 10 14) (bitOf w 9))
  | 0xC1 => some (.scanend k (fld w 8 16) (BitVec.ofNat 32 (fld w 24 32)) data)
  | _ => none

/-- The command a control word on the partner link is, messages apart (R191, R213, R228, R267). -/
def partnerWord (w : Qword) : Option Instr :=
  match fld w 56 8 with
  | 0x2D => some (.partnerMark (fld w 46 2) (BitVec.ofNat 32 (fld w 8 32)))
  | 0x2E => some (.restripe 44 (fld w 54 2) (fld w 52 2) (fld w 46 6) (fld w 36 10))
  | 0x2F => some (.restripeReq 44 (fld w 54 2) (fld w 50 4))
  | 0xA2 => some (.prho (fld w 40 16) (fld w 8 32))
  | 0xA3 => some (.poos (fld w 50 6) (fld w 48 2) (fld w 44 4) (BitVec.ofNat 32 (fld w 8 32)))
  | 0xA4 => some (.ptsync (fld w 40 16))
  | _ => none

/-- FILL, IDLE, MARK on a camera's lanes and the words that open and close a partner message: received, and no command of their
own. -/
def quietType (lane t : Nat) : Bool :=
  t == 0x1E || t == 0x1F || (decide (160 ≤ lane ∧ lane < 168) && t == 0x2D) || (decide (168 ≤ lane) && (t == 0xA0 || t == 0xA1))

/-- What a control word received on a lane brings (R188, R189): its command; nothing; or, where its CHK fails or its TYPE is
unknown or not valid for the direction, CHK_FAIL. -/
def receivedWord (lane roundTrip : Nat) (data : List Qword) (w : Qword) : Option Instr :=
  let c := if lane < 160 then moduleWord (lane / 4) roundTrip w
    else if lane < 168 then cameraWord ((lane - 160) / 2) data w else partnerWord w
  if !chkOk w then some (.chkFail lane)
  else if quietType lane (fld w 56 8) then none else some (c.getD (.chkFail lane))

/-! Commands (R180, R395, R446). -/

/-- An entry of R180 is valid. -/
def eqOk (w : Dword) : Bool :=
  decide (fld w 24 8 < 172) &&
  (if bitOf w 23 then fld w 8 15 == 0 else fld w 3 5 == 0 && decide (20 ≤ fld w 13 6))

/-- An entry is kept for its lane's next bring-up. -/
def loadEq (s : State) (w : Dword) : State :=
  setLane s (fld w 24 8) fun x => if bitOf w 23 then { x with eqRxNew := w } else { x with eqTxNew := w }

/-- LINK_EQ_LOAD (R180, R395). -/
def execLinkEqLoad (e : Entry) (s : State) : Host.Outcome State Fault Refusal :=
  .next (command [0x0112] e (fun _ s =>
    let n := (pw e 0).toNat
    checked s [(!rsvOk e [allBits, 0, allBits, allBits], stFormat)] fun s =>
      withRecord s (pq e 2) n fun d =>
        checked s [(d.any fun w => !eqOk w, stFormat)] fun s => okWith (d.foldl loadEq s) []) s)

/-- Lane state codes, in the order of R209. -/
def laneCode : LaneState → Nat
  | .down => 0 | .detect => 1 | .polarity => 2 | .slip => 3 | .lock => 4 | .ordered => 5 | .run => 6

/-- What LINK_STATUS writes for a group, eight dwords: lane states and logical order by physical lane, L_m, accepted epoch,
SERIAL (R395). -/
def groupDws (s : State) (g : Nat) : List Dword :=
  let ls := groupLanes g
  let x := groupAt s g
  let d0 := (List.range ls.length).foldl (fun a i =>
    let l := laneAt s (ls.getD i 0)
    a + laneCode l.state * 16 ^ i + (l.logical.getD 15) * 2 ^ (16 + 4 * i)) 0
  [BitVec.ofNat 32 d0, BitVec.ofNat 32 x.latency, x.accEpoch, fdw x.touch 3, fdw x.touch 4, 0, 0, 0]

/-- LINK_STATUS (R395). -/
def execLinkStatus (e : Entry) (s : State) : Host.Outcome State Fault Refusal :=
  .next (command [0x0115] e (fun _ s =>
    checked s [(!rsvOk e [allBits, allBits], stFormat)] fun s =>
      okWith (hostPutDws s (pq e 0) ((List.range 45).flatMap (groupDws s))) []) s)

/-- MODULE_AUTH (R446): the touchmark is read afresh; TMDATA brings its end. -/
def execModuleAuth (e : Entry) (s : State) : Host.Outcome State Fault Refusal :=
  .next (command [0x090A] e (fun _ s =>
    let g := fld (pw e 0) 0 6
    let keyId := fld (pw e 1) 0 16
    let a := pq e 2
    if !rsvOk e [0x3F, 0xFFFF, allBits, allBits] || decide (40 ≤ g) || a % 8 != 0 then reject s stFormat
    else if (runningAuth s g).isSome then .waits
    else if hostReadEnd s a 96 ≠ .ok then reject s stHostReadError
    else if (groupAt s g).run = false then .done (authOutcome s g stModuleAbsent keyId) stModuleAbsent []
    else .runs (startRead (setGroup s g fun x => { x with auth := true }) g 0) ((hostBytes s a 96).map BitVec.toNat)) s)

end Sys2Proof.Machine
end

