-- ==== Sys2Proof/Machine/Assay.lean ====
section
/-! DEFINITION. The assay: its commands, scans and the web lines they show, coverage and density, paper white, column
statistics and streaks, the census and its verdicts, curve control and the updates it forms (R226, R227, R231 to R257). -/

namespace Sys2Proof.Machine

/-! Columns and pixels (R32, R34, R236). -/

/-- The positions and physical columns that can print logical column `x`, the primary first (R34). -/
def candidates (x : Nat) : List (Nat × Nat) :=
  let u := x + 128
  let j := u / 16384
  let c := u % 16384
  let (j1, c1) := if j = 10 then (9, c + 16384) else (j, c)
  if c1 < 256 ∧ 1 ≤ j1 then [(j1, c1), (j1 - 1, c1 + 16384)] else [(j1, c1)]

/-- The entry of a plane's index table for a position and physical column (R94). -/
def indexOf (jc : Nat × Nat) : Nat := pcols * jc.1 + jc.2

/-- x_u in 1/4,096 column. -/
def pixelX (c : CamCfg) (u : Nat) : Int := c.x0 + u * c.pitch

/-- round(x_u), halves up. -/
def pixelCol (c : CamCfg) (u : Nat) : Int := (pixelX c u + 2048) / 4096

/-- The logical columns pixel `u` owns, first and the one after the last: ⌈x_u ∓ PITCH / 2⌉. -/
def ownedFrom (c : CamCfg) (u : Nat) : Int × Int :=
  let up := fun (v : Int) => -((-v) / 8192)
  (up (2 * pixelX c u - c.pitch), up (2 * pixelX c u + c.pitch))

/-- The logical columns of the bar that pixel `u` owns. -/
def ownedCols (c : CamCfg) (u : Nat) : List Nat :=
  let (a, z) := ownedFrom c u
  (List.range (z - a).toNat).filterMap fun (i : Nat) =>
    let x := a + (i : Int)
    if 0 ≤ x ∧ x < 163840 then some x.toNat else none

/-- The used pixels of a camera. -/
def usedPixels (c : CamCfg) : List Nat := (List.range c.pixCount).map fun i => c.pixFirst + i

/-- A camera setting not enabled. -/
def CamCfg.off : CamCfg := { en := false, pulse := 0, lag := 0, pixFirst := 0, pitch := 16384, pixCount := 1, x0 := 0, pos := 0 }

/-- The setting of camera `k`. -/
def camCfg (a : AsySetup) (k : Nat) : CamCfg := a.cams.getD k CamCfg.off

/-- Camera `k`. -/
def camAt (s : State) (k : Nat) : Camera := s.asy.cams.getD k Camera.reset

/-- Camera `k` changed. -/
def setCam (s : State) (k : Nat) (f : Camera → Camera) : State :=
  { s with asy := { s.asy with cams := modAt f s.asy.cams k } }

/-- Camera `k` feeds the assay: enabled, its pair in RUN, its pulse output enabled from ticks, its alignment established
(R231). `aligned` is left to the caller where it is about to be fixed. -/
def cameraFed (s : State) (a : AsySetup) (k : Nat) : Bool :=
  let c := camCfg a k
  let p := s.pulses.getD c.pulse Pulse.reset
  c.en && (groupAt s (40 + k)).run && p.enable && !p.src

/-- The usable cameras (R231). -/
def usable (s : State) (a : AsySetup) (k : Nat) : Bool := cameraFed s a k && (camAt s k).aligned.isSome

/-- A camera has a used pixel that owns a column. -/
def ownsCol (c : CamCfg) (x : Int) : Bool :=
  let near := (x * 4096 - c.x0) / (max 1 c.pitch : Nat)
  [near - 1, near, near + 1, near + 2].any fun u =>
    decide (0 ≤ u ∧ (c.pixFirst : Int) ≤ u ∧ u < c.pixFirst + c.pixCount) &&
    decide ((ownedFrom c u.toNat).1 ≤ x ∧ x < (ownedFrom c u.toNat).2)

/-- The camera that observes a logical column (R236). -/
def observer (s : State) (a : AsySetup) (x : Int) : Option Nat :=
  (List.range 4).find? fun k => usable s a k && ownsCol (camCfg a k) x

/-- The columns pixel `u` owns but for those that another camera observes, which it ignores (R236). -/
def observedCols (s : State) (a : AsySetup) (k u : Nat) : List Nat :=
  (ownedCols (camCfg a k) u).filter fun x => (observer s a x).getD k == k

/-- Pixel `u` of camera `k` is observed: the camera observes its column and its white is known (R236, R238). -/
def pixelObserved (s : State) (a : AsySetup) (k u : Nat) : Bool :=
  observer s a (pixelCol (camCfg a k) u) == some k && decide (64 ≤ mapGet 0 (camAt s k).whiteN u)

/-! Coverage and density (R238, R239, R241). -/

/-- M[p][ch] in 1/4,096. -/
def matrixAt (a : AsySetup) (p ch : Nat) : Nat := a.matrix.getD (3 * p + ch) 0

/-- ch_p: the channel of the largest entry, the lowest on a tie (R239). -/
def viewChannel (a : AsySetup) (p : Nat) : Nat :=
  let m := matrixAt a p
  if m 1 ≤ m 0 ∧ m 2 ≤ m 0 then 0 else if m 2 ≤ m 1 then 1 else 2

/-- The format of plane `p` in the open job. -/
def planeFormat (s : State) (p : Nat) : Nat :=
  match s.job with
  | some j => (match j.planes[p]? with | some c => c.format | none => 0)
  | none => 0

/-- The module of plane `p` whose slice prints a logical column. -/
def moduleFor (p : Nat) (x : Int) : Nat := 10 * (p / 4) + ((candidates (clampI x 0 163839).toNat).headD (0, 0)).1

/-- c_p in 1/1,020 at logical column `x` on web line `n` (R239): contone samples count 4, bypass levels 85. -/
def coverage (s : State) (p : Nat) (x n : Int) : Nat :=
  match pageAt s n with
  | none => 0
  | some pg =>
    match pg.n0 with
    | none => 0
    | some n0 =>
      let d := x - timedAt s.web.xShift p n
      let m := moduleFor p x
      match (sourceAt pg n0 p n).1 with
      | .page y =>
        if planeFormat s p = 2 then
          85 * ((List.range 4).map fun (i : Nat) => lw2 pg p 2 (4 * (d / 4) + (i : Int)) y).sum
        else 4 * cs s pg m p (d / 4) (y / (4 / (jobS s : Int)))
      | .flat v => if planeFormat s p = 2 then 0 else 4 * v
      | _ => 0

/-- A line-work sample of plane `p` is not 0 in one of the columns (R238, R241). -/
def linework (s : State) (p : Nat) (cols : List Nat) (n : Int) : Bool :=
  match pageAt s n with
  | none => false
  | some pg =>
    match pg.n0 with
    | none => false
    | some n0 =>
      match (sourceAt pg n0 p n).1 with
      | .page y => cols.any fun x => lw2 pg p 1 ((x : Int) - timedAt s.web.xShift p n) y != 0
      | _ => false

/-- log10(num / den) in 1/65,536, rounded down. -/
def log10q (num den : Nat) : Int :=
  if den ≤ num then (Nat.log 10 (num ^ 65536 / den ^ 65536) : Int)
  else -(Nat.clog 10 (cdiv (den ^ 65536) (num ^ 65536)) : Int)

/-- D_ch of R239 in 1/65,536, from white in 1/65,536; free where white is 0. -/
def density (w y : Nat) : Int := if w = 0 then Config.densityNoWhite y else log10q w (65536 * max y 1)

/-- ε of R241 in 1/65,536: D in 1/65,536, `own` = M c of the plane and `all` the sum over the planes in use, both in
1/(4,096 × 1,020). -/
def epsilon (d : Int) (own all_ : Nat) : Int := (255 * d - 4 * (all_ : Int)) * 65536 / (4 * own : Nat)

/-- Y of pixel `u`, channel `ch`, of a scan. -/
def sampleY (pixels : List (List Nat)) (pix0 u ch : Nat) : Nat := (pixels.getD (u - pix0) []).getD ch 0

/-- A scan as it is used: camera, first pixel, pixels, the web line it shows, the stamp of its pulse (R366). -/
structure ScanRead where
  k : Nat
  pix0 : Nat
  pixels : List (List Nat)
  line : Int
  stamp : Nat × Nat
deriving DecidableEq, Repr

/-- The used pixels that the scan holds. -/
def scanPixels (a : AsySetup) (r : ScanRead) : List Nat :=
  (usedPixels (camCfg a r.k)).filter fun u => decide (r.pix0 ≤ u ∧ u < r.pix0 + r.pixels.length)

/-- Paper white of one pixel moves toward the sample (R238). -/
def whiteStep (c : Camera) (r : ScanRead) (u : Nat) : Camera :=
  let w := (List.range 3).foldl (fun (m : Sparse Int) (ch : Nat) =>
    let old := mapGet 0 m (3 * u + ch)
    mapSet 0 m (3 * u + ch) (old + ((sampleY r.pixels r.pix0 u ch : Int) * 65536 - old) / 64)) c.white
  { c with white := w, whiteN := mapSet 0 c.whiteN u (mapGet 0 c.whiteN u + 1) }

/-- W[u][ch] in 1/65,536. -/
def whiteAt (s : State) (k u ch : Nat) : Nat := (mapGet 0 (camAt s k).white (3 * u + ch)).toNat

/-- The scan updates white where every plane in use has coverage 0 and no line-work (R238). -/
def whiteScan (s : State) (a : AsySetup) (r : ScanRead) : State :=
  let c := camCfg a r.k
  let blank := (scanPixels a r).filter fun u =>
    (planesInUse s).all fun p => coverage s p (pixelCol c u) r.line == 0 && !linework s p (ownedCols c u) r.line
  setCam s r.k fun cam => blank.foldl (fun x u => whiteStep x r u) cam

/-! Samples and windows (R241, R242, R250). -/

/-- A qualifying sample's ε of plane `p` at pixel `u` (R241). -/
def sampleOf (s : State) (a : AsySetup) (r : ScanRead) (p u : Nat) : Option Int :=
  let c := camCfg a r.k
  let x := pixelCol c u
  let ch := viewChannel a p
  let cov := fun q => coverage s q x r.line
  let own := matrixAt a p ch * cov p
  let all_ := ((planesInUse s).map fun q => matrixAt a q ch * cov q).sum
  let ok := a.observe.getD p false && pixelObserved s a r.k u && decide (4 * a.covMin ≤ cov p) &&
    !((planesInUse s).any fun q => linework s q (ownedCols c u) r.line) && !excludedAt s p x r.line &&
    decide (0 < own ∧ 4 * (all_ - own) ≤ own)
  if ok then some (epsilon (density (whiteAt s r.k u ch) (sampleY r.pixels r.pix0 u ch)) own all_) else none

/-- A window of a camera, plane and pixel in a list. -/
def winAt (l : List Win) (k p u : Nat) : Win :=
  (l.find? fun w => w.cam == k && w.plane == p && w.pix == u).getD
    { cam := k, plane := p, pix := u, sum := 0, count := 0, closed := none, streak := false, stamp := (0, 0) }

/-- A window put in its place. -/
def putWin (l : List Win) (w : Win) : List Win := (l.filter fun x => !(x.cam == w.cam && x.plane == w.plane && x.pix == w.pix)) ++ [w]

/-- The most recent closed ē of the pixels within 8 of `u` (R242). -/
def neighbours (s : State) (k p u : Nat) : List Int :=
  (s.asy.windows.filter fun w => w.cam == k && w.plane == p && w.pix != u &&
    decide (w.pix ≤ u + 8 ∧ u ≤ w.pix + 8)).filterMap Win.closed

/-- The mean of a list, rounded down. -/
def meanOf (l : List Int) : Int := l.sum / (l.length : Int)

/-- ē differs from the neighbours' mean by more than STREAK_THR / 1,024; fewer than 4 neighbours compare nothing (R242). -/
def streakSeen (thr : Nat) (e : Int) (near : List Int) : Bool :=
  decide (4 ≤ near.length ∧ (thr : Int) * near.length * 65536 < ((near.length : Int) * e - near.sum).natAbs * 1024)

/-- The copy of plane `p`'s index entry that v_u is read from: the newest, or while CURVE_LOCK holds the one of its commit
point (R250, R252). -/
def entryNow (s : State) (p x : Nat) : Nat :=
  let (base, upds) := s.asy.lockTables.getD (s.tables.entries, s.tables.curveUpds)
  latestOf (mapGet 0 base (entryKey p x)) (upds.filterMap fun u => (assoc u.entries (entryKey p x)).map fun k => (u.line, k))

/-- The variant an index entry of plane `p` names; 0 where it names no variant of the plane's block (R249). -/
def variantOf (a : AsySetup) (p e : Nat) : Int :=
  let v : Int := (e : Int) - (a.curveBase + 32 * p + 15 : Nat)
  if -15 ≤ v ∧ v ≤ 15 then v else 0

/-- v_u: from the primary candidate of the pixel's lowest owned column (R250). -/
def pixelVariant (s : State) (a : AsySetup) (k p u : Nat) : Int :=
  match ownedCols (camCfg a k) u with
  | [] => 0
  | x :: _ => variantOf a p (entryNow s p (indexOf ((candidates x).headD (0, 0))))

/-- v / d rounded, halves away from 0. -/
def roundAway (v : Int) (d : Nat) : Int :=
  let q := (2 * v.natAbs + d) / (2 * d)
  if v < 0 then -(q : Int) else q

/-- v_t of R250. -/
def targetVariant (gain : Nat) (v e : Int) : Int := clampI (v - roundAway ((gain : Int) * 100 * e) (256 * 65536)) (-15) 15

/-- What a pixel wants: the target, where it differs from the present variant (R250). -/
def wantVariant (s : State) (a : AsySetup) (k p u : Nat) (e : Int) : State :=
  let v := pixelVariant s a k p u
  let t := targetVariant a.gain v e
  let rest := s.asy.wants.filter fun w => !(w.1 == k && w.2.1 == p && w.2.2.1 == u)
  { s with asy := { s.asy with wants := if t = v then rest else rest ++ [(k, p, u, t)] } }

/-- A window closes with ē (R242, R250). -/
def closeWindow (s : State) (a : AsySetup) (k p u : Nat) (e : Int) : State :=
  let near := neighbours s k p u
  let hit := streakSeen a.streakThr e near
  let w := winAt s.asy.windows k p u
  let s1 := { s with asy := { s.asy with windows := putWin s.asy.windows { w with closed := some e, streak := w.streak || hit } } }
  if hit then
    raise (addDue (count s1 (cnum 5 6)) p) 0x0502
      (it k ++ it u ++ it p ++ it (pixelCol (camCfg a k) u) ++ it e ++ it (meanOf near))
  else if !w.streak && a.autoCurve.getD p false then wantVariant s1 a k p u e else s1

/-- The scan shows a patch line of plane `p`'s density stripe that yields samples: `some true` for lines 16 to 47 of a patch,
`some false` for its other lines, `none` outside a stripe (R246). -/
def stripeLine (s : State) (p : Nat) (n : Int) : Option Bool :=
  match pageAt s n with
  | none => none
  | some pg =>
    match pg.n0, pg.band with
    | some n0, some b =>
      let w := n - n0 - pg.lines
      if w < 0 then none
      else
        let i := w.toNat % b.slotLines
        if b.planes[w.toNat / b.slotLines]? = some p ∧ 768 ≤ i then some (decide (16 ≤ i % 64 ∧ i % 64 < 48)) else none
    | _, _ => none

/-- A qualifying sample of scan `r` joins its window, or the stripe's where the scan shows one (R241, R246). -/
def addSample (s : State) (a : AsySetup) (r : ScanRead) (p u : Nat) (e : Int) : State :=
  let k := r.k
  match stripeLine s p r.line with
  | some true =>
    let w := { winAt s.asy.stripe k p u with stamp := r.stamp }
    { s with asy := { s.asy with stripe := putWin s.asy.stripe { w with sum := w.sum + e, count := w.count + 1 } } }
  | some false => s
  | none =>
    let w := { winAt s.asy.windows k p u with stamp := r.stamp }
    let sum := w.sum + e
    if a.streakN ≤ w.count + 1 then
      let s1 := { s with asy := { s.asy with windows := putWin s.asy.windows { w with sum := 0, count := 0 } } }
      closeWindow s1 a k p u (sum / ((w.count + 1 : Nat) : Int))
    else { s with asy := { s.asy with windows := putWin s.asy.windows { w with sum := sum, count := w.count + 1 } } }

/-- The samples of one pixel, plane by plane. -/
def pixelSamples (a : AsySetup) (r : ScanRead) (s : State) (u : Nat) : State :=
  (planesInUse s).foldl (fun t p =>
    match sampleOf s a r p u with
    | some e => addSample t a r p u e
    | none => t) s

/-! Census drops (R245, R247). -/

/-- Web line `n` is a census line of plane `p`: the row segment and the line within it (R245). -/
def censusLine (s : State) (p : Nat) (n : Int) : Option (Nat × Nat) :=
  match pageAt s n with
  | none => none
  | some pg =>
    match pg.n0 with
    | none => none
    | some n0 =>
      match sourceAt pg n0 p n with
      | (.census k, row) => some (row, k)
      | _ => none

/-- The ejectors of plane `p` that fire a census drop at logical column `x` on web line `n` (R245). -/
def dropEjectors (s : State) (p x : Nat) (n : Int) : List Nat :=
  match censusLine s p n with
  | none => []
  | some (row, k) =>
    ((candidates x).filter fun jc => k % 16 == (jc.2 + 8 * (jc.1 % 2)) % 16).map fun jc =>
      ordinal (10 * (p / 4) + jc.1) (p % 4) jc.2 row

/-- 1 − Y / W in 1/65,536, W in 1/65,536; free where white is 0. -/
def dropValue (w y : Nat) : Int := if w = 0 then Config.dropNoWhite y else 65536 - ((y * 65536 * 65536 / w : Nat) : Int)

/-- The drop of an ejector at a column and line takes the largest value over its scans. -/
def putDrop (l : List Drops) (stamp : Nat × Nat) (ord : Nat) (x n g : Int) : List Drops :=
  let mine := (l.find? fun d => d.ejector == ord).getD { ejector := ord, values := [], stamp := stamp }
  let rest := mine.values.filter fun v => !(v.1 == x && v.2.1 == n)
  let best := (mine.values.filter fun v => v.1 == x && v.2.1 == n).foldl (fun (acc : Int) v => max acc v.2.2) g
  (l.filter fun d => d.ejector != ord) ++ [{ mine with values := rest ++ [(x, n, best)], stamp := stamp }]

/-- The drops of plane `p` that one pixel of a scan shows: those of its owned columns on the web lines within 2 of the scan's
(R247). -/
def pixelDrops (a : AsySetup) (r : ScanRead) (s : State) (u : Nat) : State :=
  if !decide (64 ≤ mapGet 0 (camAt s r.k).whiteN u) then s
  else
    let cols := observedCols s a r.k u
    let planes := (observedPlanes s).filter fun p => (List.range 5).any fun (i : Nat) =>
      (censusLine s p (r.line + (i : Int) - 2)).isSome
    let l := planes.foldl (fun (acc : List Drops) p =>
      let ch := viewChannel a p
      let g := dropValue (whiteAt s r.k u ch) (sampleY r.pixels r.pix0 u ch)
      cols.foldl (fun acc x => (List.range 5).foldl (fun acc (i : Nat) =>
        let n := r.line + (i : Int) - 2
        (dropEjectors s p x n).foldl (fun acc o => putDrop acc r.stamp o x n g) acc) acc) acc) s.asy.drops
    { s with asy := { s.asy with drops := l } }

/-! Scans (R226, R227, R234 to R236). -/

/-- The web line a scan shows, from the line of its pulse (R236). -/
def shownLine (s : State) (c : CamCfg) (nt : Int) : Int := nt - ((c.pos : Int) + 128 * jobS s) / (256 * (jobS s : Int))

/-- A scan used: white, samples and census drops (R238, R241, R247). Its own white update comes first (log 153). -/
def useScan (s : State) (a : AsySetup) (r : ScanRead) : State :=
  let s1 := count s (cnum 5 r.k)
  let s2 := { s1 with asy := { s1.asy with shown := (s1.asy.shown.filter fun x => x.1 != r.k) ++ [(r.k, r.line)] } }
  let s3 := whiteScan s2 a r
  let us := scanPixels a r
  us.foldl (pixelDrops a r) (us.foldl (pixelSamples a r) s3)

/-- The pulse of a scan as a place in the ring, 0 the latest at its SCAN: for the first valid scan CAM_LAG before the latest
pulse, later by the difference of TRIG modulo 2¹⁶ (R234). The alignment fixed is answered too. -/
def scanPulse (s : State) (c : CamCfg) (k trig atScan : Nat) : Nat × (Nat × Nat) :=
  let total := (s.pulses.getD c.pulse Pulse.reset).total
  let al := (camAt s k).aligned.getD (trig, (atScan + 2 ^ 16 - c.lag) % 2 ^ 16)
  let number := (al.2 + (trig + 2 ^ 16 - al.1)) % 2 ^ 16
  ((total % 2 ^ 16 + 2 ^ 16 - number) % 2 ^ 16, al)

/-- A scan that is whole: aligned, matched to its web line and used, or discarded as stale (R234, R235). The pulses counted are those
of the setup's own PULSE at its SCAN. -/
def matchScan (s : State) (k trig pix0 : Nat) (totals : List Nat) (pixels : List (List Nat)) : State :=
  match s.asy.setup with
  | none => s
  | some a =>
    if !cameraFed s a k then s
    else
      let c := camCfg a k
      let (back, al) := scanPulse s c k trig (totals.getD c.pulse 0)
      let s1 := setCam s k fun x => { x with aligned := some al }
      let p := s.pulses.getD c.pulse Pulse.reset
      match p.ring[back]? with
      | none => count s1 (cnum 5 4)
      | some nt =>
        useScan s1 a { k := k, pix0 := pix0, pixels := pixels, line := shownLine s c nt, stamp := p.stamps.getD back (0, 0) }

/-- Colour sample `i` of a scan's data words: `depth` bits, most-significant first, packed from bit 63 of the first word
(R226). -/
def scanSample (ws : List Qword) (depth i : Nat) : Nat :=
  (List.range depth).foldl (fun a b =>
    let k := i * depth + b
    2 * a + (if (ws.getD (k / 64) 0).getLsbD (63 - k % 64) then 1 else 0)) 0

/-- The pixels of a scan: red, green and blue of 8 or 10 bits each (R226). -/
def scanPixelsOf (ws : List Qword) (deep : Bool) (npix : Nat) : List (List Nat) :=
  (List.range npix).map fun u => (List.range 3).map fun c => scanSample ws (if deep then 10 else 8) (3 * u + c)

/-- SCAN (R226, R227): a scan opens; one still open is an overrun, discarded, and SCAN_OVERRUN, with the TRIG of the scan
discarded (log 149), is raised once per page, whatever the cameras: where some PRINTING page has not had it, and at every
overrun with none PRINTING (log 150). -/
def execScan (k trig pix0 npix : Nat) (deep : Bool) (s : State) : Host.Outcome State Fault Refusal :=
  if 4 ≤ k ∨ (groupAt s (40 + k)).run = false then .next s
  else
    let s1 := match (camAt s k).open_ with
      | some o =>
        let s0 := setCam (count s (cnum 4 (810 + k))) k fun c => { c with lastTrig := some o.trig }
        let (new, t) := oncePrinting s0 0x040F
        raiseIf (new || (printingPages s0).isEmpty) t 0x040F (it k ++ it o.trig)
      | none => s
    let o : OpenScan := { trig := trig % 2 ^ 16, pix0 := pix0, npix := npix, deep := deep, totals := s.pulses.map Pulse.total }
    .next (setCam s1 k fun c => { c with open_ := some o })

/-- SCANEND (R226, R236): a scan whose CRC fails or whose TRIG does not follow is discarded and counted; any other is fed to
the assay. -/
def execScanend (k trig : Nat) (crc : Dword) (words : List Qword) (s : State) : Host.Outcome State Fault Refusal :=
  if 4 ≤ k ∨ (groupAt s (40 + k)).run = false then .next s
  else match (camAt s k).open_ with
  | none => .next s
  | some o =>
    let s1 := setCam s k fun c => { c with open_ := none, lastTrig := some o.trig }
    let follows := match (camAt s k).lastTrig with | some l => o.trig == (l + 1) % 2 ^ 16 | none => true
    if crc32q words == crc.toNat && follows && o.trig == trig % 2 ^ 16 then
      .next (matchScan s1 k o.trig o.pix0 o.totals (scanPixelsOf words o.deep o.npix))
    else .next (count s1 (cnum 4 (810 + k)))

/-! Setup (R232, R233, R249). -/

/-- Camera `k`'s settings in a setup record. -/
def camOf (d : List Dword) (k : Nat) : CamCfg :=
  let w := fun i => rdw d (4 * k + 4 + i)
  { en := bitOf (w 0) 31, pulse := fld (w 0) 29 2, lag := fld (w 0) 27 2, pixFirst := fld (w 0) 0 16
    pitch := fld (w 1) 16 16, pixCount := fld (w 1) 0 14, x0 := signed 32 (w 2).toNat, pos := (w 3).toNat }

/-- A threshold whose 0 selects a value. -/
def orElse (v d : Nat) : Nat := if v = 0 then d else v

/-- The setup of a record (R232). -/
def setupOf (d : List Dword) : AsySetup :=
  let plane := fun (f : Dword → Bool) => (List.range 16).map fun p => f (rdw d (20 + p))
  { censusEvery := fld (rdw d 0) 16 8, censusG := fld (rdw d 0) 8 5, densityEn := bitOf (rdw d 0) 0
    streakN := fld (rdw d 1) 16 16, streakThr := orElse (fld (rdw d 1) 8 8) 20, covMin := orElse (fld (rdw d 1) 0 8) 48
    cenDead := orElse (fld (rdw d 2) 24 8) 64, cenWeak := orElse (fld (rdw d 2) 16 8) 154, kmax := fld (rdw d 2) 12 4
    reinstate := orElse (fld (rdw d 2) 8 4) 2, gain := fld (rdw d 2) 0 8, curveBase := fld (rdw d 3) 0 12
    cams := (List.range 4).map (camOf d)
    baseCurve := (List.range 16).map fun p => fld (rdw d (20 + p)) 20 12
    autoCurve := plane fun w => bitOf w 1
    observe := plane fun w => bitOf w 0
    matrix := (List.range 48).map fun i => fld (rdw d (36 + i / 2)) (16 * (i % 2)) 16
    raw := d }

/-- The bits a setup record uses. -/
def setupMasks : List Nat :=
  [0xFFFF1F01, allBits, allBits, 0x00000FFF] ++
  ((List.range 4).flatMap fun _ => [0xF800FFFF, 0xFFFF3FFF, allBits, allBits]) ++
  List.replicate 16 0xFFF00003 ++ List.replicate 24 allBits ++ List.replicate 4 0

/-- A camera's fields lie in range, enabled or not, and an enabled camera's pixels do not pass 65,535. -/
def camOk (c : CamCfg) : Bool :=
  decide (12288 ≤ c.pitch ∧ c.pitch ≤ 20480 ∧ 1 ≤ c.pixCount) && (!c.en || decide (c.pixFirst + c.pixCount - 1 ≤ 65535))

/-- The FORMAT checks of R232 and R233. -/
def setupOk (s : State) (d : List Dword) : Bool :=
  let a := setupOf d
  let used := planesInUse s
  recRsvOk d setupMasks && fld (rdw d 0) 24 8 == 1 && decide (1 ≤ a.censusG ∧ a.censusG ≤ 16) && decide (16 ≤ a.streakN) &&
  decide (a.cenDead < a.cenWeak) && decide (a.kmax ≤ 11) && decide (a.curveBase % 32 = 0 ∧ a.curveBase ≤ 3584) &&
  a.cams.all camOk && (List.range 16).all fun p =>
    let auto := a.autoCurve.getD p false
    let obs := a.observe.getD p false
    let base := a.baseCurve.getD p 0
    (!auto || (used.contains p && planeFormat s p != 2 && !decide (a.curveBase ≤ base ∧ base ≤ a.curveBase + 511))) &&
    (!obs || (used.contains p && decide (0 < matrixAt a p 0 + matrixAt a p 1 + matrixAt a p 2)))

/-- R237 for every observed plane and enabled camera, under the offsets in force and pending. -/
def setupSees (s : State) (a : AsySetup) : Bool :=
  (List.range 16).all fun p => !a.observe.getD p false || a.cams.all fun c => !c.en ||
    (d256At s p (lineCounter s) :: (timedPending s.web.dOff p (lineCounter s)).map Prod.snd).all (camGeometryOk s c)

/-- The planes under curve control. -/
def autoPlanes (a : AsySetup) : List Nat := (List.range 16).filter fun p => a.autoCurve.getD p false

/-- The newest copy of curve `e`, pending updates applied. -/
def curveNow (s : State) (e : Nat) : List Nat :=
  latestOf (mapGet unitCurve s.tables.curves e)
    (s.tables.curveUpds.filterMap fun u => (assoc u.curves e).map fun k => (u.line, k))

/-- The newest copy of an index entry. -/
def entryNewest (s : State) (p x : Nat) : Nat :=
  latestOf (mapGet 0 s.tables.entries (entryKey p x))
    (s.tables.curveUpds.filterMap fun u => (assoc u.entries (entryKey p x)).map fun k => (u.line, k))

/-- Variant `v` of a base curve (R249): `w` is 100 + v. -/
def variantCurve (base : List Nat) (w : Nat) : List Nat := base.map fun k => min 4095 ((k * w + 50) / 100)

/-- The variants of plane `p`'s block (R249). -/
def planeVariants (s : State) (a : AsySetup) (p : Nat) : List (Nat × List Nat) :=
  (List.range 31).map fun i => (a.curveBase + 32 * p + i, variantCurve (curveNow s (a.baseCurve.getD p 0)) (85 + i))

/-- The index entries of plane `p`: one that names a curve of its block stands, every other names variant 0 (R249). -/
def planeEntries (s : State) (a : AsySetup) (p : Nat) : List (Nat × Nat) :=
  (List.range 166400).filterMap fun x =>
    let e := entryNewest s p x
    let lo := a.curveBase + 32 * p
    if lo ≤ e ∧ e < lo + 32 then none else some (entryKey p x, lo + 15)

/-- The line a curve-set update of the assay takes: the earliest of R104. -/
def assayLine (s : State) (curves : List (Nat × List Nat)) (entries : List (Nat × Nat)) : Int :=
  changeFloor s (updPlanes s { line := 0, curves := curves, entries := entries, assay := true, out := false })

/-- CURVES messages of an update's entries, as many as a message's LEN needs (R267, R268). -/
def curvesParts (s : State) (line : Int) : Nat → List (Nat × Nat) → State
  | 0, _ => s
  | fuel + 1, es =>
    let part := es.take 65000
    let s1 := tellServitor s 2 (BitVec.ofNat 64 (s.tables.curveGen * 2 ^ 48 + part.length) :: sq line ::
      part.map fun e => BitVec.ofNat 64 (e.1 / 166400 * 2 ^ 60 + e.1 % 166400 * 2 ^ 42 + e.2 * 2 ^ 30))
    if es.length ≤ 65000 then s1 else curvesParts s1 line fuel (es.drop 65000)

/-- CURVES (R268): an assay curve update told to the servitor. -/
def tellCurves (s : State) (u : CurveUpd) : State := curvesParts s u.line (u.entries.length / 65000 + 1) u.entries

/-- Poison in the copies that an update's curves replace ends with them (R106). -/
def endCurvePoison (s : State) (u : CurveUpd) : State :=
  u.curves.foldl (fun t c => endPoison t kindCurve c.1 (changeLine s u.line)) s

/-- An assay curve update formed: committed, counted, reported and told (R251, R268). -/
def formCurves (s : State) (curves : List (Nat × List Nat)) (entries : List (Nat × Nat)) : State :=
  let u : CurveUpd := { line := assayLine s curves entries, curves := curves, entries := entries, assay := true, out := false }
  let s1 := addCurveUpd s u
  let s3 := raise (count (endCurvePoison s1 u) (cnum 5 14)) 0x0506 (it s1.tables.curveGen ++ itq u.line ++ it entries.length)
  tellCurves s3 u

/-- Camera alignments that a new setup's PULSE or CAM_LAG does not fit are void. -/
def realign (s : State) (old : Option AsySetup) (a : AsySetup) : State :=
  match old with
  | none => s
  | some o => (List.range 4).foldl (fun t k =>
      if (camCfg o k).pulse = (camCfg a k).pulse ∧ (camCfg o k).lag = (camCfg a k).lag then t else unalignCamera t k) s

/-- The variants of every AUTO_CURVE plane's block (R249). -/
def setupVariants (s : State) (a : AsySetup) : List (Nat × List Nat) := (autoPlanes a).flatMap (planeVariants s a)

/-- An update of the gaffer's that may be the one of its ASSAY_SETUP: pending, every entry it carries names variant 0 of its plane
(R249). DEDUCED (log 184): CURVES carries entries only (R268), and the variants of that update are the servitor's own to write. -/
def setupUpdate (s : State) (a : AsySetup) (u : CurveUpd) : Bool :=
  u.assay && u.curves.isEmpty && updPending s u && u.entries.all fun e => e.2 == a.curveBase + 32 * (e.1 / 166400) + 15

/-- An update of the gaffer's writes the variants of the setup's block in the servitor too (R253, R271). -/
def withVariants (s : State) (a : AsySetup) (u : CurveUpd) : CurveUpd := { u with curves := setupVariants s a }

/-- A servitor's assay has started: the gaffer's update of its setup has come and takes the variants, or is still to come (R271). -/
def awaitVariants (s : State) (a : AsySetup) : State :=
  match s.tables.curveUpds.findIdx? (setupUpdate s a) with
  | some i =>
    let upds := modAt (withVariants s a) s.tables.curveUpds i
    let s1 := { s with tables := { s.tables with curveUpds := upds }, asy := { s.asy with variantsDue := false } }
    match upds[i]? with
    | some u => endCurvePoison s1 u
    | none => s1
  | none => { s with asy := { s.asy with variantsDue := true } }

/-- The assay starts or starts again (R233, R249); only a chip that forms updates forms the one of its curves (R253). DESIGN CHOICE
(log 186): the census drops gathered so far are discarded with the statistics. -/
def startAssay (s : State) (a : AsySetup) : State :=
  let old := s.asy.setup
  let s1 := { s with asy := { s.asy with setup := some a, windows := [], stripe := [], wants := [], drops := [], variantsDue := false } }
  let s2 := realign s1 old a
  if (autoPlanes a).isEmpty || s.asy.curveLock then s2
  else if servitor s then awaitVariants s2 a
  else if !forms s then s2
  else formCurves s2 (setupVariants s2 a) ((autoPlanes a).flatMap (planeEntries s2 a))

/-- ASSAY_SETUP (R232, R233, R237, R249). -/
def execAssaySetup (e : Entry) (s : State) : Host.Outcome State Fault Refusal :=
  .next (command [0x0301] e (fun _ s =>
    checked s [(!rsvOk e [0, 0, allBits, allBits] || pq e 2 % 64 != 0, stFormat), (s.job.isNone, stNoJob)] fun s =>
      withRecord s (pq e 2) 64 fun d =>
        let a := setupOf d
        let full := forms s && !(autoPlanes a).isEmpty && !s.asy.curveLock &&
          decide (8 ≤ (s.tables.curveUpds.filter (updPending s)).length)
        checked s [(!setupOk s d, stFormat), (!setupSees s a, stGeometry), (full, stPendingFull)] fun s =>
          okWith (startAssay s a) []) s)

/-- ASSAY_STOP (R255): the setup ends; statistics and the due set are discarded. -/
def execAssayStop (e : Entry) (s : State) : Host.Outcome State Fault Refusal :=
  .next (command [0x0302] e (fun _ s =>
    checked s [(!rsvOk e [], stFormat)] fun s =>
      okWith { s with asy := { s.asy with setup := none, windows := [], stripe := [], wants := [], due := [], variantsDue := false } } []) s)

/-- LOCKS (R268). -/
def tellLocks (s : State) : State :=
  let b := fun (x : Bool) (v : Nat) => if x then v else 0
  tellServitor s 0xA [BitVec.ofNat 64 (b s.asy.censusHold 4 + b s.asy.curveLock 2 + b s.asy.mapLock 1)]

/-- The locks take new values; v_u is held while CURVE_LOCK is set, and read afresh when it is cleared (R252). DESIGN CHOICE
(log 187): changes proposed and variants wanted under a lock are kept, and form an update once it is clear. -/
def putLocks (s : State) (mapL curveL hold : Bool) : State :=
  let kept := if curveL then some (s.asy.lockTables.getD (s.tables.entries, s.tables.curveUpds)) else none
  { s with asy := { s.asy with mapLock := mapL, curveLock := curveL, censusHold := hold, lockTables := kept } }

/-- ASSAY_LOCK (R252). -/
def execAssayLock (e : Entry) (s : State) : Host.Outcome State Fault Refusal :=
  .next (command [0x0303] e (fun _ s =>
    let w := pw e 0
    checked s [(!rsvOk e [0x707] || fld w 8 3 == 0, stFormat)] fun s =>
      let pick := fun (i : Nat) (old : Bool) => if bitOf w (8 + i) then bitOf w i else old
      let s1 := putLocks s (pick 0 s.asy.mapLock) (pick 1 s.asy.curveLock) (pick 2 s.asy.censusHold)
      let b := fun (x : Bool) (v : Nat) => if x then v else 0
      let now := b s1.asy.censusHold 4 + b s1.asy.curveLock 2 + b s1.asy.mapLock 1
      let was := b s.asy.censusHold 4 + b s.asy.curveLock 2 + b s.asy.mapLock 1
      okWith (if now = was then s1 else tellLocks s1) (it now)) s)

/-- CENSUS_REQUEST (R243, R255). -/
def execCensusRequest (e : Entry) (s : State) : Host.Outcome State Fault Refusal :=
  .next (command [0x0304] e (fun _ s =>
    checked s [(!rsvOk e [0xFFFF], stFormat)] fun s =>
      let s1 := ((observedPlanes s).filter fun p => bitOf (pw e 0) p).foldl addDue s
      okWith s1 (it ((s1.asy.due.map fun p => 2 ^ p).sum : Nat))) s)

/-! Results (R255, R404). -/

/-- The verdict byte of an ejector (R255). -/
def verdictByte (s : State) (k ord : Nat) : Byte :=
  let sig := match mapGet none s.asy.signals ord, mapGet none s.asy.rref k with
    | some v, some r =>
      if r ≤ 0 then Config.signalNoRef v % 64 else (clampI (32 * v / r) 0 63).toNat
    | _, _ => 0
  BitVec.ofNat 8 (mapGet 0 s.asy.verdicts ord * 64 + sig)

/-- A query's data has been written to host memory: where some of it was read poisoned, the write carries the EP bit and the
command completes with POISONED_DATA (R303). DESIGN CHOICE (log 159): the cut into TLPs is the chip's own, so the whole write is
marked. -/
def queryDone (s : State) (op addr bytes : Nat) (result : List Dword) : Reply :=
  if s.mem.queryPoison.contains op then
    let s1 := { s with mem := { s.mem with queryPoison := s.mem.queryPoison.erase op } }
    .done (emit s1 (.epWrite addr bytes)) stPoisonedData result
  else okWith s result

/-- ASSAY_RESULTS (R255, R404). -/
def execAssayResults (e : Entry) (s : State) : Host.Outcome State Fault Refusal :=
  .next (command [0x0305] e (fun _ s =>
    let m := fld (pw e 0) 0 6
    let q := fld (pw e 0) 8 2
    checked s [(!rsvOk e [0x33F, 0, allBits, allBits] || decide (40 ≤ m) || pq e 2 % 64 != 0, stFormat)] fun s =>
      let k := mp m q
      let bytes := (List.range 199680).map fun i => verdictByte s k (199680 * k + i)
      let line := match assoc s.asy.judged (planeOf m q) with | some n => itq n | none => itq (-1)
      let ref := match mapGet none s.asy.rref k with | some r => fld (BitVec.ofInt 32 r) 0 16 | none => 0
      queryDone (hostPut s (pq e 2) bytes) 0x0305 (pq e 2) bytes.length (line ++ it ref)) s)

/-- The record of one used pixel (R404). -/
def pixelRecord (s : State) (a : AsySetup) (k p u : Nat) : List Dword :=
  let w := winAt s.asy.windows k p u
  let v := if a.autoCurve.getD p false then unsignedOf 8 (pixelVariant s a k p u) else 0
  [BitVec.ofInt 32 (w.closed.getD 0),
   BitVec.ofNat 32 (u * 2 ^ 16 + (if w.closed.isSome then 2 ^ 9 else 0) + (if w.streak then 2 ^ 8 else 0) + v)]

/-- ASSAY_PIXELS (R255, R404); without a setup no pixel is used. -/
def execAssayPixels (e : Entry) (s : State) : Host.Outcome State Fault Refusal :=
  .next (command [0x0306] e (fun _ s =>
    let k := fld (pw e 0) 0 2
    let p := fld (pw e 0) 8 4
    checked s [(!rsvOk e [0xF03, 0, allBits, allBits] || pq e 2 % 8 != 0, stFormat)] fun s =>
      match s.asy.setup with
      | none => okWith s (it 0)
      | some a =>
        let us := usedPixels (camCfg a k)
        queryDone (hostPutDws s (pq e 2) (us.flatMap (pixelRecord s a k p))) 0x0306 (pq e 2) (8 * us.length) (it us.length)) s)

/-! The census judged (R247, R248). -/

/-- The median, the lower of the middle two of an even count (R247). -/
def medianOf (l : List Int) : Option Int := (l.insertionSort (· ≤ ·))[(l.length - 1) / 2]?

/-- The pages whose band holds plane `p`, with its slot's first line, in admission order. -/
def slotsOf (s : State) (p : Nat) : List (Page × Int) :=
  (((s.pages.list.filter takesLines).insertionSort fun a b => a.adm ≤ b.adm).filterMap fun pg =>
    match pg.band, pg.n0 with
    | some b, some n0 => if b.planes.contains p && !b.returned.contains p then some (pg, bandSlotStart pg b n0 p) else none
    | _, _ => none)

/-- The slot of plane `p` to judge next: the first after the last judged, its lines scanned by every usable camera and passed
by the line counter. The band's first web line goes with it. -/
def slotToJudge (s : State) (p : Nat) : Option (Int × Int × Nat) :=
  let after := (assoc s.asy.judged p).getD minI64
  let open_ := (slotsOf s p).filter fun x => match x.1.n0 with | some n0 => decide (after < n0 + x.1.lines) | none => false
  match open_ with
  | [] => none
  | (pg, start) :: _ =>
    let len : Nat := match pg.band with | some b => b.slotLines | none => 768
    let z := start + len + 1
    let seen := match s.asy.setup with
      | none => false
      | some a => (List.range 4).all fun k => !usable s a k || match assoc s.asy.shown k with
        | some l => decide (z ≤ l)
        | none => false
    if seen && decide (z ≤ lineCounter s) then some (start, pg.n0.getD 0 + pg.lines, len) else none

/-- The drop values of an ejector in a slot that are not excluded (R240, R247). -/
def slotValues (s : State) (p : Nat) (start : Int) (len : Nat) (d : Drops) : List Int :=
  (d.values.filter fun v => decide (start ≤ v.2.1 ∧ v.2.1 < start + len) && !excludedAt s p v.1 v.2.1).map fun v => v.2.2

/-- The signals of plane `p`'s ejectors over a slot (R247). -/
def slotSignals (s : State) (p : Nat) (start : Int) (len : Nat) : List (Nat × Int) :=
  (s.asy.drops.filter fun d => (carriers p).contains (d.ejector / (4 * 199680), d.ejector / 199680 % 4)).filterMap fun d =>
    let vs := slotValues s p start len d
    if vs.length < 2 then none else (medianOf vs).map fun m => (d.ejector, m)

/-- A verdict: 1 GOOD, 2 WEAK, 3 DEAD (R247, R255). -/
def verdictOf (a : AsySetup) (signal ref : Int) : Nat :=
  if signal * 256 < a.cenDead * ref then 3 else if signal * 256 < a.cenWeak * ref then 2 else 1

/-- The ejectors of a module-plane that lie under no logical column have no verdict to count. -/
def ejectorUsed (ord : Nat) : Bool :=
  let m := ord / (4 * 199680)
  let x : Int := 16384 * ((m % 10 : Nat) : Int) + (ord / 12 % pcols : Nat) - 128
  decide (0 ≤ x ∧ x ≤ 163839)

/-- The ordinals of plane `p`'s ejectors that can fire. -/
def planeEjectors (p : Nat) : List Nat :=
  ((carriers p).flatMap fun x => (List.range 199680).map fun i => 199680 * mp x.1 x.2 + i).filter ejectorUsed

/-- The excluded ejectors of a cluster once a list of changes is made. -/
def excludedWith (codes : Sparse Nat) (xs : List (Nat × Nat × Nat)) (cl : Nat) : Nat :=
  (List.range 12).countP fun i =>
    let o := 12 * cl + i
    ((assoc xs o).map Prod.snd).getD (mapGet 0 codes o) != 0

/-- A proposed change replaces an earlier one of the same ejector. -/
def propose (xs : List (Nat × Nat × Nat)) (c : Nat × Nat × Nat) : List (Nat × Nat × Nat) :=
  (xs.filter fun x => x.1 != c.1) ++ [c]

/-- A run of GOOD verdicts of an ejector with code `c` moves on (R248): with code 1 GOOD extends it; WEAK or DEAD, or another
code, ends it. -/
def goodStep (s : State) (o c v : Nat) : State :=
  let n := if v = 1 ∧ c = 1 then mapGet 0 s.asy.goodRuns o + 1 else 0
  { s with asy := { s.asy with goodRuns := mapSet 0 s.asy.goodRuns o n } }

/-- The changes that plane verdicts propose (R248): DEAD, then reinstatements, then WEAK in ascending row under KMAX. -/
def proposals (s : State) (a : AsySetup) (vs : List (Nat × Nat)) : State :=
  let codes := settledCodes s
  let code := fun (o : Nat) => mapGet 0 codes o
  let s1 := vs.foldl (fun t v => goodStep t v.1 (code v.1) v.2) s
  let dead_ := (vs.filter fun v => v.2 == 3 && code v.1 == 0).map fun v => (v.1, 0, 1)
  let back := (vs.filter fun v => v.2 == 1 && code v.1 == 1 && decide (a.reinstate ≤ mapGet 0 s1.asy.goodRuns v.1)).map
    fun v => (v.1, 1, 0)
  let base := (dead_ ++ back).foldl propose s1.asy.proposed
  let weak := ((vs.filter fun v => v.2 == 2 && code v.1 == 0).map Prod.fst).insertionSort fun x y =>
    x % 12 < y % 12 ∨ (x % 12 = y % 12 ∧ x ≤ y)
  let (xs, held) := weak.foldl (fun (acc : List (Nat × Nat × Nat) × Nat) o =>
    let next := propose acc.1 (o, 0, 1)
    if a.kmax < excludedWith codes next (o / 12) then (acc.1, acc.2 + 1) else (next, acc.2)) (base, 0)
  countN { s1 with asy := { s1.asy with proposed := xs } } (cnum 5 11) held

/-- The stripe's means of plane `p` each close a window (R246). -/
def closeStripe (s : State) (a : AsySetup) (p : Nat) : State :=
  let mine := s.asy.stripe.filter fun w => w.plane == p && w.count != 0
  let s1 := { s with asy := { s.asy with stripe := s.asy.stripe.filter fun w => w.plane != p } }
  mine.foldl (fun t w => closeWindow t a w.cam p w.pix (w.sum / (w.count : Int))) s1

/-- The verdicts of plane `p` recorded: each ejector's verdict and signal with the stamp of its last scan, each module-plane's
R_ref. -/
def recordVerdicts (s : State) (p : Nat) (sigs : List (Nat × Int)) (vs : List (Nat × Nat)) : State :=
  let ks := (carriers p).map fun x => mp x.1 x.2
  let other := fun (o : Nat) => !ks.contains (o / 199680)
  let refs := ks.map fun k => (k, medianOf ((sigs.filter fun x => x.1 / 199680 == k).map Prod.snd))
  { s with asy := { s.asy with
      verdicts := mapSetAll 0 (s.asy.verdicts.filter fun v => other v.1) vs
      signals := mapSetAll none (s.asy.signals.filter fun v => other v.1) (sigs.map fun x => (x.1, some x.2))
      rref := mapSetAll none s.asy.rref refs
      stamps := mapSetAll (0, 0) (s.asy.stamps.filter fun v => other v.1)
        ((s.asy.drops.filter fun d => sigs.any fun x => x.1 == d.ejector).map fun d => (d.ejector, d.stamp))
      drops := s.asy.drops.filter fun d => other d.ejector } }

/-- Plane `p`'s slot judged (R247, R248): verdicts, counts, proposals, streak flags cleared, CENSUS_DONE. -/
def judge (s : State) (a : AsySetup) (p : Nat) (start band : Int) (len : Nat) : State :=
  let sigs := slotSignals s p start len
  let refOf := fun (o : Nat) => medianOf ((sigs.filter fun x => x.1 / 199680 == o / 199680).map Prod.snd)
  let vs := (sigs.map fun x => (x.1, verdictOf a x.2 ((refOf x.1).getD 0))).insertionSort fun x y => x.1 ≤ y.1
  let n := fun (k : Nat) => vs.countP fun v => v.2 == k
  let unknown := (planeEjectors p).length - vs.length
  let s1 := recordVerdicts s p sigs vs
  let s2 := countN (countN (countN s1 (cnum 5 8) (n 3)) (cnum 5 9) (n 2)) (cnum 5 10) unknown
  let s3 := proposals s2 a vs
  let clear := s3.asy.windows.map fun w => if w.plane = p then { w with streak := false } else w
  let s4 := { s3 with asy := { s3.asy with windows := clear
                                           judged := (s3.asy.judged.filter fun x => x.1 != p) ++ [(p, band)] } }
  raise (closeStripe s4 a p) 0x0503 (it p ++ itq band ++ it unknown ++ it (n 1) ++ it (n 2) ++ it (n 3))

/-- CENSUS_DONE (R248): plane `plane`'s slot has been scanned. -/
def execCensusDone (plane : Nat) (s : State) : Host.Outcome State Fault Refusal :=
  match s.asy.setup, slotToJudge s plane with
  | some a, some (start, band, len) => .next (judge s a plane start band len)
  | _, _ => .next s

/-! Updates (R251). -/

/-- ASSAY_MAP (R251): a delta of the proposed changes whose ejector still holds the code expected. -/
def execAssayMap (s : State) : Host.Outcome State Fault Refusal :=
  if !forms s || s.asy.mapLock || s.map.pending.isSome || s.asy.proposed.isEmpty || !(unfixedPoison s).isEmpty ||
      (newestGen s).isNone then .next s
  else
    let codes := settledCodes s
    let ok := s.asy.proposed.filter fun c => mapGet 0 codes c.1 == c.2.1
    let delta := ((ok.map fun c => (c.1, c.2.2)).insertionSort fun x y => x.1 ≤ y.1)
    let s1 := { s with asy := { s.asy with proposed := [] } }
    if delta.isEmpty then .next s1
    else
      let all := delta ++ reportChanges s
      let g := newGen s1 false (mapSetAll 0 codes all) (mapSetAll 4 [] all) 0
      let back := (delta.filter fun c => c.2 == 0).length
      let s2 := countN (count (addGen (dropReports s1) g) (cnum 5 13)) (cnum 5 12) back
      .next (raise s2 0x0505 (it g.number ++ itq (g.boundary.getD minI64) ++ it ((delta.length - back : Nat) : Int) ++ it back))

/-- The index entries a wanted variant changes: every candidate of the columns the pixel owns and its camera observes (R236,
R250). -/
def wantEntries (s : State) (a : AsySetup) (w : Nat × Nat × Nat × Int) : List (Nat × Nat) :=
  (observedCols s a w.1 w.2.2.1).flatMap fun x => (candidates x).map fun jc =>
    (entryKey w.2.1 (indexOf jc), ((a.curveBase + 32 * w.2.1 + 15 : Nat) + w.2.2.2).toNat)

/-- ASSAY_CURVES (R250, R251). -/
def execAssayCurves (s : State) : Host.Outcome State Fault Refusal :=
  match s.asy.setup with
  | none => .next s
  | some a =>
    let pend := s.tables.curveUpds.filter (updPending s)
    if !forms s || s.asy.curveLock || s.asy.wants.isEmpty || pend.any (·.assay) || decide (8 ≤ pend.length) then .next s
    else
      let entries := mapSetAll 4096 [] (s.asy.wants.flatMap (wantEntries s a))
      .next (formCurves { s with asy := { s.asy with wants := [] } } [] entries)

end Sys2Proof.Machine
end

