-- ==== Sys2Proof/Machine/Firing.lean ====
section
/-! DEFINITION. Position, gearing, line ticks, speed, cues, pulses and pacing (R148 to R176, R127, R158). Stamps `t` are in
units of 39.0625 ps from chip reset, 64 to a TIME tick. -/

namespace Sys2Proof.Machine

/-! Units. -/

/-- 1 ms in 39.0625 ps units. -/
abbrev msUnits : Nat := 25600000

/-- 1.25 µs: the least spacing of two ticks (R162). -/
abbrev tickSpacing : Nat := 32000

/-- An input that has held its new level for `held` samples of 2.5 ns changes its filtered state: FILT + 1 of them are
asked (R149). -/
def filtered (filt held : Nat) : Bool := decide (filt < held)

/-- The estimate's magnitude limit (R164). -/
def satSpeed (v : Nat) : Nat := min v 0x7FFFFFFF

/-! Events of the web (R176). -/

/-- LINE_RATE_HIGH, once per page, while the estimate exceeds the declared L (R28). -/
def reportRate (s : State) : State :=
  match s.job with
  | none => s
  | some j =>
    if (1024 * j.lDecl : Int) < estimate s then
      let (new, s1) := oncePrinting s 0x030B
      raiseIf new s1 0x030B (it (estimate s) ++ it j.lDecl)
    else s

/-- A POSREF flag (1 REF, 2 GEAR, 3 PACE) set for 1 ms: 400,000 TIME ticks (R268). -/
def setPosFlag (s : State) (bit : Nat) : State :=
  { s with par := { s.par with posFlagClk := (s.par.posFlagClk.filter fun x => x.1 != bit) ++ [(bit, s.time.clk + 400000)] } }

/-- A ratio comes into force (R158). -/
def applyGear (s : State) (ratio : Nat) : State :=
  raise { s with ftb := { s.ftb with g := ratio } } 0x0306 (itq (masterPos s) ++ itq (lineCounter s))

/-- The λ that ρ10 measures from moves with a jump of λ, which is no travel of the web (log 140). -/
def rebase10 (jump : Int) (f : Ftb) : Ftb :=
  let v := f.lam10I * 2 ^ 32 + f.lam10F + jump
  { f with lam10I := wrapS 64 (v / 2 ^ 32), lam10F := (v % 2 ^ 32).toNat }

/-- The estimate returns to standstill (R165). -/
def standstill (s : State) : State :=
  { s with ftb := { s.ftb with speed := 0, intervals := [], lastEdge := none, lastDir := none } }

/-! Line reference (R159, R195). -/

/-- Every listed value but −2⁶³ moves by `d` (R195). -/
def shiftAll (m : Sparse Int) (d : Int) : Sparse Int :=
  m.map fun e => (e.1, if e.2 = minI64 then e.2 else wrapS 64 (e.2 + d))

/-- A record stands for web line n + Δ (R159). -/
def shiftRec (d : Int) (r : Rec) : Rec :=
  { r with n := wrapS 64 (r.n + d), b := wrapS 64 (r.b + d)
           thin := r.thin.map fun x => { x with bf := if x.bf = minI64 then x.bf else wrapS 64 (x.bf + d) } }

/-- A page keeps its records, which stand for web lines n + Δ: its n0 and the lines of its cut move with them (R159). -/
def shiftPage (d : Int) (p : Page) : Page :=
  { p with n0 := p.n0.map fun n => wrapS 64 (n + d), cuts := p.cuts.map fun c => (c.1, wrapS 64 (c.2 + d)) }

/-- What is in force for each key at its web line becomes the base, and only later changes are kept. -/
def foldTimed (t : Timed) (n : Nat → Int) : Timed :=
  let keys := (t.changes.map fun c => c.1).dedup
  { base := mapSetAll 0 t.base (keys.map fun k => (k, timedAt t k (n k))), changes := t.changes.filter fun c => decide (n c.1 < c.2.1) }

/-- The last web line for which every slice of plane `p` has handed over its record, or the line counter where that is later. -/
def doneLine (s : State) (p : Nat) : Int :=
  match (carriers p).map fun x => handedLine s (mp x.1 x.2) with
  | [] => lineCounter s
  | x :: xs => max (lineCounter s) (xs.foldl min x)

/-- Generations no longer in force at a web line are dropped, and the one in force takes any web line. -/
def foldGens (l : List Gen) (n : Int) : List Gen :=
  let cur := l.foldl (fun (acc : Option Nat) g =>
    match g.boundary with
    | some b => if b ≤ n then some g.number else acc
    | none => acc) none
  match cur with
  | none => l
  | some k => (l.filter fun g => g.number == k || match g.boundary with | some b => decide (n < b) | none => true).map
      fun g => if g.number = k then { g with boundary := some minI64 } else g

/-- Lines of a list of pairs, moved by `d`. -/
def shiftKeys {α : Type} (l : List (Int × α)) (d : Int) : List (Int × α) := l.map fun x => (wrapS 64 (x.1 + d), x.2)

/-- The record stream, the cluster state and the pages that have printed move by Δ with the line counter; what was in force at
the old counter stays in force, and what had dropped out stays out (R105, R159, R195). -/
def shiftLines (s0 : State) (d : Int) : State :=
  let s := noteDropped s0
  let c := lineCounter s
  let csc := { s.csc with nf := shiftAll s.csc.nf d, nfBase := shiftAll s.csc.nfBase d, bf := shiftAll s.csc.bf d
                          rho := shiftKeys s.csc.rho d, heldRho := shiftKeys s.csc.heldRho d
                          fixedTo := s.csc.fixedTo.map fun x => wrapS 64 (x + d), stamped := shiftKeys s.csc.stamped d }
  let dxl := { s.dxl with replay := s.dxl.replay.map (shiftRec d), heldLine := shiftAll s.dxl.heldLine d
                          released := shiftAll s.dxl.released d, firstLine := shiftAll s.dxl.firstLine d }
  let slices := { s.slices with recs := s.slices.recs.map (shiftRec d), handed := shiftAll s.slices.handed d }
  let now := fun (_ : Nat) => c
  let web : Web := { dOff := foldTimed s.web.dOff now, xShift := foldTimed s.web.xShift now
                     screens := foldTimed s.web.screens (doneLine s), trims := foldTimed s.web.trims now }
  let fire := if s.pages.fireEnd = minI64 then minI64 else wrapS 64 (s.pages.fireEnd + d)
  { s with csc := csc, dxl := dxl, slices := slices, web := web, map := { s.map with gens := foldGens s.map.gens c }, tables := foldTablesAt s.tables c
           pages := { s.pages with list := s.pages.list.map (shiftPage d), lastEnd := s.pages.lastEnd.map fun x => wrapS 64 (x + d)
                                   fireEnd := fire } }

/-- λ takes a stated value (R159): the line counter its whole part, the reverse state cleared, the highest position the
present one, the estimate at standstill; LINEBASE goes to every joined module. A cue mask that runs keeps the position it was
captured at (log 142). -/
def applyReference (s : State) (lamI : Int) (lamF : Nat) : State :=
  let d := linesPast lamI s.ftb.hwm
  let s1 := standstill (shiftLines s d)
  let f := { rebase10 (lamI * 2 ^ 32 + lamF - lamOf s.ftb) s1.ftb with
    lamI := lamI, lamF := lamF, hwm := lamI, reversed := false, pmax := masterPos s, lineRef := none
    projected := [], heldTicks := s.ftb.heldTicks.map fun x => wrapS 64 (x + d) }
  let s2 := { s1 with ftb := f, pwr := { s1.pwr with stale := false } }
  let s3 := (linkedModules s2).foldl (fun t m => emitAll t ((linebaseWords lamI).map fun w => .ctrl m w)) s2
  setPosFlag (raise s3 0x0307 (it s.ftb.lamF ++ itq s.ftb.lamI ++ it lamF ++ itq lamI)) 1

/-! Master counts (R155, R160, R161, R165). -/

/-- The magnitude G × k over the sum of the last k intervals, in 1/1,024 line/s (R165). -/
def speedOf (g k sum : Nat) : Nat := if sum = 0 then 0x7FFFFFFF else satSpeed (g * k * rateUnits / (2 ^ 32 * sum))

/-- The intervals that the average takes: the last min(2^SPD_AVG, …) (R165). -/
def averaged (s : State) : List Nat :=
  let iv := s.ftb.intervals
  iv.drop (iv.length - 2 ^ s.webCfg.spdAvg)

/-- The estimate after a master count at stamp `t` (R165). -/
def countSpeed (s : State) (fwd : Bool) (t : Nat) : State :=
  let f := s.ftb
  match f.lastEdge, f.lastDir with
  | some e, some d =>
    let iv := t - e
    let list := if d = fwd then (f.intervals ++ [iv]).drop (f.intervals.length + 1 - 64) else [iv]
    let s1 := { s with ftb := { f with intervals := list, lastEdge := some t, lastDir := some fwd } }
    let use := averaged s1
    let mag := speedOf f.g use.length use.sum
    let v : Int := if fwd then mag else -mag
    let s2 := { s1 with ftb := { s1.ftb with speed := v } }
    reportRate (raiseIf f.intervals.isEmpty s2 0x0304 (it (if fwd then 1 else -1) ++ it v))
  | _, _ => { s with ftb := { f with lastEdge := some t, lastDir := some fwd, intervals := [], speed := 0 } }

/-- λ after a count: up or down by G (R160). -/
def moveLam (f : Ftb) (fwd : Bool) : Ftb := putLam f (if fwd then lamOf f + f.g else lamOf f - f.g)

/-- A servitor that has not yet taken its reference issues no ticks (R285). -/
def mayTick (s : State) : Bool := !(servitor s && s.par.state == .syncing && !s.ftb.referenced)

/-- Ticks due and projected after a count at `t` (R161): those already due stay, every later projection is discarded; lines
up to λ are due at `t`, and after a forward count lines up to λ + G are projected. DESIGN CHOICE (log 171): a projected instant is
quantised downwards. -/
def projectTicks (s : State) (fwd : Bool) (t : Nat) : State :=
  let f := s.ftb
  let due := f.projected.filter fun x => decide (x.2 ≤ t)
  let top := match due.getLast? with | some x => x.1 | none => f.hwm
  let past := linesPast f.lamI top
  if !mayTick s then { s with ftb := { f with projected := [] } }
  else if !fwd then { s with ftb := { f with projected := due } }
  else
    let now := (List.range past.toNat).map fun i => (wrapS 64 (top + 1 + i), t)
    let ahead := (-past).toNat
    let use := averaged s
    let later := if f.speed = 0 ∨ s.anneal.running then [] else
      (List.range ((f.lamF + f.g) / 2 ^ 32 - ahead)).map fun i =>
        let k := ahead + 1 + i
        (wrapS 64 (f.lamI + k), t + (k * 2 ^ 32 - f.lamF) * use.sum / (max 1 use.length * f.g))
    { s with ftb := { f with projected := due ++ now ++ later } }

/-- Whether the web check's travels differ by more than CHECK_TOL (R155). -/
def checkBad (w : WebCfg) : Bool :=
  decide (w.checkTol * 65536 < (w.winMaster * w.checkRatio - w.winCheck * 65536).natAbs)

/-- The web check at the end of a window of CHECK_WIN net counts (R155). -/
def webCheck (s : State) : State :=
  let w := s.webCfg
  if w.checkEn ∧ w.checkWin ≤ w.winMaster.natAbs then
    let bad := checkBad w
    let s1 := { s with webCfg := { w with winMaster := 0, winCheck := 0, checkFailed := bad } }
    let s2 := if bad then count s1 (cnum 3 32) else s1
    raiseIf (bad && !w.checkFailed) s2 0x0305 (it w.winMaster ++ it w.winCheck ++ itq (lineCounter s))
  else s

/-- The latest pulse of output `k` in what left the chip ends 10 ns before the next one starts (R170). -/
def shortenPulse (k next : Nat) : List Sent → List Sent
  | [] => []
  | .pulse o st w p :: xs =>
    if o = k then .pulse o st (min w (next - 256 - st)) p :: xs else .pulse o st w p :: shortenPulse k next xs
  | x :: xs => x :: shortenPulse k next xs

/-- Output `k` pulses for an edge or tick at instant `t`, for web line `n` (R170, R234); not in FAILED (R261). -/
def emitPulse (s : State) (k t : Nat) (n : Int) : State :=
  if s.par.state = .failed then s
  else match s.pulses[k]? with
  | none => s
  | some p =>
    let start := t + 64 * p.delay
    let pulsed := fun (x : Pulse) =>
      { x with total := x.total + 1, ring := (n :: x.ring).take 4096, stamps := (stampTime s start :: x.stamps).take 4096 }
    let s1 := { s with out := shortenPulse k start s.out, pulses := modAt pulsed s.pulses k }
    emit s1 (.pulse k start (256 * p.width) p.pol)

/-- The outputs that follow master counts: every DIV-th forward count beyond the highest position counted (R170). -/
def countPulses (s : State) (t : Nat) : State :=
  (List.range 4).foldl (fun u k =>
    match u.pulses[k]? with
    | none => u
    | some p =>
      let high := p.countMax.getD (masterPos u - 1)
      if p.enable && p.src && decide (high < masterPos u) then
        let hit := decide (p.div ≤ p.count + 1)
        let u1 := { u with pulses := modAt (fun x =>
          { x with countMax := some (masterPos u), count := if hit then 0 else x.count + 1 }) u.pulses k }
        if hit then emitPulse u1 k t (lineCounter u1) else u1
      else u) s

/-- The pending line reference of REF_MODE 1 that this forward count passes, applied after the count has updated λ (R159). DESIGN
CHOICE (log 172): a line tick that this very count makes due is not issued; λ takes the stated value first. -/
def refAtCount (s : State) (before : Int) (t : Nat) : State :=
  match s.ftb.lineRef with
  | some r => if !r.onIndex ∧ r.pos = before then applyReference (advancePacing s t) r.lamI r.lamF else s
  | none => s

/-- Reverse state and jitter (R160), after the position moved. -/
def reverseState (s : State) (fwd : Bool) : State :=
  let pos := masterPos s
  let f := s.ftb
  if fwd then
    if f.pmax < pos then
      let s1 := { s with ftb := { f with pmax := pos, reversed := false } }
      raiseIf f.reversed s1 0x0302 (itq pos ++ itq f.hwm)
    else s
  else if !f.reversed ∧ (s.webCfg.jitterAllow : Int) < f.pmax - pos then
    raise (count { s with ftb := { f with reversed := true } } (cnum 3 28)) 0x0301 (itq pos ++ itq f.pmax ++ itq f.hwm)
  else if !f.reversed ∧ f.pmax - pos = 1 then count s (cnum 3 29)
  else s

/-- The position of channel `ch` moves by one count (R153), and with it the feedback of every axis that reads it (R323). -/
def movePos (s : State) (ch : Nat) (fwd : Bool) : State :=
  let fb := fun (a : Axis) =>
    if a.cfg.fbCh = ch then { a with fb := if fwd then a.fb + a.cfg.fbRatio else a.fb - a.cfg.fbRatio } else a
  let d : Int := if fwd then 1 else -1
  { s with encs := modAt (fun e => { e with pos := wrapS 64 (e.pos + d), total := wrapS 64 (e.total + d) }) s.encs ch
           mot := { s.mot with axes := s.mot.axes.map fb } }

/-- The positioned gear change that the forward count from `before` passes (R158). -/
def gearAt (s : State) (before : Int) : State :=
  match s.ftb.gears.find? fun g => g.pos == before with
  | some g => applyGear { s with ftb := { s.ftb with gears := s.ftb.gears.erase g } } g.ratio
  | none => s

/-- What one master count does to λ, the estimate and the ticks in encoder mode (R160, R161, R165); in pacing mode master counts
do not move λ (R174), and the reverse state follows them all the same. -/
def webCount (s : State) (fwd : Bool) (t : Nat) : State :=
  if s.webCfg.pacing then reverseState s fwd
  else projectTicks (countSpeed (reverseState (endMasks { s with ftb := moveLam s.ftb fwd }) fwd) fwd t) fwd t

/-- One count of channel 0 (R148, R158 to R160). -/
def masterCount (s : State) (fwd : Bool) (t : Nat) : State :=
  let before := masterPos s
  let s0 := if fwd then gearAt s before else s
  let s1 := movePos s0 0 fwd
  let s2 := { s1 with webCfg := { s1.webCfg with winMaster := s1.webCfg.winMaster + (if fwd then 1 else -1) } }
  let s3 := webCount s2 fwd t
  let s4 := if fwd then countPulses (refAtCount s3 before t) t else s3
  webCheck s4

/-- Place of (A, B) in the forward order 00, 01, 11, 10 (R150). -/
def grayIndex (a b : Bool) : Nat := if a then (if b then 2 else 3) else (if b then 1 else 0)

/-- ENC_COUNT (R149, R150, R153, R155, R160): the raw pair of channel `ch` is (a, b) and has held. Both lines changing
at once is an illegal transition: counted, nothing else. -/
def execEncCount (ch : Nat) (a b : Bool) (edge : Edge) (s : State) : Host.Outcome State Fault Refusal :=
  match s.encs[ch]? with
  | none => .next s
  | some e =>
    if !awake s || !filtered e.filt edge.held then .next s
    else
      let step := (grayIndex a b + 4 - grayIndex e.a e.b) % 4
      let s1 := { s with encs := modAt (fun x => { x with a := a, b := b, i := false }) s.encs ch }
      if !e.enable ∨ step = 0 then .next s1
      else if step = 2 then .next (count s1 (cnum 3 ch))
      else
        let fwd := (step == 1) != e.invert
        if ch = 0 then .next (masterCount s1 fwd edge.t)
        else
          let s2 := movePos s1 ch fwd
          .next (if ch = 1 then
            { s2 with webCfg := { s2.webCfg with winCheck := s2.webCfg.winCheck + (if fwd then 1 else -1) } } else s2)

/-! Line ticks (R161 to R163, R170, R192). -/

/-- The period code of R173. -/
def periodCode (s : State) : Nat :=
  if estimate s = 0 then 0 else min 0xFFFFFFFF (rateUnits / (estimate s).natAbs)

/-- TICK to every group in RUN, with LINE_LO and PE (R192). TOFF, the delay to the symbol's first bit, is a free value. -/
def sendTick (s : State) (n : Int) : State :=
  let pe := periodCode s
  (runGroups s).foldl (fun t g =>
    let (t1, v) := drawFree t
    emit t1 (.ctrl g (ctrlWord 0x40 [(50, unsignedOf 6 n), (40, v % 1024), (8, pe)]))) s

/-- A tick leaves the chip at `t`: TICK, and the pulses of outputs on line ticks (R163, R170). -/
def leaveTick (s : State) (n : Int) (t : Nat) : State :=
  let s1 := sendTick { s with ftb := { s.ftb with lastTick := some t } } n
  (List.range 4).foldl (fun u k =>
    match u.pulses[k]? with
    | some p => if p.enable && !p.src && decide (n % (p.div : Int) = p.phase) then emitPulse u k t n else u
    | none => u) s1

/-- The queue of held ticks has passed 64 lines: the PRINTING pages end (R162). -/
def queueLimit (s : State) : State := if 64 < s.ftb.heldTicks.length then overspeedEnd s 3 else s

/-- TICK_LIMIT, on the first held tick of each page, or with none PRINTING after the last page ended (R162). -/
def reportHeld (s : State) : State :=
  let items := itq (lineCounter s) ++ it s.ftb.heldTicks.length
  if (printingPages s).isEmpty then
    raiseIf (!s.ftb.tickLimitRaised) { s with ftb := { s.ftb with tickLimitRaised := true } } 0x0308 items
  else
    let (new, s1) := oncePrinting s 0x0308
    raiseIf new { s1 with ftb := { s1.ftb with tickLimitRaised := false } } 0x0308 items

/-- Overspeed is counted at each tick while a page is PRINTING: the estimate above 1.10 × C_bar (R145). -/
def countOverspeed (s : State) : State :=
  let fast := decide ((11 * 1024 * barCapacity s : Nat) < 10 * estimate s) && !(printingPages s).isEmpty
  { s with csc := { s.csc with overRun := if fast then s.csc.overRun + 1 else 0 } }

/-- The anneal whose window the line counter has reached is abandoned (R424). -/
def annealWindowOver (s : State) : State :=
  match s.anneal.windowEnd with
  | some w => if s.anneal.running ∧ w ≤ lineCounter s then
      count { s with anneal := { s.anneal with running := false, windowEnd := none } } (cnum 10 3) else s
  | none => s

/-- The tick of web line `line`, wrapped as R153 has it, is issued at instant `t`: the line counter takes it; closer than
1.25 µs to the one before it is held and queued (R160 to R162). -/
def issueTick (s : State) (line : Int) (t : Nat) : State :=
  let n := wrapS 64 line
  let s1 := annealWindowOver (countOverspeed { s with ftb := { s.ftb with hwm := n } })
  let close := match s.ftb.lastTick with | some l => decide (t < l + tickSpacing) | none => false
  if close || !s.ftb.heldTicks.isEmpty then
    let s2 := count { s1 with ftb := { s1.ftb with heldTicks := s1.ftb.heldTicks ++ [n] } } (cnum 3 30)
    queueLimit (reportHeld s2)
  else
    let done := (printingPages s1).isEmpty
    leaveTick { s1 with ftb := { s1.ftb with tickLimitRaised := s1.ftb.tickLimitRaised && done } } n t

/-- LINE_TICK (R161): the next tick due by `t` is issued at its own instant. -/
def execLineTick (t : Nat) (s : State) : Host.Outcome State Fault Refusal :=
  match s.ftb.projected with
  | [] => .next s
  | x :: rest =>
    if awake s ∧ x.2 ≤ t then .next (issueTick { s with ftb := { s.ftb with projected := rest } } x.1 x.2)
    else .next s

/-- HELD_TICK_ISSUE (R162): the queue drains at 1.25 µs. -/
def execHeldTickIssue (t : Nat) (s : State) : Host.Outcome State Fault Refusal :=
  let s1 := queueLimit s
  match s1.ftb.heldTicks, s1.ftb.lastTick with
  | n :: rest, some l =>
    if l + tickSpacing ≤ t then .next (leaveTick { s1 with ftb := { s1.ftb with heldTicks := rest } } n (l + tickSpacing))
    else .next s1
  | _, _ => .next s1

/-! Pacing (R174). -/

/-- PACING_TICK (R174): λ reaches a whole line above the line counter; while an anneal runs the tick waits for the 2.5 ns grid, 64
units (R424). -/
def execPacingTick (t : Nat) (s : State) : Host.Outcome State Fault Refusal :=
  if awake s ∧ s.webCfg.pacing then
    let s1 := reportRate (advancePacing s t)
    let at_ := if s.anneal.running then 64 * cdiv t 64 else t
    if mayTick s1 ∧ 0 < linesPast s1.ftb.lamI s1.ftb.hwm then .next (issueTick s1 (s1.ftb.hwm + 1) at_) else .next s1
  else .next s

/-- WEB_STILL (R165): STILL_TIME with no master count. -/
def execWebStill (t : Nat) (s : State) : Host.Outcome State Fault Refusal :=
  match s.ftb.lastEdge with
  | some e =>
    if awake s ∧ ¬ s.webCfg.pacing ∧ e + s.webCfg.stillTime * msUnits ≤ t then
      .next (raiseIf (s.ftb.speed != 0) (standstill s) 0x0303 (itq (lineCounter s)))
    else .next s
  | none => .next s

/-- The decay of R165: no count for longer than the last averaged mean interval. -/
def decay (s : State) (t : Nat) : State :=
  let use := averaged s
  match s.ftb.lastEdge with
  | some e =>
    let gap := t - e
    if !s.webCfg.pacing ∧ use.sum < gap * use.length then
      let m := min s.ftb.speed.natAbs (speedOf s.ftb.g 1 gap)
      { s with ftb := { s.ftb with speed := if s.ftb.speed < 0 then -m else m } }
    else s
  | none => s

/-- The lowest tolerated rate of R127 in 1/16 line/s: 17 × REFILL × f_max over what was stamped for modules in use in the last
d_r ticks. -/
def toleratedRate (s : State) : Option Nat :=
  ((s.csc.stamped.filter fun x => decide (lineCounter s - refillSpan s ≤ x.1) && moduleInUse s x.2.2).map fun x =>
    17 * x.2.1 * fmaxOf s x.2.2).foldl (fun acc v =>
      match acc with
      | none => some v
      | some b => some (min b v)) none

/-- The refill guard (R127): counted, and reported on the first such reading of a page. -/
def refillGuard (s : State) : State :=
  match toleratedRate s with
  | none => s
  | some v =>
    if (v * 64 : Int) < s.ftb.rho10 then
      let (new, s1) := oncePrinting (count s (cnum 2 46)) 0x0203
      raiseIf new s1 0x0203 (it (s.ftb.rho10 / 1024) ++ it ((v / 16 : Nat) : Int))
    else s

/-- The rate of a travel over 10 µs, both signed (R166): 1/2³² line to 1/1,024 line/s, rounded toward 0 (log 139). -/
def rateOf10 (travel : Int) : Int := Int.tdiv (travel * 102400000) (2 ^ 32)

/-- RATE_READING (R165, R166, R127): every 10 µs ρ10 is the travel of λ since the last reading. -/
def execRateReading (t : Nat) (s : State) : Host.Outcome State Fault Refusal :=
  if !awake s then .next s
  else
    let f := s.ftb
    let lam := lamNow s t
    let travel := wrapS 96 (lam - (f.lam10I * 2 ^ 32 + f.lam10F))
    let f1 := { f with rho10 := rateOf10 travel, lam10I := wrapS 64 (lam / 2 ^ 32), lam10F := (lam % 2 ^ 32).toNat }
    .next (refillGuard (decay { s with ftb := f1 } t))

/-! Cues (R51, R167 to R169). -/

/-- λ projected to instant `t`, in 1/2³² line (R167): λ_e + G × (t − t_e) / T_c with T_c = G / |ρ|, no further than λ_e + G,
whatever the sign of ρ (log 141); λ itself while the estimate is 0; the exact λ in pacing mode. -/
def lamAt (s : State) (t : Nat) : Int :=
  let f := s.ftb
  if s.webCfg.pacing then (pacingAt s t).1
  else match f.lastEdge with
    | some e =>
      let step : Int := f.speed.natAbs * ((t - e : Nat) : Int) * 2 ^ 32 / (rateUnits : Int)
      lamOf f + min step (f.g : Int)
    | none => lamOf f

/-- The eight dwords of a capture record (R169). -/
def cueDws (c : Cue) : List Dword :=
  [BitVec.ofNat 32 (c.seq * 2 ^ 16 + (if c.rev then 8 else 0) + (if c.lost then 4 else 0) + c.ch),
   BitVec.ofNat 32 (c.secHi * 2 ^ 16 + c.frac)] ++ dwordsOf (unsignedOf 64 c.line) ++ dwordsOf (unsignedOf 64 c.master) ++
  [BitVec.ofNat 32 c.nsec, BitVec.ofNat 32 c.secLo]

/-- A capture is offered to the first unresolved page, if it waits on this channel (R51, R52, R425): before e_prev + 1 or past
its deadline it is skipped and counted; else the page resolves, moved past an anneal window where it must. -/
def offerCue (s : State) (ch : Nat) (line : Int) : State :=
  match firstUnresolved s with
  | none => s
  | some p =>
    if servitor s || p.startMode != 3 || p.cueCh != ch then s
    else
      let want := line + p.startArg
      if want ≤ ePrev s ∨ want < earliestPlain s (planesInUse s) then
        setPage s p.id fun q => { q with cueSkips := q.cueSkips + 1 }
      else
        let n0 := max want (earliestStart s)
        let s1 := raiseIf (decide (n0 ≠ want)) s 0x0102 ([p.id] ++ itq want ++ itq n0)
        resolveAll (resolvePage s1 p.id n0)

/-- The edge is selected by EDGE: 0 rising, 1 falling, 2 both (R168). -/
def edgeSelected (edge : Nat) (rising : Bool) : Bool := edge == 2 || (edge == 0 && rising) || (edge == 1 && !rising)

/-- CUE_CAPTURE (R149, R167, R169): the cue input has held its new level. -/
def execCueCapture (ch : Nat) (rising : Bool) (edge : Edge) (s : State) : Host.Outcome State Fault Refusal :=
  match s.cues[ch]? with
  | none => .next s
  | some c =>
    let lam := lamAt s edge.t
    let line := wrapS 64 (lam / 2 ^ 32)
    let at_ := stampTime s edge.t
    if !awake s || !filtered c.filt edge.held || !edgeSelected c.edge rising || !maskOver c lam then .next s
    else
      let full := decide (16 ≤ c.queue.length)
      let x : Cue := { seq := c.seq, rev := s.ftb.reversed, lost := c.lostNext, ch := ch, secHi := at_.1 / 2 ^ 32
                       secLo := at_.1 % 2 ^ 32, nsec := at_.2, frac := (lam % 2 ^ 32).toNat / 2 ^ 24
                       line := line, master := masterPos s }
      let c1 := { c with seq := (c.seq + 1) % 2 ^ 16, maskFrom := if c.maskLines = 0 then none else some lam
                         queue := if full then c.queue else c.queue ++ [x], lostNext := full }
      let s1 := { s with cues := modAt (fun _ => c1) s.cues ch }
      let s2 := if full then count s1 (cnum 3 (24 + ch)) else s1
      .next (offerCue (raiseIf c.event s2 0x030A (cueDws x)) ch line)

/-- CUE_CONFIG (R168). -/
def execCueConfig (e : Entry) (s : State) : Host.Outcome State Fault Refusal :=
  .next (command [0x010E] e (fun _ s =>
    let w := pw e 0
    checked s [(!rsvOk e [0xF8FFFFFF], stFormat)] fun s =>
      okWith { s with cues := modAt (fun c =>
        { c with edge := fld w 28 2, event := bitOf w 27, filt := fld w 16 8, maskLines := fld w 0 16 }) s.cues (fld w 30 2) }
        []) s)

/-- CUE_READ (R169, R395): the oldest records leave the queue for the buffer. -/
def execCueRead (e : Entry) (s : State) : Host.Outcome State Fault Refusal :=
  .next (command [0x010F] e (fun _ s =>
    let ch := fld (pw e 0) 0 2
    let n := (pw e 1).toNat
    checked s [(!rsvOk e [3, allBits, allBits, allBits] || decide (n < 1 ∨ 16 < n), stFormat)] fun s =>
      let q := (s.cues.getD ch CueCh.reset).queue
      let s1 := hostPutDws s (pq e 2) ((q.take n).flatMap cueDws)
      okWith { s1 with cues := modAt (fun c => { c with queue := c.queue.drop n }) s.cues ch } (it (q.take n).length)) s)

/-! Configuration (R152, R156, R158, R159, R171, R172, R174). -/

/-- ENC_CONFIG (R152). -/
def execEncConfig (e : Entry) (s : State) : Host.Outcome State Fault Refusal :=
  .next (command [0x010A] e (fun _ s =>
    let w := pw e 0
    checked s [(!rsvOk e [0xF00FF00F] || decide (11 < fld w 28 4), stFormat)] fun s =>
      okWith { s with encs := modAt (fun x =>
        { x with filt := fld w 12 8, indexZero := bitOf w 3, indexQual := bitOf w 2, invert := bitOf w 1
                 enable := bitOf w 0 }) s.encs (fld w 28 4) } []) s)

/-- The web configuration a payload carries (R156). -/
def webCfgOf (s : State) (e : Entry) : WebCfg :=
  let en := bitOf (pw e 0) 30
  let keep := en && s.webCfg.checkEn
  { pacing := bitOf (pw e 0) 31, checkEn := en, stillTime := fld (pw e 0) 16 8, spdAvg := fld (pw e 0) 8 3
    jitterAllow := fld (pw e 0) 0 8, checkWin := fld (pw e 1) 16 16, checkTol := fld (pw e 1) 0 16
    checkRatio := (pw e 2).toNat, winMaster := if keep then s.webCfg.winMaster else 0
    winCheck := if keep then s.webCfg.winCheck else 0, checkFailed := keep && s.webCfg.checkFailed }

/-- The fields of WEB_CONFIG are in range (R156). -/
def webFormatOk (e : Entry) : Bool :=
  rsvOk e [0xC0FF07FF, allBits, allBits] && fld (pw e 0) 16 8 != 0 && fld (pw e 0) 8 3 != 7 &&
  decide (16 ≤ fld (pw e 1) 16 16) && fld (pw e 1) 0 16 != 0 && pw e 2 != 0

/-- WEB_CONFIG (R156, R174): while a page is ADMITTED or PRINTING only the web check may change. A change of mode keeps λ
and restarts the estimate from standstill. -/
def execWebConfig (e : Entry) (s : State) : Host.Outcome State Fault Refusal :=
  .next (command [0x0109] e (fun _ s =>
    let c := webCfgOf s e
    let w := s.webCfg
    let same := c.pacing == w.pacing && c.stillTime == w.stillTime && c.spdAvg == w.spdAvg && c.jitterAllow == w.jitterAllow
    checked s [(!webFormatOk e, stFormat), (anyActive s && !same, stBusy)] fun s =>
      let s1 := { advancePacing s (nowUnits s) with webCfg := c }
      if c.pacing = w.pacing then okWith s1 []
      else
        let s2 := standstill s1
        okWith { s2 with ftb := { s2.ftb with projected := [], rate := 0, rateTarget := 0, paceAt := nowUnits s } } []) s)

/-- An entry of GEAR_SET: position, ratio, IMMEDIATE (R158). -/
def gearEntry (s : State) (a : Nat) : Int × Nat × Bool :=
  let d := hostDws s a 4
  (signed 64 (rq d 0), fld (rdw d 3) 0 6 * 2 ^ 32 + (rdw d 2).toNat, bitOf (rdw d 3) 31)

/-- The entry's ratio and RSV field are as R157 and R158 have them. -/
def gearEntryOk (s : State) (a : Nat) : Bool :=
  (gearEntry s a).2.1 != 0 && onlyBits (hostDw s (a + 12)) 0x8000003F

/-- Positions strictly ascending. -/
def ascending : List Int → Bool
  | x :: y :: rest => decide (x < y) && ascending (y :: rest)
  | _ => true

/-- A pending change put in its place, positions ascending. -/
def insertGear (g : Gear) : List Gear → List Gear
  | [] => [g]
  | x :: xs => if g.pos < x.pos then g :: x :: xs else x :: insertGear g xs

/-- GEAR_SET (R158): a servitor does not apply an IMMEDIATE entry. -/
def execGearSet (e : Entry) (s : State) : Host.Outcome State Fault Refusal :=
  .next (command [0x010B] e (fun _ s =>
    let n := fld (pw e 0) 0 2 + 1
    let a := pq e 2
    checked s [(!rsvOk e [3, 0, allBits, allBits] || a % 16 != 0, stFormat),
               (hostReadEnd s a (16 * n) != .ok, stHostReadError)] fun s =>
      let es := (List.range n).map fun i => gearEntry s (a + 16 * i)
      let pos := es.filter fun x => !x.2.2
      let kept := s.ftb.gears.filter fun g => !(pos.any fun x => x.1 == g.pos)
      let gears : List Gear := pos.foldl (fun l x => insertGear { pos := x.1, ratio := x.2.1 } l) kept
      checked s [((List.range n).any (fun i => !gearEntryOk s (a + 16 * i)) || !ascending (pos.map fun x => x.1), stFormat),
                 (pos.any fun x => decide (x.1 ≤ masterPos s), stPosPassed), (decide (4 < gears.length), stPendingFull),
                 (s.webCfg.pacing, stMode)] fun s =>
        let imm := if servitor s then [] else es.filter fun x => x.2.2
        let s1 := imm.foldl (fun t x => applyGear t x.2.1) { s with ftb := { s.ftb with gears := gears } }
        okWith (if imm.isEmpty then s1 else setPosFlag s1 2) []) s)

/-- LINE_REFERENCE (R159): at once, at a master position, or at the next qualified index rise of channel 0. -/
def execLineReference (e : Entry) (s : State) : Host.Outcome State Fault Refusal :=
  .next (command [0x010C] e (fun _ s =>
    let mode := fld (pw e 0) 0 2
    let lamI := pqS e 2
    let lamF := (pw e 4).toNat
    let p := pqS e 6
    checked s [(!rsvOk e [3, 0, allBits, allBits, allBits, 0, allBits, allBits] || mode == 3, stFormat),
               (anyActive s, stBusy), (mode == 1 && decide (p ≤ masterPos s), stPosPassed)] fun s =>
      if mode = 0 then okWith (applyReference (advancePacing s (nowUnits s)) lamI lamF) []
      else
        let r : LineRef := { onIndex := mode == 2, pos := p, lamI := lamI, lamF := lamF }
        okWith { s with ftb := { s.ftb with lineRef := some r } } []) s)

/-- PACE_SET (R174): the target rate, from the present instant on. A servitor leaves its rate to the gaffer's POSREF (R16). -/
def execPaceSet (e : Entry) (s : State) : Host.Outcome State Fault Refusal :=
  .next (command [0x010D] e (fun _ s =>
    checked s [(!rsvOk e [allBits] || decide (819200000 < (pw e 0).toNat), stFormat), (!s.webCfg.pacing, stMode)] fun s =>
      let s1 := advancePacing s (nowUnits s)
      let f := { s1.ftb with rateTarget := (pw e 0).toNat, paceAt := nowUnits s }
      let s2 := advancePacing { s1 with ftb := f } (nowUnits s)
      okWith (if servitor s then s else setPosFlag s2 3) []) s)

/-- PULSE_CONFIG (R171): from the first tick or count after the commit point. An output on master counts then counts from the
present position, with DIV counts to go (DESIGN CHOICE, log 173). A camera aligned to the output loses its alignment (R234). -/
def execPulseConfig (e : Entry) (s : State) : Host.Outcome State Fault Refusal :=
  .next (command [0x0110] e (fun _ s =>
    let w := pw e 0
    let v := pw e 1
    let k := fld w 30 2
    let bad := !rsvOk e [0xF800FFFF, allBits] || decide (fld v 8 8 < 2) || (!bitOf w 27 && decide (fld w 0 16 < fld v 16 16))
    checked s [(bad, stFormat)] fun s =>
      let s1 := { s with pulses := modAt (fun p =>
        { p with enable := bitOf w 29, pol := bitOf w 28, src := bitOf w 27, div := fld w 0 16 + 1, phase := fld v 16 16
                 width := fld v 8 8, delay := fld v 0 8, countMax := some (masterPos s), count := 0 }) s.pulses k }
      let cams := match s.asy.setup with
        | some a => (List.range 4).filter fun c => (a.cams.map CamCfg.pulse)[c]? == some k
        | none => []
      okWith (cams.foldl unalignCamera s1) []) s)

/-- FIRE_TRIM (R172, R395): μ from a web line; with no job open it is stored at once. -/
def execFireTrim (e : Entry) (s : State) : Host.Outcome State Fault Refusal :=
  .next (command [0x0111] e (fun _ s =>
    let m := fld (pw e 0) 26 6
    let mu := signed 8 (fld (pw e 0) 0 8)
    let n := pqS e 2
    let t := s.web.trims
    checked s [(!rsvOk e [0xFC0000FF, 0, allBits, allBits] || decide (39 < m), stFormat),
               (s.job.isSome && phasesFull s ((pimsInUse s m).map fun q => (m, q)) n, stPendingFull)] fun s =>
      if s.job.isNone then
        let t1 := { base := mapSet 0 t.base m mu, changes := t.changes.filter fun c => c.1 != m }
        okWith { s with web := { s.web with trims := t1 } } []
      else
        let s1 := { s with web := { s.web with trims := timedPut t m n mu } }
        okWith ((pimsInUse s m).foldl (fun u q => sendRowsFrom u m q n) s1) []) s)

/-- WEB_STATUS (R395): λ, line counter, master position, FTB_SPEED, reverse state and mode, and the pending gear changes: their
number and, as the twelve result dwords hold one, the first of them, its ratio's whole lines beside the flags. DESIGN CHOICE (log 13). -/
def execWebStatus (e : Entry) (s : State) : Host.Outcome State Fault Refusal :=
  .next (command [0x0114] e (fun _ s =>
    checked s [(!rsvOk e [], stFormat)] fun s =>
      let lam := lamNow s (nowUnits s)
      let ratio := match s.ftb.gears with | g :: _ => g.ratio | [] => 0
      let flags := (if s.ftb.reversed then 1 else 0) + (if s.webCfg.pacing then 2 else 0) + 4 * s.ftb.gears.length +
        256 * (ratio / 2 ^ 32)
      okWith s (itq (lam / 2 ^ 32) ++ it (lam % 2 ^ 32) ++ itq (lineCounter s) ++ itq (masterPos s) ++ it (estimate s) ++
        it (flags : Nat) ++ (s.ftb.gears.take 1).flatMap fun g => itq g.pos ++ it (g.ratio % 2 ^ 32 : Nat))) s)

end Sys2Proof.Machine
end

