-- ==== Sys2Proof/Machine/Pages.lean ====
section
/-! DEFINITION. Jobs, page loading, admission and the offset commands (R44, R45, R53 to R65, R76 to R80, R392, R395, R398
to R400). -/

namespace Sys2Proof.Machine

/-! Jobs (R395, R398). -/

/-- The masks of the job record's fields (R398). -/
def jobMasks : List Nat :=
  [0xFFC007FF, allBits, allBits, 0xFF00003F, allBits, allBits, allBits, 0, allBits, allBits, 0, 0, 0, 0, 0, 0] ++
  List.replicate 16 0xFFE00000

/-- The masks of the geometry record's fields (R46). -/
def geoMasks : List Nat :=
  0xFF001FFF :: (List.replicate 16 0x0FFFFFFF ++ List.replicate 8 0x03FF03FF ++ List.replicate 7 0)

/-- The plane entries of a job record. -/
def jobPlanes (d : List Dword) : List PlaneCfg :=
  (List.range 16).map fun p =>
    let w := rdw d (16 + p)
    { inUse := bitOf w 31, format := fld w 29 2, planish := bitOf w 28, force := fld w 26 2, screen := fld w 21 5 }

/-- T_DECL, °C. -/
def jobTemp (d : List Dword) : Int := signed 8 (fld (rdw d 3) 24 8)

/-- LEAD, 0 selecting 128 (R398). -/
def jobLead (d : List Dword) : Nat := if fld (rdw d 0) 0 11 = 0 then 128 else fld (rdw d 0) 0 11

/-- The job a record describes; STAGGER from the geometry record (R46). -/
def jobOf (s : State) (d geo : List Dword) : Job :=
  { jobId := rdw d 1, s := if bitOf (rdw d 0) 23 then 2 else 1, onebit := bitOf (rdw d 0) 22, lead := jobLead d
    lDecl := (rdw d 2).toNat, tDecl := jobTemp d, ctSlot := fld (rdw d 3) 0 2, lwSlot := fld (rdw d 3) 2 2
    bpSlot := fld (rdw d 3) 4 2, accelMax := (rdw d 4).toNat, iDecl := (rdw d 5).toNat, reserve := (rdw d 6).toNat
    stagger := fld (rdw geo 0) 0 13, planes := jobPlanes d, vcore := s.pwr.vcore, once := [], raw := d, geo := geo }

/-- Check 1 of R398 on the job record. -/
def jobRecordOk (s : State) (d : List Dword) : Bool :=
  let lead := fld (rdw d 0) 0 11
  let l := (rdw d 2).toNat
  let t := jobTemp d
  recRsvOk d jobMasks && fld (rdw d 0) 24 8 == 1 && (lead == 0 || decide (64 ≤ lead ∧ lead ≤ 1024)) &&
  decide (1 ≤ l ∧ l ≤ 600000) && decide (-10 ≤ t ∧ t ≤ 105) && fld (rdw d 3) 0 2 != 3 && fld (rdw d 3) 2 2 != 3 &&
  fld (rdw d 3) 4 2 != 3 && rq d 8 % 128 == 0 && decide ((rdw d 6).toNat ≤ spillChunks s) &&
  (jobPlanes d).any (·.inUse) &&
  (jobPlanes d).all fun c => c.format != 3 && !(c.inUse && c.format == 1 && c.force == 0)

/-- Check 1 of R398 on the geometry record (R46). -/
def geoRecordOk (d : List Dword) : Bool := recRsvOk d geoMasks && fld (rdw d 0) 24 8 == 1

/-- Every screen named by a plane that is not BYPASS is loaded (R99, R398 check 3). -/
def screensLoaded (s : State) (j : Job) : Bool :=
  j.planes.all fun c => !c.inUse || c.format == 2 || s.tables.screens.any fun e => e.1 == c.screen

/-- Each module in use lists its planes-in-module and the bit depth (R398 check 5). -/
def modulesFit (s : State) (j : Job) : Bool :=
  let t := { s with job := some j }
  (modulesInUse t).all fun m => hasDepth s m j.onebit && (pimsInUse t m).all fun q => hasPim s m q

/-- A generation still unacknowledged by some joined module receives its boundary as a job opens, and the servitor is
told; one that every joined module has acknowledged needs none (R118, R489). -/
def boundPending (s : State) : State :=
  match s.map.pending with
  | none => s
  | some g =>
    match s.map.gens.find? fun x => x.number == g && x.boundary.isNone &&
        (joinedModules s).any fun m => !s.map.acked.contains (m, g) with
    | none => s
    | some x =>
      let n := earliestBoundary s (genSpan x)
      let s1 := { s with map := { s.map with gens := s.map.gens.map fun y =>
        if y.number = g then { y with boundary := some n } else y } }
      if servitor s then s else tellServitor s1 1 [halves g (2 ^ 30), sq n]

/-- The open job closes: LOADED pages are removed, the assay setup ends, and the end of the last firing span is kept
(R395, R406). -/
def closeJob (s0 : State) : State :=
  let s := noteDropped (advancePacing s0 (nowUnits s0))
  let f := (spanEnds s).foldl max s.pages.fireEnd
  let s1 := (s.pages.list.filter fun p => p.state == .loaded).foldl removePage s
  let s2 := { s1 with pages := { s1.pages with fireEnd := f }
                      asy := { s1.asy with setup := none, variantsDue := false } }
  retirePages { s2 with job := none }

/-- The geometry record's offsets and shifts, and the screens of the planes that have one. -/
def jobWeb (s : State) (j : Job) (geo : List Dword) : Web :=
  let d := (List.range 16).map fun p => (p, ((rdw geo (1 + p)).toNat : Int))
  let x := (List.range 16).map fun p => (p, signed 10 (fld (rdw geo (17 + p / 2)) (16 * (p % 2)) 10))
  let b := ((List.range 16).filter fun p => match j.planes[p]? with | some c => c.inUse && c.format != 2 | none => false).map
    fun p => (p, match j.planes[p]? with | some c => (c.screen : Int) | none => 0)
  { dOff := { base := mapSetAll 0 [] d, changes := [] }, xShift := { base := mapSetAll 0 [] x, changes := [] }
    screens := { base := mapSetAll 0 [] b, changes := [] }, trims := s.web.trims }

/-- The job takes effect: each slice begins with the record whose slice deadline is the next line tick, no line from it on has
been sent (R99), and JOBCFG and the placement phases go to every joined module (R85, R196, R398). The pacing rate until now
moved under the job that was open (R174). -/
def startJob (s9 : State) (j : Job) (geo : List Dword) : State :=
  let s := noteDropped (advancePacing s9 (nowUnits s9))
  let s0 := { s with job := some j, web := jobWeb s j geo }
  let handed := (modulePlanes s0).map fun x =>
    (mp x.1 x.2, lineCounter s + 1 - dLines s0 (planeOf x.1 x.2) (lineCounter s) + j.lead)
  let s1 := { s0 with slices := { s0.slices with recs := [], handed := mapSetAll minI64 [] handed }
                      dxl := { s0.dxl with released := mapSetAll minI64 s0.dxl.released handed } }
  let s2 := (linkedModules s1).foldl (fun t m => sendModulePhases (emit t (.ctrl m (jobcfgWord t j m))) m) s1
  boundPending s2

/-- JOB_OPEN (R398). -/
def execJobOpen (e : Entry) (s : State) : Host.Outcome State Fault Refusal :=
  .next (command [0x0101] e (fun _ s =>
    checked s [(!rsvOk e [allBits, allBits] || pq e 0 % 64 != 0, stFormat)] fun s =>
      withRecord s (pq e 0) 32 fun d =>
        checked s [(!jobRecordOk s d, stFormat)] fun s =>
          withRecord s (rq d 8) 32 fun geo =>
            let j := jobOf s d geo
            let t := { s with job := some j }
            let lm := jobLmax s j (vtFactor s.pwr.vcore j.tDecl)
            let res := it j.jobId.toNat ++ it (holdDepth j) ++ lm.flatMap fun v => it v
            let below := fun (i : Nat) => decide (lm.getD i 0 < j.lDecl)
            match firstFail [(!geoRecordOk geo, stFormat), (anyActive s, stBusy), (!screensLoaded s j, stNoScreen),
                             ((modulesInUse t).any fun m => !(groupAt s m).run, stModuleAbsent),
                             (!modulesFit s j, stModuleUnfit),
                             ((modulesInUse t).any fun m => decide (bufLines s m < holdDepth j), stBuffer)] with
            | some st => reject s st
            | none =>
              match firstFail [(below 0, stEnvelopeE1), (below 1, stEnvelopeE2), (below 2, stEnvelopeE3),
                               (below 3, stEnvelopeE4)] with
              | some st => .done s st res
              | none => okWith (startJob (if s.job.isSome then closeJob s else s) j geo) res) s)

/-- JOB_CLOSE (R395). -/
def execJobClose (e : Entry) (s : State) : Host.Outcome State Fault Refusal :=
  .next (command [0x0102] e (fun _ s =>
    checked s [(!rsvOk e [], stFormat), (s.job.isNone, stNoJob), (anyActive s, stBusy)] fun s => okWith (closeJob s) []) s)

/-! Descriptors (R53 to R57). -/

/-- The masks of a page descriptor's header (R53). -/
def headerMasks : List Nat :=
  [0xFF00003F, allBits, 0x00FFFFFF, 0x0FFF0FFF, 0x00000303, allBits, allBits, allBits]

/-- The header checks of R57. -/
def headerOk (d : List Dword) : Bool :=
  let nl := fld (rdw d 0) 0 6
  let w := fld (rdw d 3) 16 12
  let c := fld (rdw d 3) 0 12
  let mode := fld (rdw d 4) 0 2
  recRsvOk d headerMasks && fld (rdw d 0) 24 8 == 1 && decide (nl ≤ 32) && fld (rdw d 2) 0 24 != 0 &&
  decide (1 ≤ w ∧ w ≤ 2560 ∧ c ≤ 2559 ∧ c + w ≤ 2560) && (mode == 3 || fld (rdw d 4) 8 2 == 0) &&
  (mode == 1 || mode == 3 || (rdw d 5) == 0) && (mode == 2 || rq d 6 == 0)

/-- Job lines per block row of a layer kind (R48). -/
def layerLines (s : State) (layer : Nat) : Nat := if layer = 0 then 64 / jobS s else 16

/-- The plane's format carries the layer (R48). -/
def formatCarries (format layer : Nat) : Bool :=
  match format, layer with
  | 0, 0 => true
  | 1, 0 => true
  | 1, 1 => true
  | 2, 2 => true
  | _, _ => false

/-- The layer descriptors of a page (R54), 8 dwords each after the header. -/
def layerOf (d : List Dword) (i : Nat) : Layer :=
  let b := 16 + 8 * i
  { plane := fld (rdw d b) 16 4, layer := fld (rdw d b) 8 2, effort := fld (rdw d b) 0 3, rows := (rdw d (b + 1)).toNat
    rowTable := rq d (b + 2) }

/-- The checks of R57 on layer descriptor `i`. -/
def layerOk (s : State) (d : List Dword) (i : Nat) : Bool :=
  let b := 16 + 8 * i
  let l := layerOf d i
  let cfg := match s.job with | some j => j.planes[l.plane]? | none => none
  let rsv := recRsvOk ((List.range 8).map fun k => rdw d (b + k)) [0x000F0307, allBits, allBits, allBits]
  let carries := match cfg with | some c => c.inUse && formatCarries c.format l.layer | none => false
  let twice := (List.range i).any fun k => (layerOf d k).plane == l.plane && (layerOf d k).layer == l.layer
  rsv && l.layer != 3 && carries && !twice && l.rows == cdiv (fld (rdw d 2) 0 24) (layerLines s l.layer) &&
  l.rowTable % 16 == 0

/-- The row table entry of block row `r`: address and length (R55). -/
def rowEntry (s : State) (l : Layer) (r : Nat) : Nat × Nat :=
  let a := l.rowTable + 16 * r
  (hostDw s a |>.toNat |> (· + 2 ^ 32 * (hostDw s (a + 4)).toNat), (hostDw s (a + 8)).toNat)

/-- The reserved dword of a row table entry is 0 (R55). -/
def rowEntryOk (s : State) (l : Layer) (r : Nat) : Bool := hostDw s (l.rowTable + 16 * r + 12) == 0

/-- Read request `k` of a structure of `n` bytes at `a` succeeds. A structure is read in requests of 512 bytes from its start
(DESIGN CHOICE, log 133; R59 leaves the split to the AZ1640). -/
def requestOk (s : State) (a n k : Nat) : Bool := hostReadEnd s (a + 512 * k) (min 512 (n - 512 * k)) == .ok

/-- The start address of the first read request of a structure that fails (R59). -/
def failedRequest (s : State) (a n : Nat) : Option Nat :=
  ((List.range (cdiv n 512)).find? fun k => !requestOk s a n k).map fun k => a + 512 * k

/-- The first layer descriptor, and block row of its row table, that fails a check of R57, among those that could be read:
`n` descriptors of a page descriptor at `a`. -/
def badLayer (s : State) (a : Nat) (d : List Dword) (n : Nat) : Option (Nat × Nat) :=
  (List.range n).findSome? fun i =>
    let l := layerOf d i
    if !requestOk s (a + 64) (32 * n) (i / 16) then none
    else if !layerOk s d i then some (i, 0)
    else ((List.range l.rows).find? fun r =>
      requestOk s l.rowTable (16 * l.rows) (r / 32) && !rowEntryOk s l r).map fun r => (i, r)

/-- The start address of the first read request of the layer descriptors, or of a row table, that fails (R59). -/
def failedRead (s : State) (a : Nat) (d : List Dword) (n : Nat) : Option Nat :=
  match failedRequest s (a + 64) (32 * n) with
  | some x => some x
  | none => (List.range n).findSome? fun i => failedRequest s (layerOf d i).rowTable (16 * (layerOf d i).rows)

/-- The row tables of the layers, as read once (R58). -/
def rowTables (s : State) (ls : List Layer) : List (List (Nat × Nat)) :=
  ls.map fun l => (List.range l.rows).map (rowEntry s l)

/-- The bytes of the page's row records (R61). -/
def recordBytes (tables : List (List (Nat × Nat))) : Nat := (tables.map fun t => (t.map Prod.snd).sum).sum

/-! Loading (R58 to R65). -/

/-- Ways a range of host memory is covered by the pieces that have arrived. -/
def covered (have_ : List (Nat × Nat)) : Nat → Nat → Nat → Bool
  | _, _, 0 => true
  | 0, _, _ => false
  | fuel + 1, a, n =>
    match have_.find? fun x => decide (x.1 ≤ a ∧ a < x.1 + x.2) with
    | none => false
    | some x => covered have_ fuel (x.1 + x.2) (n - (x.1 + x.2 - a))

/-- `n` arrived bytes from `a`. -/
def arrivedBytes (ld : Load) (a n : Nat) : List Byte := (List.range n).map fun i => mapGet 0 ld.arrived (a + i)

/-- NB of R56: occupancy bits of a block row. -/
def blockCols (p : Page) (l : Layer) : Nat := if l.layer = 0 then p.ncol64 else 4 * p.ncol64

/-- Bitmap bytes of a block row. -/
def bitmapBytes (p : Page) (l : Layer) : Nat := cdiv (blockCols p l) 8

/-- Bit `b` of an occupancy bitmap: byte b div 8, bit 7 − (b mod 8) (R56). -/
def bitmapBit (bs : List Byte) (b : Nat) : Bool := (bs.getD (b / 8) 0).getLsbD (7 - b % 8)

/-- The slot size of a layer (R48, R398). -/
def slotOf (s : State) (l : Layer) : Nat :=
  match s.job with
  | none => 0
  | some j => if l.layer = 0 then ctSlotBytes j.ctSlot else if l.layer = 1 then lwSlotBytes j.lwSlot else lwSlotBytes j.bpSlot

/-- Bits per sample of a layer (R48). -/
def sampleBits (l : Layer) : Nat := if l.layer = 0 then 8 else 2

/-- A row's bytes in the page store with `n` occupied blocks (R63). -/
def rowFootprint (nb slot n : Nat) : Nat := if n = 0 then 16 else 16 + 64 * cdiv (cdiv nb 8) 64 + 64 * cdiv (n * slot) 64

/-- The bytes each window of 64 native lines fetches, of a page's blocks (R76). -/
def windowBytes (s : State) (p : Page) : Sparse Nat :=
  p.blocks.foldl (fun acc b =>
    let w := b.row * layerLines s b.layer / (64 / jobS s)
    let extra := if b.spilled then (if b.layer = 0 then 256 else 64) else 0
    mapSet 0 acc w (mapGet 0 acc w + b.slot.length + extra)) []

/-- F_page's numerator: the largest window (R76). -/
def fPageOf (s : State) (p : Page) : Nat := ((windowBytes s p).map Prod.snd).foldl max 0

/-- F_page as reported: bytes per line, rounded up (log 25). -/
def fPageReport (s : State) (p : Page) : Nat := cdiv p.fPage (64 / jobS s)

/-- The load ends without its page: what was stored is freed, the page is ABORTED (R57, R59, R60, R63, R65). -/
def failLoad (s : State) (ld : Load) (st : Nat) (res : List Dword) : State :=
  let s1 := setPage s ld.pageId fun p => { freed p with state := .aborted }
  finishOp { s1 with pages := { s1.pages with load := none } } 0x0103 st res

/-- A failure at a block: layer descriptor, block row, block column (R57, R60). -/
def failBlock (s : State) (ld : Load) (st : Nat) : State := failLoad s ld st (it ld.layerIx ++ it ld.row ++ it ld.col)

/-- The load completes with the figures of R61. -/
def completeLoad (s : State) (ld : Load) : State :=
  match pageOf s ld.pageId with
  | none => s
  | some p =>
    let f := fPageOf s p
    let s1 := setPage s ld.pageId fun q => { q with state := .loaded, fPage := f }
    finishOp { s1 with pages := { s1.pages with load := none } } 0x0103 stOk
      (itq p.footprint ++ it (chunksOf p) ++ it (fPageReport s { p with fPage := f }) ++ itq p.ingest)

/-- The load in progress at a new place. -/
def setLoad (s : State) (ld : Load) : State := { s with pages := { s.pages with load := some ld } }

/-- The address and length of the row record at the load's place (R55). -/
def recordAt (ld : Load) : Nat × Nat := (ld.tables.getD ld.layerIx []).getD ld.row (0, 0)

/-- The load goes on to the next block row. -/
def nextRow (ld : Load) : Load := { ld with row := ld.row + 1, col := 0, pos := 0, rowBegun := false }

/-- The next occupied block column at or after `c`. -/
def nextCol (bm : List Byte) (nb c : Nat) : Option Nat :=
  ((List.range nb).drop c).find? (bitmapBit bm)

/-- A row is begun: its bitmap is checked and its room in the page store taken (R56, R57, R63). Answers the load at the
row's first block, or at the next row, or the load's end. -/
def beginRow (s : State) (ld : Load) (p : Page) (l : Layer) (addr len : Nat) : State × Option Load :=
  let nb := blockCols p l
  let bmb := bitmapBytes p l
  let bm := arrivedBytes ld addr bmb
  let n := if len = 0 then 0 else ((List.range nb).filter (bitmapBit bm)).length
  let foot := rowFootprint nb (slotOf s l) n
  let padded := (List.range (8 * bmb - nb)).any fun i => bitmapBit bm (nb + i)
  if len ≠ 0 ∧ (len < bmb ∨ padded = true ∨ (n = 0 ∧ len ≠ bmb)) then (failBlock s ld stFormat, none)
  else if regionBytes s 3 < storeHeld s + foot then (failLoad s ld stStoreFull [], none)
  else
    let s1 := setPage s ld.pageId fun q => { q with footprint := q.footprint + foot }
    if n = 0 then (s1, some (nextRow ld))
    else (s1, some { ld with rowBegun := true, pos := bmb, col := (nextCol bm nb 0).getD 0 })

/-- The load moves over finished rows and layers until a block, or bytes that have not arrived, come next; past the last
layer it completes. -/
def advanceLoad (s : State) (ld : Load) (p : Page) : Nat → State
  | 0 => setLoad s ld
  | fuel + 1 =>
    match p.layers[ld.layerIx]? with
    | none => completeLoad s ld
    | some l =>
      if l.rows ≤ ld.row then
        advanceLoad s { ld with layerIx := ld.layerIx + 1, row := 0, col := 0, pos := 0, rowBegun := false } p fuel
      else if ld.rowBegun then setLoad s ld
      else
        let (addr, len) := recordAt ld
        if covered ld.have_ (ld.have_.length + 1) addr len then
          match beginRow s ld p l addr len with
          | (t, some ld1) => advanceLoad t ld1 p fuel
          | (t, none) => t
        else setLoad s ld

/-- Steps that cover a whole page. -/
def loadFuel (p : Page) : Nat := (p.layers.map Layer.rows).sum + p.layers.length + 2

/-- The load moves on. -/
def driveLoad (s : State) (ld : Load) : State :=
  match pageOf s ld.pageId with
  | some p => advanceLoad s ld p (loadFuel p)
  | none => s

/-- A page that enters LOADING (R79). -/
def newPage (d : List Dword) (layers : List Layer) (ingest : Nat) : Page :=
  { id := rdw d 1, state := .loading, lines := fld (rdw d 2) 0 24, ncol64 := fld (rdw d 3) 16 12, col64 := fld (rdw d 3) 0 12
    cueCh := fld (rdw d 4) 8 2, startMode := fld (rdw d 4) 0 2, startArg := (rdw d 5).toNat, startLine := signed 64 (rq d 6)
    layers := layers, blocks := [], rowPoison := [], emptyDead := [], ctChain := [], twoChain := [], footprint := 0
    nContone := 0, nTwoBit := 0, fPage := 0
    ingest := ingest, n0 := none, adm := 0, thin := false, cueSkips := 0, band := none, cuts := [], cut := false
    holds := true, deadBlocks := 0, once := [] }

/-- A page enters LOADING; an earlier page of the same id leaves the list, its firing span remembered (R79, R406). -/
def enterLoading (s : State) (p : Page) : State :=
  let f := (spanEnds { s with pages := { s.pages with list := s.pages.list.filter fun x => x.id == p.id } }).foldl max
    s.pages.fireEnd
  { s with pages := { s.pages with list := (s.pages.list.filter fun x => x.id != p.id) ++ [p], fireEnd := f } }

/-- The checks of PAGE_LOAD in the order of R58, and the page entering LOADING. DESIGN CHOICE (log 190): a failed read of the layer
descriptors or of a row table, before the page has entered LOADING, leaves no page. A failed descriptor check leaves an older DONE
or ABORTED page of the same PAGE_ID in the list, which PAGE_STATUS goes on reporting (DESIGN CHOICE, log 134). -/
def loadPage (e : Entry) (s : State) : Reply :=
  let a := pq e 0
  let bad := fun (x : Nat) => Reply.done s stHostReadError (itq x)
  if s.job.isNone then reject s stNoJob
  else if 256 ≤ (s.pages.list.filter holdsPlace).length then reject s stQueueFull
  else if hostReadEnd s a 64 ≠ .ok then bad a
  else
    let h := hostDws s a 16
    if !headerOk h then reject s stFormat
    else if s.pages.list.any fun p => p.id == rdw h 1 && holdsPlace p then reject s stDupPageId
    else
      let n := fld (rdw h 0) 0 6
      let d := hostDws s a (16 + 8 * n)
      match badLayer s a d n, failedRead s a d n with
      | some (i, r), _ => .done s stFormat (it i ++ it r ++ it 0)
      | none, some x => bad x
      | none, none =>
        let layers := (List.range n).map (layerOf d)
        let tables := rowTables s layers
        let p := newPage d layers (64 + 32 * n + (layers.map fun l => 16 * l.rows).sum + recordBytes tables)
        let ld : Load := { pageId := p.id, entry := e, tables := tables, arrived := [], have_ := [], layerIx := 0, row := 0
                           col := 0, pos := 0, rowBegun := false }
        .runs (setLoad (enterLoading s p) ld) []

/-- PAGE_LOAD (R57, R58): loads run one at a time; a load with nothing to wait for goes on at once. A descriptor address
that is not 64-byte aligned completes with FORMAT before the checks of R58 (DESIGN CHOICE, log 132: the spec gives the
case no status and no place in the order). -/
def execPageLoad (e : Entry) (s : State) : Host.Outcome State Fault Refusal :=
  let s1 := command [0x0103] e (fun _ s =>
    if !rsvOk e [allBits, allBits] || pq e 0 % 64 != 0 then reject s stFormat
    else if s.pages.load.isSome then .waits else loadPage e s) s
  .next (match s.pages.load, s1.pages.load with
    | none, some ld => driveLoad s1 ld
    | _, _ => s1)

/-- DMA_READ_COMPLETION (R58, R59): a read of at most 512 bytes delivers its bytes, or ends the load with
HOST_READ_ERROR and its start address. -/
def execDmaReadCompletion (addr len : Nat) (outcome : DmaEnd) (s : State) : Host.Outcome State Fault Refusal :=
  match s.pages.load with
  | none => .next s
  | some ld =>
    if len = 0 ∨ 512 < len then .next s
    else if outcome ≠ .ok then .next (failLoad s ld stHostReadError (itq addr))
    else
      let fresh := fun (a : Nat) => !ld.have_.any fun x => decide (x.1 ≤ a ∧ a < x.1 + x.2)
      let cells := ((List.range len).filter fun i => fresh (addr + i)).map fun i => (addr + i, hostByte s ((addr + i) % 2 ^ 64))
      let ld1 := { ld with arrived := mapSetAll 0 ld.arrived cells, have_ := ld.have_ ++ [(addr, len)] }
      .next (driveLoad (setLoad s ld1) ld1)

/-- How the block at the load's place is to be stored: the coded bytes that go into a slot, or the raw samples. -/
inductive Stored where
  | coded (bytes : List Byte) (used : Nat)
  | spill (samples : List Nat) (used : Nat)
  | fails (status : Nat)
deriving DecidableEq, Repr

/-- Rules 1 to 4 of R60 on the stream that starts in `bytes`, with slot size `slot`. -/
def storeRule (b effort slot : Nat) (bytes : List Byte) : Stored :=
  let bits := bitsOf bytes
  match decodeBits b bits with
  | (_, .pastEnd) => .fails stFormat
  | (_, .badMode) => .fails stFormat
  | (_, .bad) => .fails stDecodeError
  | (mode, .ok samples rest) =>
    let used := bytesUsed bits.length rest.length
    let stream := if mode = 1 then encodeBlock b effort samples else bytes.take used
    if stream.length ≤ slot then .coded stream used else .spill samples used

/-- A slot's bytes, the rest filled with 0 (R60). -/
def fillSlot (slot : Nat) (bs : List Byte) : List Byte := bs ++ List.replicate (slot - bs.length) 0

/-- The slot of a spilled block: MODE 0b10 and the unit index (R67). -/
def spillSlot (slot unit : Nat) : List Byte := fillSlot slot (packBits (valBits 2 2 ++ valBits 30 unit))

/-- A block at the load's place. -/
def blockOf (l : Layer) (ld : Load) (slot packed : List Byte) (spilled : Bool) (unit : Nat) : Block :=
  { plane := l.plane, layer := l.layer, row := ld.row, col := ld.col, slot := slot, packed := packed
    spilled := spilled, unit := unit, poisoned := false, settled := [] }

/-- The page with a coded block in a slot. -/
def addSlot (p : Page) (l : Layer) (ld : Load) (slot : List Byte) : Page :=
  { p with blocks := p.blocks ++ [blockOf l ld slot [] false 0] }

/-- Raw blocks a chunk of this chain holds: 16 contone blocks, or 64 of 2 bits (R64). -/
def chunkBlocks (contone : Bool) : Nat := if contone then 16 else 64

/-- The chain of the page, and the blocks it holds (R64). -/
def chainOf (p : Page) (contone : Bool) : List Nat × Nat :=
  if contone then (p.ctChain, p.nContone) else (p.twoChain, p.nTwoBit)

/-- Room for one more raw block on a page's chain: in the last chunk, or in a further one, which is a free value among the
free chunks of the pool (R64); none where the pool is full (R65). Answers the chain and the block's first unit. Blocks fill
a chunk's units in the order they are stored (DESIGN CHOICE, log 135). -/
def takeUnits (s : State) (p : Page) (contone : Bool) : Option (State × List Nat × Nat) :=
  let (chain, n) := chainOf p contone
  let per := chunkBlocks contone
  let at_ := fun (c : Nat) => 64 * c + n % per * (64 / per)
  if n < per * chain.length then some (s, chain, at_ (chain.getLast?.getD 0))
  else if spillChunks s ≤ chunksHeld s then none
  else
    let (s1, v) := drawFree s
    let c := freeChunk (heldChunks s) (v % (spillChunks s - chunksHeld s))
    some (s1, chain ++ [c], at_ c)

/-- The page with a raw block in spill units of the chain given (R60, R64). -/
def addSpill (p : Page) (l : Layer) (ld : Load) (slot : Nat) (samples chain : List Nat) (unit : Nat) : Page :=
  let packed := packBits (samples.flatMap (valBits (sampleBits l)))
  let q := { p with blocks := p.blocks ++ [blockOf l ld (spillSlot slot unit) packed true unit] }
  if l.layer = 0 then { q with ctChain := chain, nContone := p.nContone + 1 }
  else { q with twoChain := chain, nTwoBit := p.nTwoBit + 1 }

/-- After a block, the next one of its row, or the row's end: the streams must end with the row record (R57). -/
def afterBlock (s : State) (ld : Load) (p : Page) (l : Layer) (addr len used : Nat) : State :=
  let nb := blockCols p l
  let bm := arrivedBytes ld addr (bitmapBytes p l)
  let pos := ld.pos + used
  match nextCol bm nb (ld.col + 1) with
  | some c => driveLoad s { ld with pos := pos, col := c }
  | none => if pos = len then driveLoad s (nextRow ld) else failBlock s ld stFormat

/-- BLOCK_STORE (R60, R64, R65): the next block of the load is stored, or ends it. -/
def execBlockStore (s : State) : Host.Outcome State Fault Refusal :=
  match s.pages.load with
  | none => .next s
  | some ld =>
    match pageOf s ld.pageId with
    | none => .next s
    | some p =>
      match p.layers[ld.layerIx]? with
      | none => .next s
      | some l =>
        if !ld.rowBegun then .next s
        else
          let (addr, len) := recordAt ld
          let slot := slotOf s l
          match storeRule (sampleBits l) l.effort slot (arrivedBytes ld (addr + ld.pos) (len - ld.pos)) with
          | .fails st => .next (failBlock s ld st)
          | .coded bytes used =>
            .next (afterBlock (setPage s ld.pageId fun q => addSlot q l ld (fillSlot slot bytes)) ld p l addr len used)
          | .spill samples used =>
            match takeUnits s p (l.layer == 0) with
            | none => .next (failLoad s ld stSpillFull [])
            | some (s0, chain, unit) =>
              .next (afterBlock (setPage s0 ld.pageId fun q => addSpill q l ld slot samples chain unit) ld p l addr len used)

/-! Admission (R76 to R78, R243, R273, R399). -/

/-- The start a page would take now: n0 where it resolves, and N0_STATE (R51, R52, R399). -/
def startNow (s : State) (p : Page) : Option Int × Nat :=
  if p.startMode = 3 then (none, 1)
  else if (firstUnresolved s).isSome then (none, 2)
  else if p.startMode = 2 then (some p.startLine, 0)
  else (some (chainedStart s p).1, 0)

/-- The result of PAGE_COMMIT (R399) with the reserve held counted as given. -/
def commitResult (s : State) (p : Page) (n0 : Option Int) (code held : Nat) : List Dword :=
  let b := match p.band with | some x => x.planes.foldl (fun a k => a + 2 ^ k) 0 | none => 0
  let bl := match p.band, n0 with
    | some _, some n => unsignedOf 64 (n + p.lines)
    | _, _ => 0
  [p.id] ++ it (code * 2 ^ 30 + (if p.thin then 2 ^ 29 else 0) + (if b = 0 then 0 else 2 ^ 28) + b : Nat) ++ itq (n0.getD 0) ++
  dwordsOf bl ++ it (bandLines p) ++ it (chunksOf p) ++ it (reserveOf s - held) ++ it (fPageReport s p)

/-- Checks 4 to 6 of R78. -/
def reserveFail (s : State) (p : Page) : Option Nat :=
  firstFail [(decide (reserveOf s < chunksOf p), stSpillExceedsReserve),
             (decide (reserveOf s < reserveHeld s + chunksOf p), stSpillReserve), (!e4Page s p, stEnvelopeE4)]

/-- The page enters ADMITTED with its admission number, its band and its thinning flag. -/
def enterAdmitted (s : State) (p : Page) (thin : Bool) (planes : List Nat) : State :=
  let s1 := setPage s p.id fun x => { x with state := .admitted, adm := s.pages.nextAdm, thin := thin, band := bandOf s planes }
  attachBand { s1 with pages := { s1.pages with nextAdm := s.pages.nextAdm + 1 } } planes

/-- The lines of a page that the gaffer's PAGE message admits have no shadow here (R273); a message that rejects it says
nothing of lines. -/
def unshadowMsg (s : State) (m : Dword × Nat × Bool × Nat × Int × Nat) : State :=
  let (id, state, _, band, n0, lines) := m
  if state = 2 then s
  else unshadow s id (if state = 1 then some n0 else none) lines ((List.range 16).filter fun k => band.testBit k)

/-- A servitor has rejected a page: it has no shadow where the gaffer has admitted it, now or later (R273). -/
def refusePage (s : State) (id : Dword) : State :=
  if !servitor s then s
  else match s.par.pageMsgs.find? fun m => m.1 == id with
    | some m => unshadowMsg s m
    | none => { s with par := { s.par with refused := s.par.refused.erase id ++ [id] } }

/-- A rejected PAGE_COMMIT, of which the servitor is told (R268, R273). -/
def rejectPage (s : State) (id : Dword) (st : Nat) (res : List Dword) : Reply := .done (refusePage (tellRejected s id) id) st res

/-- The commit of a chip that decides for itself: checks 1 to 7 of R78. -/
def commitOwn (s : State) (p : Page) : Reply :=
  let (n0, code) := startNow s p
  let early := p.startMode == 2 && decide (n0.getD 0 ≤ ePrev s)
  let passed := p.startMode == 2 && decide (n0.getD 0 < earliestStart s)
  match firstFail [(s.ftb.lineRef.isSome, stBusy), (p.state != .loaded, stNotLoaded), (early, stOverlap),
                   (passed, stStartPassed)] with
  | some st => rejectPage s p.id st []
  | none =>
    match reserveFail s p with
    | some st => rejectPage s p.id st (commitResult s { p with band := none, thin := false } n0 code (reserveHeld s))
    | none =>
      let s1 := enterAdmitted s p (!e5 s) (bandPlanesNow s)
      let s2 := match pageOf s1 p.id with
        | some q => if code ≠ 0 then tellPage s1 q 0
                    else if p.startMode = 2 then resolvePage s1 p.id p.startLine else resolveChained s1 q
        | none => s1
      match pageOf s2 p.id with
      | some q => okWith s2 (commitResult s2 q q.n0 code (reserveHeld s2))
      | none => okWith s2 []

/-- The commit of a servitor with the gaffer's PAGE message (R273): checks 1, 4, 5 and 6, then the gaffer's n0 and band. A
page it rejects and the gaffer admits has no shadow. -/
def commitServitor (s : State) (p : Page) (m : Dword × Nat × Bool × Nat × Int × Nat) : Reply :=
  let (_, state, thin, band, n0, lines) := m
  let planes := (List.range 16).filter fun k => band.testBit k
  let s0 := { s with par := { s.par with pageMsgs := s.par.pageMsgs.erase m } }
  let start := if state = 1 then some n0 else none
  let code := if state = 1 then 0 else if p.startMode = 3 then 1 else 2
  if p.state ≠ .loaded then .done (unshadowMsg s0 m) stNotLoaded []
  else if state = 2 then reject s0 stPartnerRejected
  else
    match reserveFail s p with
    | some st =>
      .done (unshadow s0 p.id start lines planes) st
        (commitResult s { p with band := none, thin := thin } start code (reserveHeld s))
    | none =>
      let lone := s0.par.unshadowed.filter fun u => u.1 != p.id
      let s1 := enterAdmitted { s0 with par := { s0.par with unshadowed := lone } } p thin planes
      let s2 := if state = 1 then resolvePage s1 p.id n0 else s1
      match pageOf s2 p.id with
      | some q => okWith s2 (commitResult s2 q q.n0 code (reserveHeld s2))
      | none => okWith s2 []

/-- The entry is a PAGE_COMMIT that completes now on one of the checks every command makes. -/
def commitFailsEarly (e : Entry) (s : State) : Bool :=
  opcodeOf e == 0x0104 && match commitRecord s e with
    | some r => (commonCheck s r).isSome
    | none => false

/-- PAGE_COMMIT (R78, R273, R399, R407, R408). The servitor is told of each completion (R268). -/
def pageCommit (e : Entry) (s : State) : State :=
  let id := pw e 0
  command [0x0104] e (fun _ s =>
    if !rsvOk e [allBits] then rejectPage s id stFormat []
    else match pageOf s id with
      | none => rejectPage s id stNoPage []
      | some p =>
        if p.state = .loading then .waits
        else if s.pwr.state ≠ .print ∨ (s.pwr.stale ∧ ¬ s.par.enabled) then rejectPage s id stState []
        else if servitor s then
          match s.par.pageMsgs.find? fun m => m.1 == p.id with
          | some m => commitServitor s p m
          | none => if s.par.linkRun && s.par.state == .shadow then .waits else reject s stPartnerDown
        else if p.state = .loaded ∧ p.startMode = 2 ∧ (firstUnresolved s).isSome then .waits
        else commitOwn s p) (if commitFailsEarly e s then tellRejected s id else s)

/-- PAGE_COMMIT. -/
def execPageCommit (e : Entry) (s : State) : Host.Outcome State Fault Refusal := .next (pageCommit e s)

/-! PAGE_ABORT (R80, R273, R392, R400). -/

/-- A PAGE_COMMIT still waiting on the page completes with ABORTED_BEFORE_COMMIT (R80). -/
def endWaitingCommit (s : State) (id : Dword) : State :=
  match s.mbx.inFlight.find? fun r => !r.committed && r.note == [1] && opcodeOf r.entry == 0x0104 && pw r.entry 0 == id with
  | some r => tellRejected (finish s r stAbortedBeforeCommit []) id
  | none => s

/-- The result of PAGE_ABORT (R400): CUT_LINE is all ones unless the page was PRINTING. -/
def abortResult (p : Page) (cuts : List (Nat × Int)) : List Dword :=
  let line := match cuts.map Prod.snd with
    | [] => 2 ^ 64 - 1
    | x :: xs => unsignedOf 64 (xs.foldl min x)
  [p.id] ++ it (pageCode p.state * 2 ^ 28 : Nat) ++ dwordsOf (if p.state = .printing then line else 2 ^ 64 - 1)

/-- What an abort does to a page at its commit point, `cuts` being its first blank lines while PRINTING. -/
def abortPage (s : State) (p : Page) (cuts : List (Nat × Int)) : State :=
  match p.state with
  | .loading =>
    let s1 := match s.pages.load with | some ld => failLoad s ld stAbortedBeforeCommit [] | none => s
    endWaitingCommit s1 p.id
  | .loaded | .admitted => endWaitingCommit (resolveAll (removePage s p)) p.id
  | .printing => resolveAll (retirePages (cutPage s p cuts))
  | _ => s

/-- The abort of a servitor takes effect at the lines of the gaffer's PAGEEND (R273). -/
def abortServitor (s : State) (p : Page) : Reply :=
  match s.par.pageEnds.find? fun x => x.1 == p.id with
  | some x =>
    let cuts := (planesInUse s).zip x.2.2
    okWith (abortPage { s with par := { s.par with pageEnds := s.par.pageEnds.erase x } } p cuts) (abortResult p cuts)
  | none => if s.par.linkRun && s.par.state == .shadow then .waits else reject s stPartnerDown

/-- PAGE_ABORT (R80, R400). -/
def pageAbort (e : Entry) (s : State) : State :=
  command [0x0105] e (fun _ s =>
    if !rsvOk e [allBits] then reject s stFormat
    else match pageOf s (pw e 0) with
      | none => reject s stNoPage
      | some p =>
        if p.state = .done ∨ p.state = .aborted then .done s stAlreadyDone (abortResult p [])
        else if servitor s && pageActive p then abortServitor s p
        else
          let cuts := if p.state = .printing then cutLines s p else []
          let lines := (planesInUse s).map fun k =>
            match cuts.find? fun c => c.1 == k with | some c => c.2 | none => p.n0.getD minI64
          let s1 := if pageActive p then tellPageEnd s p.id 1 lines else s
          okWith (abortPage s1 p cuts) (abortResult p cuts)) s

/-- PAGE_ABORT. -/
def execPageAbort (e : Entry) (s : State) : Host.Outcome State Fault Refusal := .next (pageAbort e s)

/-- PAGE_STATUS (R395): state code, n0, and the band's planes and first line, or NO_PAGE. -/
def execPageStatus (e : Entry) (s : State) : Host.Outcome State Fault Refusal :=
  .next (command [0x0106] e (fun _ s =>
    if !rsvOk e [allBits] then reject s stFormat
    else match pageOf s (pw e 0) with
      | none => reject s stNoPage
      | some p =>
        let b := match p.band with | some x => x.planes.foldl (fun a k => a + 2 ^ k) 0 | none => 0
        let line := match p.band, p.n0 with
          | some _, some n => n + p.lines
          | _, _ => 0
        okWith s (it (pageCode p.state) ++ itq (p.n0.getD 0) ++ it (b : Nat) ++ itq line ++ it (bandLines p))) s)

/-! Offsets and shifts (R44, R45, R395). -/

/-- The next change of plane `p` after web line `n`. -/
def nextChange (t : Timed) (p : Nat) (n : Int) : Option (Int × Int) :=
  (t.changes.filter fun c => c.1 == p && decide (n < c.2.1)).foldl (fun acc c =>
    match acc with
    | none => some (c.2.1, c.2.2)
    | some b => if c.2.1 < b.1 then some (c.2.1, c.2.2) else some b) none

/-- Δ, and Δ' of the later change, lie within 255 job lines (R44). -/
def offsetStepOk (s : State) (p : Nat) (n d : Int) : Bool :=
  let u := 256 * (jobS s : Int)
  let step := d / u - dLines s p (n - 1)
  let later := match nextChange s.web.dOff p n with
    | some c => c.2 / u - d / u
    | none => 0
  decide (step.natAbs ≤ 255 ∧ later.natAbs ≤ 255)

/-- DOFFSET_SET (R44, R172, R237, R395). A plane not in use completes with FORMAT (DESIGN CHOICE, log 174). -/
def execDoffsetSet (e : Entry) (s : State) : Host.Outcome State Fault Refusal :=
  .next (command [0x0107] e (fun _ s =>
    let p := fld (pw e 0) 28 4
    let d := (fld (pw e 0) 0 28 : Int)
    let n := pqS e 2
    checked s [(!rsvOk e [allBits, 0, allBits, allBits], stFormat), (s.job.isNone, stNoJob),
               (!(planesInUse s).contains p, stFormat), (decide (n < changeFloor s [p]), stLinePassed),
               (phasesFull s (carriers p) n, stPendingFull), (!offsetStepOk s p n d, stOutOfRange), (!offsetSeen s p d, stGeometry)] fun s =>
      let s1 := { s with web := { s.web with dOff := timedPut s.web.dOff p n d } }
      okWith ((carriers p).foldl (fun t x => sendRowsFrom t x.1 x.2 n) s1) []) s)

/-- XSHIFT_SET (R42, R45, R395). A plane not in use completes with FORMAT (DESIGN CHOICE, log 174). -/
def execXshiftSet (e : Entry) (s : State) : Host.Outcome State Fault Refusal :=
  .next (command [0x0108] e (fun _ s =>
    let p := fld (pw e 0) 28 4
    let n := pqS e 2
    checked s [(!rsvOk e [0xF00003FF, 0, allBits, allBits], stFormat), (s.job.isNone, stNoJob),
               (!(planesInUse s).contains p, stFormat), (decide (n < changeFloor s [p]), stLinePassed)] fun s =>
      okWith { s with web := { s.web with xShift := timedPut s.web.xShift p n (signed 10 (fld (pw e 0) 0 10)) } } []) s)

end Sys2Proof.Machine
end

