-- ==== Sys2Proof/Machine/TimeNet.lean ====
section
/-! DEFINITION. The time counter, PTP, the transparent clock and the Ethernet ports (R361 to R376). -/

namespace Sys2Proof.Machine

/-! The time counter (R364 to R366). -/

/-- The counter in 1/2³² ns, seconds apart, after one TIME tick and before its carry (R364). -/
def tickSum (t : Time) : Nat := 2 ^ 32 * t.nsec + t.frac + timeInc t.adj

/-- One second in 1/2³² ns. -/
def secondUnits : Nat := 1000000000 * 2 ^ 32

/-- The counter after one TIME tick (R364): a whole second carries into SEC, which wraps at 2⁴⁸. -/
def tickTime (t : Time) : Time :=
  if secondUnits ≤ tickSum t then
    { t with sec := (t.sec + 1) % 2 ^ 48, nsec := (tickSum t - secondUnits) / 2 ^ 32 % 2 ^ 32
             frac := (tickSum t - secondUnits) % 2 ^ 32, clk := t.clk + 1 }
  else { t with nsec := tickSum t / 2 ^ 32 % 2 ^ 32, frac := tickSum t % 2 ^ 32, clk := t.clk + 1 }

/-- The counter in whole ns. -/
def counterNs (sec nsec : Nat) : Int := ((1000000000 * sec + nsec : Nat) : Int)

/-- Nanoseconds in which the counter comes round: SEC wraps at 2⁴⁸ (R364). -/
def counterRound : Int := 1000000000 * 2 ^ 48

/-- How far counter value `a` lies past `b`, the shorter way round (R464, log 188). -/
def nsPast (a b : Int) : Int := (a - b + counterRound / 2) % counterRound - counterRound / 2

/-- A time match (R451): the counter, moved forward from `before`, has reached or passed the compare value. A backward step leaves
the match pending. -/
def timeMatch (before : Time) (s : State) : State :=
  let from_ := counterNs before.sec before.nsec
  let ahead := (counterNs s.quench.cmpSec s.quench.cmpNsec - from_) % counterRound
  if s.quench.timeEn && decide (0 < ahead ∧ ahead ≤ nsPast (counterNs s.time.sec s.time.nsec) from_) then fireQuench s 4 0 0 else s

/-- The counter about to change by a step, or its rate adjustment: what it held is kept for 1 ms, 400,000 TIME ticks (R366). -/
def markTime (t : Time) : Time :=
  { t with marks := (t.marks.filter fun m => decide (t.clk ≤ m.clk + 400000)) ++
             [{ clk := t.clk, sec := t.sec, nsec := t.nsec, frac := t.frac, adj := t.adj }] }

/-- The rate adjustment takes a value (R364, R365). -/
def setAdj (s : State) (a : Int) : State := { s with time := { markTime s.time with adj := a } }

/-- The counter takes a value by a step: counted, and reported with the values before and after (R365). -/
def stepTo (s : State) (sec nsec frac : Nat) : State :=
  raise (count { s with time := { markTime s.time with sec := sec, nsec := nsec, frac := frac } } (cnum 9 0)) 0x0901
    (itt s.time.sec s.time.nsec ++ itt sec nsec)

/-- A signed step in ns added to the counter (R365, R404). -/
def stepBy (s : State) (d : Int) : State :=
  let ns := counterNs s.time.sec s.time.nsec + d
  stepTo s (unsignedOf 48 (ns / 1000000000)) (ns % 1000000000).toNat s.time.frac

/-- A step by the servo or by rejoin, which the quench compare sees (R365, R451). -/
def stepCounter (s : State) (d : Int) : State := timeMatch s.time (stepBy s d)

/-- Bytes a port sends in one TIME tick, in sixteenths: 10 Gb/s or 25 Gb/s (R361). -/
def drainRate (p : Port) : Nat := if p.fast then 125 else 50

/-- A port's forwarding queue drains for one TIME tick (R362); answers the length of the frame whose last byte leaves in it. -/
def drainPort (p : Port) : Port × Option Nat :=
  match p.queue with
  | [] => (p, none)
  | n :: rest =>
    let sent := p.sent + drainRate p
    if !(p.enable && p.up) then (p, none)
    else if 16 * n ≤ sent then ({ p with queue := rest, sent := if rest.isEmpty then 0 else sent - 16 * n }, some n)
    else ({ p with sent := sent }, none)

/-- The forwarding queues drain for one TIME tick; a frame that has left carries its length. -/
def drainPorts (s : State) : State :=
  let d := s.ports.map drainPort
  emitAll { s with ports := d.map Prod.fst } (d.zipIdx.filterMap fun x => x.1.2.map fun n => Sent.eth x.2 6 [(n : Int)])

/-- Vector 30 held back by R461 is sent once its 10 µs have passed. -/
def dueSignal (s : State) : State :=
  if s.obs.signalDue ∧ s.obs.signalAt ≤ s.time.clk then
    sendVector { s with obs := { s.obs with signalAt := s.time.clk + 4000, signalDue := false } } 30
  else s


/-- The result of TIME_SET: SEC and NSEC after the change (R404). -/
def timeResult (s : State) : List Dword := it ((s.time.sec / 2 ^ 32 : Nat)) ++ it s.time.sec ++ it s.time.nsec

/-- A committed TIME_SET takes effect at the tick boundary and completes (R404). -/
def changeCounter (s : State) (c : TimeChange) : State :=
  let s1 := match c with
    | .set sec nsec => stepTo s sec nsec 0
    | .step ns => stepBy s ns
  finishOp s1 0x0704 stOk (timeResult s1)

/-- The counter advances, and what is due at this tick boundary takes effect (R364, R365, R404). -/
def advanceTime (s : State) : State :=
  s.time.due.foldl changeCounter { s with time := { tickTime s.time with due := [] } }

/-- TIME_TICK (R364): the counter advances, the quench compare may match (R451), the queues drain. The TIME domain stands
still in SLEEP (R408), and a TIME_SET that has committed waits there (log 188). -/
def execTimeTick (s : State) : Host.Outcome State Fault Refusal :=
  if s.pwr.state = .sleep then .next s
  else .next (dueSignal (timeMatch s.time (drainPorts (advanceTime s))))

/-- A TIME_SET commits: it takes effect at the first tick boundary after this (R404). -/
def timeDue (s : State) (c : TimeChange) : Reply := .runs { s with time := { s.time with due := s.time.due ++ [c] } } []

/-- PTP role SLAVE with a servo that is not FREE (R365). -/
def servoActive (s : State) : Bool := s.ptp.role == 1 && s.ptp.servo != .free

/-- TIME_SET with MODE 0: SEC and NSEC set, FRAC 0 (R365, R404). -/
def execTimeSet (e : Entry) (s : State) : Host.Outcome State Fault Refusal :=
  if bitOf (pw e 0) 0 then .next s
  else .next (command [0x0704] e (fun _ s =>
    let nsec := (pw e 3).toNat
    checked s [(!rsvOk e [1, 0xFFFF, allBits, allBits] || decide (999999999 < nsec), stFormat),
               (servoActive s, stServoActive)] fun s =>
      timeDue s (.set (fld (pw e 1) 0 16 * 2 ^ 32 + (pw e 2).toNat) nsec)) s)

/-- TIME_STEP: TIME_SET with MODE 1, a signed step of magnitude below 2⁶² (R365, R404). -/
def execTimeStep (e : Entry) (s : State) : Host.Outcome State Fault Refusal :=
  if bitOf (pw e 0) 0 then
    .next (command [0x0704] e (fun _ s =>
      checked s [(!rsvOk e [1, 0, 0, 0, allBits, allBits] || decide (2 ^ 62 ≤ (pqS e 4).natAbs), stFormat),
                 (servoActive s, stServoActive)] fun s =>
        timeDue s (.step (pqS e 4))) s)
  else .next s

/-- TIME_ADJ: the rate adjustment set directly (R365, R404). -/
def execTimeAdj (e : Entry) (s : State) : Host.Outcome State Fault Refusal :=
  .next (command [0x0705] e (fun _ s =>
    let a := signed 32 (pw e 0).toNat
    checked s [(!rsvOk e [allBits] || decide (8000000 < a.natAbs), stFormat), (servoActive s, stServoActive)] fun s =>
      okWith (setAdj s a) []) s)

/-- TIME_READ (R366). -/
def execTimeRead (e : Entry) (s : State) : Host.Outcome State Fault Refusal :=
  .next (command [0x0706] e (fun _ s =>
    checked s [(!rsvOk e [], stFormat)] fun s =>
      okWith s (timeResult s ++ it s.time.frac ++ it s.time.adj ++ it (servoCode s.ptp.servo))) s)

/-! Ports (R361 to R363, R367). -/

/-- Port `p`. -/
def portAt (s : State) (p : Nat) : Port := s.ports.getD p Port.reset

/-- Port `p` is in service: an address and ENABLE (R361). -/
def portOn (s : State) (p : Nat) : Bool := (portAt s p).configured && (portAt s p).enable

/-- Port `p` changed. -/
def setPort (s : State) (p : Nat) (f : Port → Port) : State := { s with ports := modAt f s.ports p }

/-- NET_CONFIG (R363): BUSY while PTP runs on the port. -/
def execNetConfig (e : Entry) (s : State) : Host.Outcome State Fault Refusal :=
  .next (command [0x0701] e (fun _ s =>
    let p := fld (pw e 0) 31 1
    checked s [(!rsvOk e [0xF000FFFF, allBits, allBits, allBits], stFormat),
               (s.ptp.role != 0 && s.ptp.port == p, stBusy)] fun s =>
      okWith (setPort s p fun x =>
        { x with configured := true, enable := bitOf (pw e 0) 30, fast := bitOf (pw e 0) 29, fwd := bitOf (pw e 0) 28
                 mac := fld (pw e 0) 0 16 * 2 ^ 32 + (pw e 1).toNat, ipv4 := (pw e 2).toNat
                 boardTx := signed 16 (fld (pw e 3) 16 16), boardRx := signed 16 (fld (pw e 3) 0 16) }) []) s)

/-- NET_STATUS (R374): link states, then the counters of R375 of both ports. -/
def execNetStatus (e : Entry) (s : State) : Host.Outcome State Fault Refusal :=
  .next (command [0x0708] e (fun _ s =>
    checked s [(!rsvOk e [], stFormat)] fun s =>
      let up := (if (portAt s 0).up then 1 else 0) + if (portAt s 1).up then 2 else 0
      okWith s (it (up : Nat) ++ [3, 4, 5, 6, 7].flatMap fun i => it (counterValue s (cnum 9 i)))) s)

/-- NET_LINK (R376). -/
def execNetLink (port : Nat) (up : Bool) (s : State) : Host.Outcome State Fault Refusal :=
  if 2 ≤ port ∨ (portAt s port).up = up then .next s
  else .next (raise (setPort s port fun x => { x with up := up }) 0x0903 (it port ++ it (if up then 1 else 0)))

/-- FRAME_DISCARDED (R361). -/
def execFrameDiscarded (port : Nat) (s : State) : Host.Outcome State Fault Refusal :=
  if 2 ≤ port then .next s else .next (count s (cnum 9 (4 + port)))

/-- ARP_REQUEST (R362): one for the port's address is answered with the port's MAC address. -/
def execArpRequest (port : Nat) (target : Dword) (s : State) : Host.Outcome State Fault Refusal :=
  let p := portAt s port
  if portOn s port ∧ p.ipv4 ≠ 0 ∧ target.toNat = p.ipv4 then .next (emit s (.eth port 4 [p.mac, p.ipv4])) else .next s

/-- A rational in 1/6,553,600 ns rounded to the nearest 1/65,536 ns. -/
def nearest100 (v : Int) : Int := (v + 50) / 100

/-- t_ingress in 1/6,553,600 ns (R367): RX_LAT is 70.40 or 35.84 ns, BOARD_RX in 1/256 ns. -/
def ingress100 (s : State) (port : Nat) (mac : Ns16) : Int :=
  let p := portAt s port
  100 * mac - (if p.fast then 3584 else 7040) * 65536 - p.boardRx * 25600

/-- t_egress in 1/6,553,600 ns (R367): TX_LAT is 44.80 or 23.04 ns. -/
def egress100 (s : State) (port : Nat) (mac : Ns16) : Int :=
  let p := portAt s port
  100 * mac + (if p.fast then 2304 else 4480) * 65536 + p.boardTx * 25600

/-- The residence time of R370, in 1/65,536 ns rounded to nearest. -/
def residence (s : State) (inPort outPort : Nat) (inMac outMac : Ns16) : Int :=
  nearest100 (egress100 s outPort outMac - ingress100 s inPort inMac)

/-- A frame's length is one a port takes (R361). -/
def lengthOk (bytes : Nat) : Bool := decide (64 ≤ bytes ∧ bytes ≤ 2000)

/-- A PTP frame: over IEEE 802.3, or over UDP/IPv4 to port 319 or 320 (R362). -/
def isPtp (f : Frame) : Bool :=
  f.etherType == 0x88F7 || (f.etherType == 0x0800 && f.proto == 17 && (f.dstPort == 319 || f.dstPort == 320))

/-- A PTP frame to a PTP multicast address (R362). -/
def ptpMulticast (f : Frame) : Bool :=
  isPtp f && if f.etherType = 0x88F7 then f.dstMac == 0x011B19000000 else f.dstIp == 0xE0000181

/-- The frames a port takes in: PTP sent to it, or to the PTP multicast address, and ARP requests for its address (R362). -/
def takenIn (p : Port) (f : Frame) : Bool :=
  (isPtp f && (ptpMulticast f || if f.etherType = 0x88F7 then f.dstMac == p.mac else p.ipv4 != 0 && f.dstIp == p.ipv4)) ||
  (f.etherType == 0x0806 && f.proto == 1 && p.ipv4 != 0 && f.dstIp == p.ipv4)

/-- A PTP event message, Sync or Delay_Req (R367, R370). -/
def isEvent (f : Frame) : Bool := isPtp f && decide (f.message ≤ 1)

/-- Bytes that wait in a port's forwarding queue, in sixteenths. -/
def queuedBytes (p : Port) : Nat := 16 * p.queue.sum - p.sent

/-- A frame leaves `out`, having come in on the other port: an event message with its residence added to correctionField, saturating,
and over UDP/IPv4 with UDP checksum 0 (R370); another PTP frame unchanged. PTP frames go first, ahead of the queue; another
frame takes room in the queue of 256 KiB, or is dropped and counted (R362). -/
def forwardFrame (s : State) (port bytes : Nat) (f : Frame) (inMac outMac correction : Ns16) : State :=
  let out := 1 - port
  if isEvent f then
    let c := min (correction + residence s port out inMac outMac) (2 ^ 63 - 1)
    count (emit s (.eth out 5 (if f.etherType = 0x0800 then [c, 0] else [c]))) (cnum 9 3)
  else if isPtp f then emit s (.eth out 5 [])
  else if 262144 * 16 < queuedBytes (portAt s out) + 16 * bytes then count s (cnum 9 (6 + out))
  else setPort s out fun x => { x with queue := x.queue ++ [bytes] }

/-- FRAME_FORWARD (R361, R362, R370): a frame of a wrong length is discarded and counted; with FWD on both ports a frame that is not
taken in, and every PTP multicast frame, is forwarded. What the chip takes in comes as a command of its own. -/
def execFrameForward (port bytes : Nat) (frame : Frame) (inMac outMac : Ns16) (correction : Ns16) (s : State) :
    Host.Outcome State Fault Refusal :=
  let out := 1 - port
  if port < 2 ∧ lengthOk bytes = false then .next (count s (cnum 9 (4 + port)))
  else if decide (port < 2) && portOn s port && portOn s out && (portAt s port).fwd && (portAt s out).fwd && (!takenIn (portAt s port) frame || ptpMulticast frame) then
    .next (forwardFrame s port bytes frame inMac outMac correction)
  else .next s

/-! PTP (R368 to R373). -/

/-- The PTP port is in service, with an IPv4 address where PTP runs over UDP (R361, R363). -/
def ptpOn (s : State) : Bool := portOn s s.ptp.port && (!s.ptp.udp || (portAt s s.ptp.port).ipv4 != 0)

/-- A PTP message that arrived on `port` is the chip's to use: of its port, its domain and its transport (R362, R368). -/
def hears (s : State) (port : Nat) (src : PtpFrom) : Bool :=
  s.ptp.port == port && ptpOn s && src.domain == s.ptp.domain && src.udp == s.ptp.udp

/-- What begins every PTP message the chip sends: its domain, and 1 over UDP/IPv4 or 0 (R368, R369). -/
def ptpHead (s : State) : List Int := [s.ptp.domain, if s.ptp.udp then 1 else 0]

/-- A clock identity: bytes 0 to 3, then bytes 4 to 7, each big-endian (R487). -/
def clockDws (v : Nat) : List Dword := [BitVec.ofNat 32 (v / 2 ^ 32), BitVec.ofNat 32 v]

/-- A port identity: the clock identity, then the port number (R487); 0 where there is none. -/
def portDws (p : Option PortId) : List Dword :=
  match p with
  | some x => clockDws x.clock ++ it (x.port % 2 ^ 16 : Nat)
  | none => [0, 0, 0]

/-- A change of servo state, with its PTP_STATE event (R373). -/
def setServo (s : State) (x : ServoState) : State :=
  if s.ptp.servo = x then s
  else
    raise { s with ptp := { s.ptp with servo := x } } 0x0902
      (it (servoCode s.ptp.servo) ++ it (servoCode x) ++ portDws s.ptp.parent)

/-- The fields of PTP_CONFIG are in range (R369). -/
def ptpFormatOk (e : Entry) : Bool :=
  let sync := signed 8 (fld (pw e 1) 24 8)
  let ann := signed 8 (fld (pw e 1) 16 8)
  let tmo := fld (pw e 1) 8 8
  let dreq := signed 8 (fld (pw e 1) 0 8)
  rsvOk e [0xF8FFFFFF, allBits, allBits] && fld (pw e 0) 30 2 != 3 && decide (fld (pw e 0) 16 8 ≤ 127) &&
  decide (-7 ≤ sync ∧ sync ≤ 1 ∧ -3 ≤ ann ∧ ann ≤ 4 ∧ 2 ≤ tmo ∧ tmo ≤ 10 ∧ -7 ≤ dreq ∧ dreq ≤ 5)

/-- PTP_CONFIG (R369): the servo restarts from FREE, keeping a. -/
def execPtpConfig (e : Entry) (s : State) : Host.Outcome State Fault Refusal :=
  .next (command [0x0702] e (fun _ s =>
    checked s [(!ptpFormatOk e, stFormat)] fun s =>
      let s1 := setServo s .free
      let p := { s1.ptp with role := fld (pw e 0) 30 2, port := fld (pw e 0) 29 1, udp := bitOf (pw e 0) 28
                             extRef := bitOf (pw e 0) 27, domain := fld (pw e 0) 16 8, prio1 := fld (pw e 0) 8 8
                             prio2 := fld (pw e 0) 0 8, logSync := signed 8 (fld (pw e 1) 24 8)
                             logAnn := signed 8 (fld (pw e 1) 16 8), annTmo := fld (pw e 1) 8 8
                             logDreq := signed 8 (fld (pw e 1) 0 8), asym := signed 32 (pw e 2).toNat
                             inLock := 0, offStep := 0, parent := none, grandmaster := none }
      okWith { s1 with ptp := p, ptpx := { s1.ptpx with pendingSync := none, delayTx := none, foreign := [] } } []) s)

/-- SERVO_CONFIG (R371, R404). -/
def execServoConfig (e : Entry) (s : State) : Host.Outcome State Fault Refusal :=
  .next (command [0x0703] e (fun _ s =>
    let st := (pw e 2).toNat
    let lt := (pw e 3).toNat
    checked s [(!rsvOk e [allBits, allBits, allBits, allBits] ||
                decide (st < 1000 ∨ 10000000 < st ∨ lt < 10 ∨ 10000 < lt), stFormat)] fun s =>
      okWith { s with ptp := { s.ptp with kp := (pw e 0).toNat, ki := (pw e 1).toNat, stepThr := st
                                          lockThr := lt } } []) s)

/-- The key by which announced qualities are compared, lower is better (IEEE 1588 default profile, PRESUMED). -/
def qualityKey (q : Quality) : List Nat :=
  [q.prio1, q.clockClass, q.accuracy, q.variance, q.prio2, q.identity, q.steps]

/-- One key is below another, first difference deciding. -/
def keyBelow : List Nat → List Nat → Bool
  | x :: xs, y :: ys => if x < y then true else if y < x then false else keyBelow xs ys
  | _, _ => false

/-- The best foreign master. -/
def bestForeign (l : List (PortId × Quality)) : Option (PortId × Quality) :=
  l.foldl (fun acc x =>
    match acc with
    | none => some x
    | some b => if keyBelow (qualityKey x.2 ++ [x.1.clock, x.1.port]) (qualityKey b.2 ++ [b.1.clock, b.1.port]) then some x
                else some b) none

/-- The chip's own clockIdentity: the EUI-64 of its port's MAC address (PRESUMED). -/
def ownIdentity (s : State) : Nat :=
  let mac := (portAt s s.ptp.port).mac
  mac / 2 ^ 24 * 2 ^ 40 + 0xFFFE * 2 ^ 24 + mac % 2 ^ 24

/-- The quality the chip announces as master (R368): clockClass 248, or 6 with an external reference. -/
def ownQuality (s : State) : Quality :=
  { prio1 := s.ptp.prio1, clockClass := if s.ptp.extRef then 6 else 248, accuracy := 0xFE, variance := 0xFFFF
    prio2 := s.ptp.prio2, identity := ownIdentity s, steps := 0 }

/-- As MASTER the chip is the best master it knows of (R368). -/
def masterActive (s : State) : Bool :=
  s.ptp.role == 2 && ptpOn s &&
  match bestForeign s.ptpx.foreign with
  | some x => !keyBelow (qualityKey x.2) (qualityKey (ownQuality s))
  | none => true

/-- The port state of PTP_STATUS (R374), by the codes of IEEE 1588: 3 DISABLED, 4 LISTENING, 6 MASTER, 7 PASSIVE, 8 UNCALIBRATED,
9 SLAVE. PRESUMED (log 189). -/
def portState (s : State) : Nat :=
  if s.ptp.role = 0 ∨ !ptpOn s then 3
  else if s.ptp.role = 2 then (if masterActive s then 6 else 7)
  else if s.ptp.parent.isNone then 4
  else if s.ptp.servo = .locked then 9 else 8

/-- PTP_STATUS (R374), its items in the order named: port state, servo state, parent, grandmaster identity, last offset,
mean path delay in 1/65,536 ns, UTC offset. -/
def execPtpStatus (e : Entry) (s : State) : Host.Outcome State Fault Refusal :=
  .next (command [0x0707] e (fun _ s =>
    checked s [(!rsvOk e [], stFormat)] fun s =>
      let gm := match s.ptp.grandmaster with | some q => clockDws q.identity | none => [0, 0]
      okWith s (it (portState s : Nat) ++ it (servoCode s.ptp.servo) ++ portDws s.ptp.parent ++ gm ++ itq s.ptp.lastOffset ++
                itq s.ptp.pathDelay ++ it s.ptp.utcOffset)) s)

/-- ±500 ppm in 1/16 ppb (R364, R371). -/
def adjLim : Int := 8000000

/-- `x` less the offset `o` times a 16.16 factor, in 64-bit arithmetic (R9, R10, R371). -/
def servoSlew (x : Int) (k : Nat) (o : Int) : Int := wrapS 64 (x - wrapS 64 (k * o) / 65536)

/-- R371 on one offset: the step while not LOCKED, else the proportional and integral slew. -/
def servoOffset (s : State) (o : Int) : State :=
  if (s.ptp.stepThr : Int) < wrapS 64 o.natAbs ∧ s.ptp.servo ≠ .locked then
    setAdj (stepCounter s (wrapS 64 (-o))) (clampI s.ptp.integ (-adjLim) adjLim)
  else
    let integ := clampI (servoSlew s.ptp.integ s.ptp.ki o) (-adjLim) adjLim
    setAdj { s with ptp := { s.ptp with integ := integ } } (clampI (servoSlew integ s.ptp.kp o) (-adjLim) adjLim)

/-- The counts of R372 after one offset: 16 in a row within LOCK_THR lock, 8 in a row beyond STEP_THR unlock. -/
def servoLock (s : State) (o : Int) : State :=
  if s.ptp.servo = .locked then
    let n := if s.ptp.stepThr < o.natAbs then s.ptp.offStep + 1 else 0
    let s1 := { s with ptp := { s.ptp with offStep := if 8 ≤ n then 0 else n, inLock := 0 } }
    if 8 ≤ n then setServo s1 .acquiring else s1
  else
    let n := if o.natAbs ≤ s.ptp.lockThr then s.ptp.inLock + 1 else 0
    let s1 := { s with ptp := { s.ptp with inLock := if 16 ≤ n then 0 else n, offStep := 0 } }
    if 16 ≤ n then setServo s1 .locked else s1

/-- The servo starts acquiring from the a it holds (R372, R373). -/
def startAcquiring (s : State) : State :=
  let s1 := { s with ptp := { s.ptp with integ := s.time.adj, inLock := 0, offStep := 0 } }
  setServo s1 .acquiring

/-- One offset reaches the servo: a FREE or HOLDOVER servo starts acquiring with it (R371, R372). -/
def takeOffset (s : State) (o : Int) : State :=
  let s1 := if s.ptp.servo = .free ∨ s.ptp.servo = .holdover then startAcquiring s else s
  let s2 := count { s1 with ptp := { s1.ptp with lastOffset := o } } (cnum 9 1)
  servoLock (servoOffset s2 o) o

/-- The offset of a Sync: reception less transmission, corrections, asymmetry and mean path delay, in whole ns. -/
def offsetOf (s : State) (rx origin : Ns16) : Int := wrapS 64 ((rx - origin - s.ptp.pathDelay) / 65536)

/-- A completed Sync: `origin` holds the master's transmit time plus every correction. -/
def syncDone (s : State) (rx origin : Ns16) : State :=
  let org := origin + s.ptp.asym * 256
  let s1 := { s with ptpx := { s.ptpx with pendingSync := none, syncRx := rx, syncOrigin := org } }
  takeOffset s1 (offsetOf s rx org)

/-- A message of the selected parent reaches the chip as SLAVE. -/
def slaveOf (s : State) (port : Nat) (src : PtpFrom) : Bool :=
  s.ptp.role == 1 && hears s port src && s.ptp.parent == some src.id

/-- SYNC (R371): `rx` is the MAC stamp. A Sync from another port identity is discarded; a two-step one waits for its
Follow_Up. -/
def execSync (port : Nat) (src : PtpFrom) (twoStep : Bool) (origin rx : Ns16) (correction : Ns16) (s : State) :
    Host.Outcome State Fault Refusal :=
  if slaveOf s port src then
    let t2 := nearest100 (ingress100 s port rx)
    if twoStep then .next { s with ptpx := { s.ptpx with pendingSync := some (t2, correction) } }
    else .next (syncDone s t2 (origin + correction))
  else .next s

/-- FOLLOW_UP (R371). -/
def execFollowUp (port : Nat) (src : PtpFrom) (origin : Ns16) (correction : Ns16) (s : State) :
    Host.Outcome State Fault Refusal :=
  if slaveOf s port src then
    match s.ptpx.pendingSync with
    | some (t2, c) => .next (syncDone s t2 (origin + c + correction))
    | none => .next s
  else .next s

/-- DELAY_REQ_SEND (R371): as slave with a parent, a Delay_Req carrying the asymmetry; its MAC stamp is corrected. -/
def execDelayReqSend (txMac : Ns16) (s : State) : Host.Outcome State Fault Refusal :=
  if s.ptp.role = 1 ∧ ptpOn s ∧ s.ptp.parent.isSome then
    let t3 := nearest100 (egress100 s s.ptp.port txMac)
    .next (emit { s with ptpx := { s.ptpx with delayTx := some t3, seqDelay := (s.ptpx.seqDelay + 1) % 2 ^ 16 } }
      (.eth s.ptp.port 1 (ptpHead s ++ [(s.ptpx.seqDelay : Int), -(s.ptp.asym * 256)])))
  else .next s

/-- DELAY_RESP (R371): `rx` is the master's reception time. The mean path delay is half the sum of both directions. -/
def execDelayResp (port : Nat) (src : PtpFrom) (rx : Ns16) (correction : Ns16) (s : State) :
    Host.Outcome State Fault Refusal :=
  if slaveOf s port src then
    match s.ptpx.delayTx with
    | some t3 =>
      let d := ((s.ptpx.syncRx - s.ptpx.syncOrigin) + (rx - t3) - correction) / 2
      .next { s with ptp := { s.ptp with pathDelay := d }, ptpx := { s.ptpx with delayTx := none } }
    | none => .next s
  else .next s

/-- The servo enters HOLDOVER with a at integ, counted (R372, R375). -/
def holdover (s : State) : State :=
  if s.ptp.servo = .holdover then s
  else setServo (count (setAdj s (clampI s.ptp.integ (-adjLim) adjLim)) (cnum 9 2)) .holdover

/-- The slave's parent is the best foreign master: a change of master starts acquiring at once, and with none left the servo enters
HOLDOVER; a FREE servo that had none waits for its first offset (R368, R372, R373). -/
def choose (s : State) : State :=
  match bestForeign s.ptpx.foreign with
  | none => holdover { s with ptp := { s.ptp with parent := none, grandmaster := none } }
  | some (p, q) =>
    let s1 := { s with ptp := { s.ptp with parent := some p, grandmaster := some q } }
    if s.ptp.parent = some p then s1
    else
      let s2 := { s1 with ptpx := { s1.ptpx with pendingSync := none, delayTx := none } }
      if s.ptp.parent.isNone ∧ s.ptp.servo = .free then s2 else startAcquiring s2

/-- ANNOUNCE (R368, R373). -/
def execAnnounce (port : Nat) (src : PtpFrom) (quality : Quality) (utcOffset : Int) (s : State) :
    Host.Outcome State Fault Refusal :=
  if s.ptp.role ≠ 0 ∧ hears s port src then
    let fl := (s.ptpx.foreign.filter fun x => x.1 != src.id) ++ [(src.id, quality)]
    let s1 := { s with ptpx := { s.ptpx with foreign := fl } }
    if s.ptp.role = 1 then
      let s2 := choose s1
      if s2.ptp.parent = some src.id then .next { s2 with ptp := { s2.ptp with utcOffset := utcOffset } } else .next s2
    else .next s1
  else .next s

/-- DELAY_REQ (R368): as master it is answered with its corrected reception stamp. -/
def execDelayReq (port : Nat) (src : PtpFrom) (rx : Ns16) (correction : Ns16) (s : State) :
    Host.Outcome State Fault Refusal :=
  if masterActive s ∧ hears s port src then
    .next (emit s (.eth port 2 (ptpHead s ++ [nearest100 (ingress100 s port rx), correction, src.id.clock, src.id.port])))
  else .next s

/-- The time counter in 1/65,536 ns. -/
def counterNs16 (s : State) : Int := ((65536 * (1000000000 * s.time.sec + s.time.nsec) + s.time.frac / 65536 : Nat) : Int)

/-- SYNC_SEND (R367, R368): a one-step Sync with its corrected egress stamp: seconds, nanoseconds, and in correctionField the
part of a nanosecond. -/
def execSyncSend (s : State) : Host.Outcome State Fault Refusal :=
  if masterActive s then
    .next (emit { s with ptpx := { s.ptpx with seqSync := (s.ptpx.seqSync + 1) % 2 ^ 16 } }
      (.eth s.ptp.port 0 (let t := nearest100 (egress100 s s.ptp.port (counterNs16 s))
                          ptpHead s ++ [(s.ptpx.seqSync : Int), t / 65536000000000, t / 65536 % 1000000000, t % 65536])))
  else .next s

/-- ANNOUNCE_SEND (R368). -/
def execAnnounceSend (s : State) : Host.Outcome State Fault Refusal :=
  if masterActive s then
    .next (emit { s with ptpx := { s.ptpx with seqAnnounce := (s.ptpx.seqAnnounce + 1) % 2 ^ 16 } }
      (.eth s.ptp.port 3 (ptpHead s ++ (s.ptpx.seqAnnounce : Int) :: (qualityKey (ownQuality s)).map Int.ofNat)))
  else .next s

/-- SYNC_TIMEOUT (R372): no Sync from the parent for four intervals. -/
def execSyncTimeout (s : State) : Host.Outcome State Fault Refusal :=
  if s.ptp.role = 1 ∧ s.ptp.parent.isSome then .next (holdover s) else .next s

/-- ANNOUNCE_TIMEOUT (R372, R373): the parent is no longer a master; another one left is taken. As MASTER the better
clock it had yielded to is forgotten. -/
def execAnnounceTimeout (s : State) : Host.Outcome State Fault Refusal :=
  let drop := fun (p : PortId) => { s with ptpx := { s.ptpx with foreign := s.ptpx.foreign.filter fun x => x.1 != p } }
  if s.ptp.role = 1 then
    match s.ptp.parent with
    | some p => .next (choose (drop p))
    | none => .next s
  else if s.ptp.role = 2 then
    match bestForeign s.ptpx.foreign with
    | some x => .next (drop x.1)
    | none => .next s
  else .next s

end Sys2Proof.Machine
end

