-- ==== Sys2Proof/Machine/Pair.lean ====
section
/-! DEFINITION. The pair: its commands, sentinels and ROLE_SEL, the partner link's words and messages, shadow running and
rejoin (R258 to R288, R489, R490). MOTION messages are in Mirror.lean. -/

namespace Sys2Proof.Machine

/-! Time on the partner link (R268, R270). -/

/-- The time counter in ns. -/
def nowNs (s : State) : Int := ((1000000000 * s.time.sec + s.time.nsec : Nat) : Int)

/-- A time in two message words: seconds in bits [63:16], then nanoseconds in [63:32] (R268). -/
def timeWords (sec nsec : Nat) : List Qword := [BitVec.ofNat 64 (sec * 2 ^ 16), BitVec.ofNat 64 (nsec * 2 ^ 32)]

/-- The ns of two time words. -/
def wordsNs (a b : Qword) : Int := ((fld a 16 48 * 1000000000 + fld b 32 32 : Nat) : Int)

/-- δ_T: the median of the last 16 offsets (R270), the lower of the middle two; 0 before any. -/
def deltaT (s : State) : Int := (medianOf s.par.deltas).getD 0

/-- Data word `i` of a message. -/
def mw (m : PMsg) (i : Nat) : Qword := m.words.getD i 0

/-- A data word as a signed value. -/
def mwS (m : PMsg) (i : Nat) : Int := signed 64 (mw m i).toNat

/-! Digests (R268, R282). -/

/-- The dwords of 16-bit words, two to a dword, the first in the low half: an image in address order. -/
def halfImage (ws : List Nat) : List Dword :=
  (List.range (ws.length / 2)).map fun i => BitVec.ofNat 32 (ws.getD (2 * i) 0 % 2 ^ 16 + 2 ^ 16 * (ws.getD (2 * i + 1) 0 % 2 ^ 16))

/-- The image of a mask (R101): 32 bytes a line row. -/
def maskImage (rows : List (BitVec 256)) : List Dword :=
  rows.flatMap fun r => (List.range 8).map fun i => BitVec.ofNat 32 (fld r (32 * i) 32)

/-- Curves of the assay's block: none without a setup. -/
def blockCurves (s : State) : List Nat :=
  match s.asy.setup with
  | some a => (List.range 512).map fun i => a.curveBase + i
  | none => []

/-- The AUTO_CURVE planes. -/
def autoNow (s : State) : List Nat := match s.asy.setup with | some a => autoPlanes a | none => []

/-- The image of one table of DIGEST, as dwords: 1 screen slot, 2 stitch mask, 3 curve bank outside the assay's block, 4 index
table, 5 geometry record, 6 job configuration without the record's host address, 7 assay setup (R268). -/
def tableImage (s : State) (kind index : Nat) : List Dword :=
  match kind with
  | 1 => (tileOf s index).flatMap fun w => dwordsOf w.toNat
  | 2 => maskImage (latestOf (mapGet middleCut s.tables.masks index)
      ((s.tables.maskUpds.filter fun u => u.mask == index).map fun u => (u.line, u.rows)))
  | 3 => ((List.range 4096).filter fun e => !(blockCurves s).contains e).flatMap fun e => halfImage (curveNow s e)
  | 4 => halfImage ((List.range 166400).map fun x => entryNewest s index x)
  | 5 => match s.job with | some j => j.geo | none => []
  | 6 => match s.job with | some j => j.raw.take 8 ++ j.raw.drop 10 | none => []
  | 7 => match s.asy.setup with | some a => a.raw | none => []
  | _ => []

/-- The tables of a DIGEST: kind and index. -/
def digestTables (s : State) : List (Nat × Nat) :=
  (s.tables.screens.map fun e => (1, e.1)) ++ ((List.range 144).map fun i => (2, i)) ++ [(3, 0)] ++
  (((List.range 16).filter fun p => !(autoNow s).contains p).map fun p => (4, p)) ++ [(5, 0), (6, 0), (7, 0)]

/-- A word of DIGEST. -/
def digestWord (s : State) (t : Nat × Nat) : Qword :=
  BitVec.ofNat 64 (t.1 * 2 ^ 56 + t.2 * 2 ^ 40 + crc32d (tableImage s t.1 t.2))

/-- The first table whose digest differs from the chip's own, or that only this chip has, coded as R487 has it. -/
def digestDiffers (s : State) (ws : List Qword) : Option Nat :=
  let own := (digestTables s).map fun t => (t, digestWord s t)
  let bad := ws.filterMap fun w => if own.any fun x => x.2 == w then none else some (fld w 56 8, fld w 40 16)
  let more := (own.filter fun x => !ws.any fun w => fld w 56 8 == x.1.1 && fld w 40 16 == x.1.2).map Prod.fst
  ((bad ++ more).head?).map fun t => t.1 * 2 ^ 24 + t.2

/-! What the gaffer sends at rejoin (R268, R282). -/

/-- Four 16-bit values a word from bits [63:48]. -/
def packWords (ws : List Nat) : List Qword :=
  (List.range (cdiv ws.length 4)).map fun i =>
    BitVec.ofNat 64 ((List.range 4).foldl (fun acc j => acc * 2 ^ 16 + ws.getD (4 * i + j) 0 % 2 ^ 16) 0)

/-- The words of BLOCK: the block's curves, then the AUTO_CURVE planes' index tables. -/
def blockWords (s : State) : List Qword :=
  packWords ((blockCurves s).flatMap (curveNow s)) ++
  (autoNow s).flatMap fun p => packWords ((List.range 166400).map fun x => entryNewest s p x)

/-- A message too long for LEN goes in several, each of at most 65,535 words. -/
def tellParts (s : State) (kind : Nat) : Nat → List Qword → State
  | 0, _ => s
  | fuel + 1, ws =>
    if ws.length ≤ 65535 then tellServitor s kind ws else tellParts (tellServitor s kind (ws.take 65535)) kind fuel (ws.drop 65535)

/-- BLOCK in as many messages as it takes; a chip with no assay block sends it empty. -/
def tellBlock (s : State) : State := let ws := blockWords s; tellParts s 9 (ws.length / 65535 + 1) ws

/-- The settled generation as one full GEN; nothing before the first. -/
def tellSettled (s : State) : State :=
  match settledGen s with
  | some g => tellGen s g true
  | none => s

/-- Everything a rejoining servitor needs after its reference: DIGEST, GEN of the generation in force and of any pending one,
BLOCK, LOCKS, and PAGE for each page ADMITTED or PRINTING. -/
def tellRejoin (s : State) : State :=
  let s1 := tellServitor s 8 ((digestTables s).map (digestWord s))
  let s2 := tellSettled s1
  let pend := s1.map.gens.filter fun g => s1.map.pending == some g.number
  let s3 := pend.foldl (fun t g => tellGen t g g.full) s2
  let s4 := tellLocks (tellBlock s3)
  ((s4.pages.list.filter pageActive).insertionSort fun a b => a.adm ≤ b.adm).foldl
    (fun t p => tellPage t p (if p.n0.isSome then 1 else 0)) s4

/-! Rejoin (R281 to R285). -/

/-- PTSYNC with a token of the servitor's (R267). -/
def sendPtsync (s : State) : State :=
  let tok := (s.par.ptToken + 1) % 2 ^ 16
  let sent := (s.par.ptSent ++ [(tok, nowNs s)]).drop (s.par.ptSent.length + 1 - 64)
  emit { s with par := { s.par with ptToken := tok, ptSent := sent } } (.partner (ctrlWord 0xA4 [(40, tok)]))

/-- Major and minor of a Finbuly version (R381). -/
def majorMinor (v : Dword) : Nat := fld v 12 20

/-- Steps 1 to 3 begin: the link, the epoch, the versions, 16 time exchanges. -/
def beginRejoin (s : State) (partnerVersion : Dword) : State :=
  let s0 := { s with par := { s.par with autoDue := false } }
  if !s.par.linkRun then failRejoin s0 1 stPartnerDown 0
  else if majorMinor s.boot.fwVersion ≠ majorMinor partnerVersion then
    failRejoin { s0 with par := { s0.par with epoch := s.par.partnerEpoch } } 2 stFwMismatch 0
  else
    let s1 := { s0 with par := { s0.par with epoch := s.par.partnerEpoch, rejoin := 3, rejoinGot := [], deltas := [], ptSent := []
                                             digestBad := none, blockGot := [], pageMsgs := [], refused := [], pageEnds := []
                                             unshadowed := [] }
                        ftb := { s0.ftb with referenced := false } }
    (List.range 16).foldl (fun t _ => sendPtsync t) s1

/-- The first web line whose every record has a slice deadline at least 33 ticks ahead (R282). -/
def shadowLine (s : State) : Int := lineCounter s + 34 + leadOf s - dMin s (planesInUse s)

/-- The pages that the gaffer lists as it holds them ADMITTED or PRINTING: a PAGE that rejects one lists none (R268, R282). -/
def listedPages (s : State) : List (Dword × Nat × Bool × Nat × Int × Nat) := s.par.pageMsgs.filter fun m => m.2.1 != 2

/-- The pages of the gaffer that this chip does not hold LOADED or admitted. -/
def missingPages (s : State) : Nat :=
  (listedPages s).countP fun m => match pageOf s m.1 with
    | some p => !(p.state == .loaded || pageActive p)
    | none => true

/-- A page is admitted as the gaffer admitted it (R282, R271). -/
def admitAs (s : State) (m : Dword × Nat × Bool × Nat × Int × Nat) : State :=
  let (id, state, thin, band, n0, _) := m
  match pageOf s id with
  | none => s
  | some p =>
    let s1 := if p.state = .loaded then enterAdmitted s p thin ((List.range 16).filter fun k => band.testBit k) else s
    if state = 1 ∧ p.n0 ≠ some n0 then resolvePage s1 id n0 else s1

/-- Step 8: shadow starts, every mark a refill mark, SHADOW, and the outcome. -/
def enterRunning (s : State) : State :=
  let n := shadowLine s
  let handed := (modulePlanes s).map fun x => (mp x.1 x.2, n - 1)
  let s1 := { s with slices := { s.slices with recs := [], handed := mapSetAll minI64 s.slices.handed handed, shadowFrom := some n }
                     par := { s.par with rejoin := 0, rejoinGot := [], pageMsgs := [] } }
  let s2 := enterShadow (setAllRefillMarks s1)
  let s3 := raise (count s2 (cnum 6 2)) 0x0608 (it s2.par.epoch ++ itq n)
  finishOp s3 0x0803 stOk (it 0 ++ it 0)

/-- A page that an abort would end: it is being loaded, LOADED, ADMITTED or PRINTING. -/
def abortable (p : Page) : Bool := p.state == .loading || p.state == .loaded || pageActive p

/-- Step 7: the gaffer's pages admitted here, pages it does not list removed as if aborted. -/
def settlePages (s : State) : State :=
  let miss := missingPages s
  if miss ≠ 0 then failRejoin s 7 stPagesMissing miss
  else
    let listed := (listedPages s).map fun m => m.1
    let gone := s.pages.list.filter fun p => abortable p && !listed.contains p.id
    let s1 := gone.foldl (fun t p => abortPage t p (if p.state = .printing then cutLines t p else [])) s
    enterRunning ((listedPages s).foldl admitAs s1)

/-- Step 6 has ended: BLOCK and LOCKS follow GEN, so both have come once GEN has. A gaffer that has no generation yet sends none,
and this chip then holds none (log 154). -/
def mapTaken (s : State) : State :=
  let s1 := if s.par.rejoinGot.contains 2 then s else { s with map := { s.map with gens := [], pending := none, arriving := none } }
  { s1 with par := { s1.par with rejoin := 7 } }

/-- Step 3 ends with 16 offsets: the time counter steps by δ_T where the chip is not locked to a PTP master or δ_T passes
1 µs. -/
def endTimeStep (s : State) : State :=
  let d := deltaT s
  let s1 := if s.ptp.servo ≠ .locked ∨ 1000 < d.natAbs then
      let t := stepCounter s d
      { t with par := { t.par with deltas := t.par.deltas.map fun x => x - d } }
    else s
  { s1 with par := { s1.par with rejoin := 4 } }

/-- One step of the rejoin taken where it is complete (R282). -/
def advanceOnce (s : State) : State :=
  let got := fun (i : Nat) => s.par.rejoinGot.contains i
  match s.par.rejoin with
  | 3 => if 16 ≤ s.par.deltas.length then endTimeStep s else s
  | 4 => if s.ftb.referenced then { s with par := { s.par with rejoin := 5 } } else s
  | 5 =>
    if !got 1 then s
    else match s.par.digestBad with
      | some t => failRejoin s 5 stTableMismatch t
      | none => { s with par := { s.par with rejoin := 6 } }
  | 6 => if got 3 && got 4 then mapTaken s else s
  | 7 => if got 5 then settlePages s else s
  | _ => s

/-- The rejoin goes as far as it can. -/
def advanceRejoin (s : State) : State := (List.range 6).foldl (fun t _ => advanceOnce t) s

/-- What has arrived of the rejoin. -/
def gotPart (s : State) (i : Nat) : State := { s with par := { s.par with rejoinGot := (s.par.rejoinGot ++ [i]).dedup } }

/-! Messages (R268, R269). -/

/-- The servitor's state is stale and it rejoins of its own accord (R269). -/
def loseStep (s : State) : State :=
  let s1 := enterSyncing s
  { s1 with par := { s1.par with autoDue := true, rejoinGot := [] } }

/-- A partner word or message lost: counted, and every mark a refill mark (R269, R287). -/
def partnerLoss (s : State) : State := setAllRefillMarks (count s (cnum 6 3))

/-- The chip listens to its partner as a servitor. -/
def listens (s : State) : Bool :=
  servitor s && s.par.linkRun && bootRunning s && (s.par.state == .shadow || s.par.state == .syncing)

/-- A message arrives at the servitor. A skip of MSEQ or a failed CRC is a loss. A skip, whose message is not known, and a
failed CRC end shadow running, but for the CRC of a message that the next one replaces, MOTION, POSREF or LOCKS (R269, log 74).
`page` says that the message is a PAGE, which leaves the list of PAGE messages of a rejoin open. -/
def receive (s : State) (m : PMsg) (replaced page_ : Bool) (body : State → State) : State :=
  if !listens s then s
  else
    let skip := match s.par.mseqRx with | some l => m.mseq % 2 ^ 24 != (l + 1) % 2 ^ 24 | none => false
    let s1 := { s with par := { s.par with mseqRx := some (m.mseq % 2 ^ 24) } }
    let s2 := if !page_ && s1.par.rejoinGot.contains 4 then gotPart s1 5 else s1
    let s3 := if skip || !m.crcOk then partnerLoss s2 else s2
    if skip || (!m.crcOk && !replaced) then loseStep s3
    else if m.crcOk then advanceRejoin (body s3) else s3

/-- The chip takes the message's content: in SHADOW, or in a rejoin. -/
def follows (s : State) : Bool := s.par.state == .shadow || s.par.rejoin != 0

/-! GEN, CURVES, BLOCK, LOCKS, DIGEST (R268, R271, R282, R489). -/

/-- A cluster dword sets the codes of its 12 ejectors. -/
def clusterCodes (x : Nat) (w : Nat) : List (Nat × Nat) := (List.range 12).map fun i => (12 * x + i, w / 4 ^ i % 4)

/-- The entry words of a GEN part, from entry `first`: codes of clusters, or R116 entries. -/
def genPartCodes (full : Bool) (first : Nat) (ws : List Qword) : List (Nat × Nat) :=
  if full then
    (List.range ws.length).flatMap fun i =>
      let w := ws.getD i 0
      clusterCodes (first + 2 * i) (fld w 32 32) ++ clusterCodes (first + 2 * i + 1) (fld w 0 32)
  else ws.filterMap fun w => (unpack (BitVec.ofNat 32 (fld w 32 32))).map fun o => (o, fld w 0 2)

/-- The generation that a GEN message states only the boundary of takes it (R489). -/
def boundGen (s : State) (number : Nat) (n : Int) : State :=
  { s with map := { s.map with gens := s.map.gens.map fun g => if g.number = number then { g with boundary := some n } else g
                               pending := if s.map.gens.any fun g => g.number == number then some number else s.map.pending } }

/-- A generation has wholly arrived. Without a boundary it applies to every record from now on, and is pending no longer (R147); with
one, from there. A full image at rejoin replaces what the chip held (R282, R489). -/
def takeGen (s : State) (g : Gen) : State :=
  let afresh := g.full && s.par.rejoin != 0
  let gens := if afresh then [] else s.map.gens
  let pend := if g.boundary.isNone then (if afresh then none else s.map.pending) else some g.number
  let s1 := { s with map := { s.map with gens := gens ++ [{ g with boundary := some (g.boundary.getD minI64) }], pending := pend, arriving := none
                                         reports := s.map.reports.filter fun x => mapGet 0 g.codes x != 3
                                         joins := s.map.joins.filter fun j => !joinMet g j } }
  raiseIf (g.boundary.isNone && s.par.rejoin == 0) s1 0x0206 (it g.number ++ itq minI64)

/-- A part of a GEN message (R268). -/
def genPart (s : State) (m : PMsg) : State :=
  let number := fld (mw m 0) 32 32
  let full := bitOf (mw m 0) 31
  let last := bitOf (mw m 0) 30
  let first := fld (mw m 0) 0 26
  let line := mwS m 1
  let ws := m.words.drop 2
  if ws.isEmpty && last && first == 0 && s.map.gens.any (fun g => g.number == number) then boundGen s number line
  else
    let start : Gen := { number := number, boundary := if line = minI64 then none else some line, full := full
                         codes := if full then [] else (match newestGen s with | some g => g.codes | none => []), delta := [] }
    let g := if first = 0 then start else s.map.arriving.getD start
    let es := genPartCodes full first ws
    let g1 := { g with codes := mapSetAll 0 g.codes es, delta := if full then [] else g.delta ++ es }
    if last then gotPart (takeGen s g1) 2 else { s with map := { s.map with arriving := some g1 } }

/-- GEN (R489): a servitor receives a generation, or its boundary. -/
def execGen (msg : PMsg) (s : State) : Host.Outcome State Fault Refusal :=
  .next (receive s msg false false fun t => if follows t then genPart t msg else t)

/-- The index entries of a CURVES message. -/
def curveEntries (ws : List Qword) : List (Nat × Nat) := ws.map fun w => (entryKey (fld w 60 4) (fld w 42 18), fld w 30 12)

/-- A curve update of the gaffer's comes into the tables; the first after the servitor's own ASSAY_SETUP writes the setup's variants as
well (R253, R271). -/
def takeCurves (s : State) (u : CurveUpd) : State :=
  match s.asy.setup, s.asy.variantsDue with
  | some a, true =>
    let v := withVariants s a u
    endCurvePoison (addCurveUpd { s with asy := { s.asy with variantsDue := false } } v) v
  | _, _ => addCurveUpd s u

/-- CURVES (R271): an assay curve update of the gaffer. -/
def execCurves (msg : PMsg) (s : State) : Host.Outcome State Fault Refusal :=
  .next (receive s msg false false fun t =>
    if follows t then
      let n := fld (mw msg 0) 0 32
      let u : CurveUpd := { line := mwS msg 1, curves := [], entries := curveEntries ((msg.words.drop 2).take n), assay := true, out := false }
      let t1 := takeCurves t u
      { t1 with tables := { t1.tables with curveGen := fld (mw msg 0) 48 16 } }
    else t)

/-- DIGEST (R282): compared with the chip's own tables. -/
def execDigest (msg : PMsg) (s : State) : Host.Outcome State Fault Refusal :=
  .next (receive s msg false false fun t =>
    if t.par.rejoin = 0 then t
    else gotPart { t with par := { t.par with digestBad := digestDiffers t msg.words } } 1)

/-- The 16-bit values of words, from bits [63:48]. -/
def unpackWords (ws : List Qword) : List Nat := ws.flatMap fun w => [fld w 48 16, fld w 32 16, fld w 16 16, fld w 0 16]

/-- The tables of a whole BLOCK take effect: they are the copies in force, and earlier assay updates are gone. -/
def takeBlock (s : State) (ws : List Qword) : State :=
  let vals := unpackWords ws
  let cs := blockCurves s
  let curves := (List.range cs.length).map fun i => (cs.getD i 0, (vals.drop (256 * i)).take 256)
  let rest := vals.drop (256 * cs.length)
  let ps := autoNow s
  let entries := (List.range ps.length).flatMap fun i =>
    (List.range 166400).map fun x => (entryKey (ps.getD i 0) x, rest.getD (166400 * i + x) 0)
  { s with asy := { s.asy with variantsDue := false }
           tables := { s.tables with curves := mapSetAll unitCurve s.tables.curves curves
                                     entries := mapSetAll 0 s.tables.entries entries
                                     curveUpds := s.tables.curveUpds.filter fun u => !u.assay } }

/-- BLOCK (R282): the assay's curve block and index tables, in as many messages as they take. -/
def execBlock (msg : PMsg) (s : State) : Host.Outcome State Fault Refusal :=
  .next (receive s msg false false fun t =>
    if t.par.rejoin = 0 then t
    else
      let ws := t.par.blockGot ++ msg.words
      let need := 64 * (blockCurves t).length + 41600 * (autoNow t).length
      if need ≤ ws.length then gotPart (takeBlock { t with par := { t.par with blockGot := [] } } ws) 3
      else { t with par := { t.par with blockGot := ws } })

/-- LOCKS (R268): the gaffer's assay locks. In a rejoin the one of step 6 follows BLOCK (R282). -/
def execLocks (msg : PMsg) (s : State) : Host.Outcome State Fault Refusal :=
  .next (receive s msg true false fun t =>
    if follows t then
      let w := mw msg 0
      let t1 := putLocks t (bitOf w 0) (bitOf w 1) (bitOf w 2)
      if t1.par.rejoinGot.contains 3 then gotPart t1 4 else t1
    else t)

/-! PAGE and PAGEEND (R268, R271, R273, R282). -/

/-- A PAGE message as it is kept: id, state, thinning flag, band mask, n0, lines. -/
def pageMsg (m : PMsg) : Dword × Nat × Bool × Nat × Int × Nat :=
  let w := mw m 0
  (BitVec.ofNat 32 (fld w 32 32), fld w 30 2, bitOf w 29, fld w 0 16, mwS m 1, fld (mw m 2) 0 24)

/-- A PAGE message is kept, the last of its page. -/
def keepPageMsg (s : State) (x : Dword × Nat × Bool × Nat × Int × Nat) : State :=
  { s with par := { s.par with pageMsgs := (s.par.pageMsgs.filter fun m => m.1 != x.1) ++ [x] } }

/-- A page decision of the gaffer in shadow running: of a page admitted here, n0 resolves or moves; of a page with no shadow,
its lines; any other is kept for the chip's own PAGE_COMMIT, and has no shadow where the chip has rejected the page or does not
hold it (R271, R273). -/
def pageDecision (s : State) (x : Dword × Nat × Bool × Nat × Int × Nat) : State :=
  let (id, state, _, band, n0, lines) := x
  let planes := (List.range 16).filter fun k => band.testBit k
  let start := if state = 1 then some n0 else none
  let alone := fun (p : Page) => s.par.refused.contains id || !abortable p
  let s1 := { s with par := { s.par with refused := s.par.refused.erase id } }
  match pageOf s id with
  | some p =>
    if pageActive p then (if state = 1 ∧ p.n0 ≠ some n0 then resolvePage s id n0 else s)
    else if s.par.unshadowed.any fun u => u.1 == id then unshadow s id start lines planes
    else keepPageMsg (if alone p then unshadowMsg s1 x else s) x
  | none =>
    if s.par.unshadowed.any fun u => u.1 == id then unshadow s id start lines planes
    else keepPageMsg (unshadowMsg s1 x) x

/-- PAGE (R273, R282): the gaffer's page decision, n0 and band. -/
def execPage (msg : PMsg) (s : State) : Host.Outcome State Fault Refusal :=
  .next (receive s msg false true fun t =>
    if t.par.state = .shadow then pageDecision t (pageMsg msg)
    else if t.par.rejoin ≠ 0 then keepPageMsg t (pageMsg msg) else t)

/-- The lines of a PAGEEND: one per plane in use, the first sent blank. -/
def endLines (m : PMsg) : List Int := (m.words.drop 1).map fun w => signed 64 w.toNat

/-- A page of the gaffer's that has no shadow ends before the last line a PAGEEND names (R273). -/
def endUnshadowed (s : State) (id : Dword) (lines : List Int) : State :=
  let last := lines.foldl max minI64
  { s with par := { s.par with unshadowed := s.par.unshadowed.map fun u =>
      if u.1 = id then (u.1, u.2.1, min u.2.2.1 (last - 1), u.2.2.2) else u
                               pageMsgs := s.par.pageMsgs.filter fun m => m.1 != id } }

/-- A PAGEEND of the gaffer (R271): cause 1 waits for the chip's own PAGE_ABORT (R273); an overspeed or tick limit ends the
page at the lines named. -/
def pageEnd (s : State) (m : PMsg) : State :=
  let id : Dword := BitVec.ofNat 32 (fld (mw m 0) 32 32)
  let cause := fld (mw m 0) 28 4
  let lines := endLines m
  let s1 := endUnshadowed s id lines
  match pageOf s1 id with
  | none => s1
  | some p =>
    if !pageActive p then s1
    else if cause = 1 then { s1 with par := { s1.par with pageEnds := (s1.par.pageEnds.filter fun x => x.1 != id) ++ [(id, cause, lines)] } }
    else resolveAll (retirePages (cutPage s1 p ((planesInUse s1).zip lines)))

/-- PAGEEND (R271, R273). -/
def execPageend (msg : PMsg) (s : State) : Host.Outcome State Fault Refusal :=
  .next (receive s msg false false fun t => if t.par.state = .shadow then pageEnd t msg else t)

/-! POSREF (R268, R284, R285, R490). -/

/-- The pending gear changes of a POSREF, after its 19 words. -/
def refGears (ws : List Qword) : List Gear :=
  (List.range (ws.length / 2)).map fun i =>
    let w := ws.getD (2 * i + 1) 0
    { pos := signed 64 (ws.getD (2 * i) 0).toNat, ratio := fld w 32 6 * 2 ^ 32 + fld w 0 32 }

/-- Net counts of channel `k` since T: `since` lists the counts in their order, ±(k + 1) for channel `k`. -/
def netCounts (since : List Int) (k : Nat) : Int :=
  ((since.filter fun c => c.natAbs == k + 1).map fun c => if 0 < c then (1 : Int) else -1).sum

/-- The master counts since T, in their order: true forward. -/
def masterSince (since : List Int) : List Bool := (since.filter fun c => c.natAbs == 1).map fun c => decide (0 < c)

/-- Each channel's reference offset makes its position at T the gaffer's (R285). -/
def setOffsets (s : State) (m : PMsg) (since : List Int) : State :=
  (List.range 12).foldl (fun t k =>
    { t with encs := modAt (fun e => { e with offset := wrapS 64 (mwS m (2 + k) - (e.pos - netCounts since k)) }) t.encs k }) s

/-- The web values of a POSREF at T, without the line counter: λ, highest position, reverse state, G or the pacing rate, gear
changes. -/
def refValues (s : State) (m : PMsg) (dtNs : Int) : Ftb :=
  let f := { s.ftb with lamI := mwS m 14, lamF := fld (mw m 15) 32 32, pmax := mwS m 17, reversed := bitOf (mw m 15) 0
                        gears := refGears (m.words.drop 19) }
  if s.webCfg.pacing then
    { f with rate := mwS m 18, rateTarget := mwS m 18, paceAt := nowUnits s - (max 0 dtNs).toNat * 256 / 10 }
  else { f with g := (mw m 18).toNat }

/-- One master count since T applied again to λ, the highest position and the reverse state (R160). -/
def recount (s : State) (fwd : Bool) : State :=
  let before := masterPos s
  let s1 := if fwd then gearAt s before else s
  let s2 := movePos s1 0 fwd
  reverseState (if s.webCfg.pacing then s2 else { s2 with ftb := moveLam s2.ftb fwd }) fwd

/-- The values of a POSREF at T brought to the present: the master counts since T are applied, in pacing mode the time since T
passes. The channel's count ends where it was, and the axes' feedback, which has those counts already, stays. -/
def catchUp (s : State) (f : Ftb) (since : List Int) : State :=
  let back := { s with ftb := f, encs := modAt (fun e => { e with pos := wrapS 64 (e.pos - netCounts since 0) }) s.encs 0 }
  let now := advancePacing { (masterSince since).foldl recount back with mot := s.mot } (nowUnits s)
  { now with ftb := rebase10 (lamOf now.ftb - lamNow s (nowUnits s)) now.ftb }

/-- Ticks for the lines λ has reached (R161). -/
def ticksDue (s : State) : State :=
  let f := s.ftb
  let now := (List.range (linesPast f.lamI f.hwm).toNat).map fun i => (wrapS 64 (f.hwm + 1 + (i : Int)), nowUnits s)
  { s with ftb := { f with projected := if s.webCfg.pacing then [] else now } }

/-- The time since T in ns, T converted with δ_T (R285). -/
def sinceT (s : State) (m : PMsg) : Int := nowNs s - (wordsNs (mw m 0) (mw m 1) - deltaT s)

/-- Step 4 of R282: the reference is taken (R285). -/
def takeReference (s : State) (m : PMsg) (since : List Int) : State :=
  let s1 := setOffsets s m since
  let f := { refValues s1 m (sinceT s m) with hwm := mwS m 16, referenced := true, heldTicks := [], lineRef := none }
  ticksDue (standstill (catchUp s1 f since))

/-- The chip's own values agree with a POSREF's, both brought to the present (R490); those of a flagged one take in the pending
gear changes. The line counter may have passed the message's by the lines λ has reached since T. -/
def agrees (s t : State) (m : PMsg) (since : List Int) (flagged : Bool) : Bool :=
  let pos := (List.range 12).all fun k => match s.encs[k]? with
    | some e => wrapS 64 (e.pos - netCounts since k + e.offset) == mwS m (2 + k)
    | none => true
  let a := s.ftb
  let b := t.ftb
  pos && (!flagged || a.gears == b.gears) && a.lamI == b.lamI && a.lamF == b.lamF && a.pmax == b.pmax && a.reversed == b.reversed && a.g == b.g &&
  decide (0 ≤ linesPast a.hwm (mwS m 16) ∧ linesPast a.hwm (mwS m 16) ≤ max 0 (linesPast b.lamI (mwS m 16)))

/-- A POSREF carrying REF (R490, R159): the line counter and the record stream follow the gaffer's reference. -/
def followReference (s t : State) (m : PMsg) : State :=
  let d := linesPast (mwS m 16) s.ftb.hwm
  let old := (advancePacing s (nowUnits s)).ftb
  let s1 := shiftLines t d
  let s2 := { s1 with ftb := { s1.ftb with hwm := mwS m 16, heldTicks := s.ftb.heldTicks.map fun x => wrapS 64 (x + d), projected := [], lineRef := none } }
  let s3 := (linkedModules s2).foldl (fun u g => emitAll u ((linebaseWords (mwS m 16)).map fun w => .ctrl g w)) s2
  ticksDue (raise s3 0x0307 (it old.lamF ++ itq old.lamI ++ it s3.ftb.lamF ++ itq s3.ftb.lamI))

/-- A POSREF after step 4 that passes the window test (R490). -/
def checkReference (s : State) (m : PMsg) (since : List Int) : State :=
  let w := mw m 15
  let t := catchUp s (refValues s m (sinceT s m)) since
  let flagged := bitOf w 1 || bitOf w 2 || bitOf w 3
  if agrees s t m since flagged then (if s.webCfg.pacing then t else s)
  else if bitOf w 1 then followReference s t m
  else if flagged || s.webCfg.pacing then
    let t1 := { t with ftb := { t.ftb with hwm := if 0 < linesPast (mwS m 16) s.ftb.hwm then mwS m 16 else s.ftb.hwm } }
    let t2 := raiseIf (bitOf w 2 && !s.webCfg.pacing && s.ftb.g != t1.ftb.g) t1 0x0306 (itq (masterPos t1) ++ itq (lineCounter t1))
    ticksDue t2
  else loseStep s

/-- POSREF (R285, R490): `edgeNear` an own channel-0 edge lies within 20 ns of the converted T; `countsSince` the counts of
channels 0 to 11 since T in their order, ±(k + 1) for channel k. -/
def execPosref (msg : PMsg) (edgeNear : Bool) (countsSince : List Int) (s : State) : Host.Outcome State Fault Refusal :=
  .next (receive s msg true false fun t =>
    if !(t.par.state == .shadow || decide (4 ≤ t.par.rejoin)) then t
    else if edgeNear then count t (cnum 6 4)
    else if t.par.rejoin = 4 ∧ ¬ t.ftb.referenced then takeReference t msg countsSince
    else checkReference t msg countsSince)

/-- The gaffer sends, and its partner link runs. -/
def speaks (s : State) : Bool := isGaffer s && s.par.enabled && s.par.linkRun && bootRunning s

/-- The words of POSREF for the present instant (R268). -/
def posrefWords (s : State) : List Qword :=
  let f := (advancePacing s (nowUnits s)).ftb
  let flag := fun (i : Nat) => if s.par.posFlagClk.any fun x => x.1 == i && decide (s.time.clk ≤ x.2) then 2 ^ i else 0
  timeWords s.time.sec s.time.nsec ++ ((List.range 12).map fun k => match s.encs[k]? with | some e => sq (e.pos + e.offset) | none => 0) ++
  [sq f.lamI, BitVec.ofNat 64 (f.lamF * 2 ^ 32 + flag 3 + flag 2 + flag 1 + (if f.reversed then 1 else 0)), sq f.hwm, sq f.pmax,
   (if s.webCfg.pacing then sq f.rate else BitVec.ofNat 64 f.g)] ++
  f.gears.flatMap fun g => [sq g.pos, BitVec.ofNat 64 g.ratio]

/-- POSREF_SEND (R268, R285): T is the present instant, which lies at the midpoint of an interval between channel-0 edges. -/
def execPosrefSend (s : State) : Host.Outcome State Fault Refusal :=
  if speaks s then
    let s1 := advancePacing s (nowUnits s)
    .next (tellServitor s1 5 (posrefWords s1))
  else .next s

/-- LOCKS_SEND (R268). -/
def execLocksSend (s : State) : Host.Outcome State Fault Refusal := .next (if speaks s then tellLocks s else s)

/-! Time exchanges (R267, R268, R270). -/

/-- PTSYNC at the gaffer: TSYNC answers it. A partner that shows ROLE 0 is rejoining: each sixteenth exchange with it is
followed by what a rejoin needs. -/
def execPtsync (token : Nat) (s : State) : Host.Outcome State Fault Refusal :=
  if speaks s then
    let t := timeWords s.time.sec s.time.nsec
    let s1 := tellServitor s 7 (BitVec.ofNat 64 (token % 2 ^ 16 * 2 ^ 48) :: (t ++ t))
    if s.par.partnerRole ≠ 0 then .next { s1 with par := { s1.par with ptSeen := 0 } }
    else if s1.par.ptSeen + 1 < 16 then .next { s1 with par := { s1.par with ptSeen := s1.par.ptSeen + 1 } }
    else .next (tellRejoin { s1 with par := { s1.par with ptSeen := 0 } })
  else .next s

/-- PTSYNC_SEND (R267). -/
def execPtsyncSend (s : State) : Host.Outcome State Fault Refusal := .next (if listens s then sendPtsync s else s)

/-- TSYNC (R270): an offset from an exchange whose PTSYNC is out; t4 is the arrival in the servitor's own ns. DESIGN CHOICE (log 185):
half of an odd sum is rounded down to a whole ns. -/
def execTsync (msg : PMsg) (t4 : Int) (s : State) : Host.Outcome State Fault Refusal :=
  .next (receive s msg false false fun t =>
    match t.par.ptSent.find? fun x => x.1 == fld (mw msg 0) 48 16 with
    | some (tok, t1) =>
      let t2 := wordsNs (mw msg 1) (mw msg 2)
      let t3 := wordsNs (mw msg 3) (mw msg 4)
      let d := ((t2 - t1) - (t4 - t3)) / 2
      { t with par := { t.par with ptSent := t.par.ptSent.filter fun x => x.1 != tok
                                   deltas := (t.par.deltas ++ [d]).drop (t.par.deltas.length + 1 - 16) } }
    | none => t)

/-! PRHO and POOS (R125, R140, R267). -/

/-- PRHO (R125): the gaffer's rho for a tick not yet begun; a later one is discarded. -/
def execPrho (tickLo rho : Nat) (s : State) : Host.Outcome State Fault Refusal :=
  let c := lineCounter s + signed 16 (unsignedOf 16 ((tickLo : Int) - lineCounter s))
  if listens s && decide (lineCounter s < c) && !(s.csc.rho.any fun x => x.1 == c) then
    .next (scheduleReady { s with csc := { s.csc with rho := s.csc.rho ++ [(c, rho % 2 ^ 21)] } })
  else .next s

/-- POOS (R140): the gaffer's out-of-step report; its cause and web line are the host's to know. -/
def execPoos (m q cause : Nat) (nLo : Dword) (s : State) : Host.Outcome State Fault Refusal :=
  if listens s && decide (m < 40 ∧ q < 4 ∧ 1 ≤ cause ∧ cause ≤ 3 ∧ 0 ≤ nLo.toNat) then .next (setMark s (mp m q) false) else .next s

/-! The link and the roles (R259 to R265, R269, R273, R276, R279, R357). -/

/-- The gaffer's pages that this chip will not shadow after all (R273). -/
def unshadowRest (s : State) : State :=
  let open_ := s.par.pageMsgs.filter fun m => m.2.1 != 2 && match pageOf s m.1 with | some p => !pageActive p | none => true
  let s1 := open_.foldl (fun t m => unshadow t m.1 (if m.2.1 = 1 then some m.2.2.2.2.1 else none) m.2.2.2.2.2
    ((List.range 16).filter fun k => m.2.2.2.1.testBit k)) s
  { s1 with par := { s1.par with pageMsgs := [] } }

/-- PARTNER_DOWN (R269): the partner link leaves RUN; a servitor is stale and will rejoin, a rejoin under way fails. -/
def execPartnerDown (s : State) : Host.Outcome State Fault Refusal :=
  if !s.par.linkRun then .next s
  else
    let s1 := partnerLinkLost (if (groupAt s 44).run then leaveRun s 44 else s)
    if !servitor s1 || s1.par.state == .failed then .next s1
    else .next (loseStep (if s1.par.state = .shadow then unshadowRest (endPartnerWaits s1) else s1))

/-- PARTNER_UP (R269, R228): the partner link enters RUN. -/
def execPartnerUp (s : State) : Host.Outcome State Fault Refusal :=
  if s.par.enabled ∧ s.par.state ≠ .failed ∧ (groupAt s 44).run ∧ ¬ s.par.linkRun then
    .next (raise { s with par := { s.par with linkRun := true, mseqRx := none }, mot := { s.mot with told := [] } } 0x0607 [])
  else .next s

/-- PARTNER_MARK (R259, R264, R265): the partner's role and epoch. A chip in SHADOW carries the epoch of a gaffer's MARK; a
gaffer that sees a gaffer of a higher epoch is deposed. -/
def execPartnerMark (role : Nat) (epoch : Dword) (s : State) : Host.Outcome State Fault Refusal :=
  if !(s.par.enabled && s.par.linkRun) || s.par.state == .failed then .next s
  else
    let gaffer := if role = 1 then some epoch.toNat else none
    let s1 := { s with par := { s.par with partnerRole := role % 4, partnerEpoch := epoch.toNat, gafferEpoch := gaffer } }
    if isGaffer s ∧ role = 1 ∧ s.par.epoch < epoch.toNat then .next (depose s1 epoch.toNat)
    else if s.par.state = .shadow ∧ role = 1 then .next { s1 with par := { s1.par with epoch := epoch.toNat } }
    else .next s1

/-- An axis with feedback sets its commanded position to it, its path and table with it; no step leaves for that (R357). -/
def resumePos (a : Axis) : Axis :=
  if a.cfg.fbCh = 15 then a
  else
    let p := a.fb + a.fbOffset
    { a with pos := p, prev := p, torigin := a.torigin + (p - a.pos), stepped := p / 65536
             plan := a.plan.map fun g => { g with pos := g.pos + (p - a.pos) * stepScale } }

/-- The input a homing switches on: 0 LIMN, 1 LIMP, 2 HOME (R336). -/
def homeInput (h : Homing) : Nat := if h.sw = 1 then (if h.neg then 0 else 1) else 2

/-- The samples that confirm a level: DEBOUNCE, or 4 for the limit inputs of an index homing (R337). -/
def confirmLen (h : Homing) : Nat := if h.sw = 2 then 4 else h.debounce

/-- The homing an axis goes on with (R357). DESIGN CHOICE (log 163): what its switch has shown the servitor meanwhile counts, a
release at the position of the adoption. -/
def resumeHoming (a : Axis) (h : Homing) : Homing :=
  let k := homeInput h
  let on := decide (h.sw ≠ 2 ∧ h.debounce ≤ a.runs.getD k 0)
  let off := decide (h.sw ≠ 2 ∧ h.debounce ≤ a.offs.getD k 0)
  let here := if a.cfg.fbCh = 15 then a.pos else a.fb + a.fbOffset
  { h with wasOn := on || h.phase == 2, released := if h.phase = 2 ∧ off then some here else none
           seekCapture := if h.sw = 2 then here else h.seekCapture }

/-- A home edge, or in SEEK the limit input in DIR, that the servitor has seen confirmed while the mirrored axis still looks for it is
confirmed at the next sample (log 163). -/
def resumeRuns (a : Axis) (h : Homing) : List Nat :=
  let again := fun (k n : Nat) (runs : List Nat) => if n ≤ runs.getD k 0 then runs.set k (n - 1) else runs
  let r1 := if h.sw ≠ 2 ∧ (h.phase = 1 ∨ h.phase = 3) then again (homeInput h) h.debounce a.runs else a.runs
  if h.sw ≠ 1 ∧ h.phase = 1 then again (if h.neg then 0 else 1) (confirmLen h) r1 else r1

/-- The axes that loops drive go on at the outputs last written (R357). -/
def resumeVelocity (s : State) (k : Nat) : State :=
  let l := loopAt s k
  if bitOf (rdw l.desc.dw 0) 11 ∧ (l.mode = .manual ∨ l.mode = .auto) then
    setAxis s (fld (rdw l.desc.dw 0) 6 5) fun x => if x.state = .velocity then { x with loopVel := some l.outWritten } else x
  else s

/-- The mirrored motion and loops go on from their state: an axis with feedback sets its commanded position to it, a loop in
AUTO enters it as from MANUAL with its last output (R357). -/
def resumeMotion (s : State) : State :=
  let axes := s.mot.axes.map fun a =>
    { resumePos a with homing := a.homing.map (resumeHoming a)
                       runs := match a.homing with | some h => resumeRuns a h | none => a.runs }
  let loops := s.mot.loops.map fun l => if l.mode = .auto then { l with entering := true, manOut := l.lastOut } else l
  (List.range 32).foldl resumeVelocity { s with mot := { s.mot with axes := axes, loops := loops } }

/-- Commands that wait on the gaffer decide for themselves at adoption (R273). -/
def decideWaiting (s : State) : State :=
  let waiting := s.mbx.inFlight.filter fun r => !r.committed && r.note == [1]
  waiting.foldl (fun t r =>
    if opcodeOf r.entry = 0x0104 then pageCommit r.entry t
    else if opcodeOf r.entry = 0x0105 then pageAbort r.entry t else t) s

/-- The chip enters GAFFER (R262, R264, R273, R276, R357): nothing where its epochs are used up. -/
def takeOver (s : State) : State :=
  let s1 := adopt s
  if isGaffer s1 then
    let s2 := unshadowRest (decideWaiting (resumeMotion s1))
    resolveAll { s2 with par := { s2.par with pageEnds := [] } }
  else s1

/-- ROLE_SEL_RISE (R262, R265): ROLE_SEL rises, or is high as the chip has entered SHADOW. -/
def execRoleSelRise (s : State) : Host.Outcome State Fault Refusal :=
  let s1 := { s with pins := { s.pins with roleSel := true } }
  if !bootRunning s || s.pwr.state == .sleep || s.pwr.state == .off then .next s1
  else match s.par.state with
    | .shadow => .next (if s.par.mustFall then s1 else takeOver s1)
    | .syncing => .next (refuseRole s1)
    | _ => .next s1

/-- ROLE_SEL_FALL (R262, R265, R279). -/
def execRoleSelFall (s : State) : Host.Outcome State Fault Refusal :=
  let s1 := { s with pins := { s.pins with roleSel := false }, par := { s.par with mustFall := false, refusedRaised := false } }
  if isGaffer s ∧ bootRunning s then .next (enterShadow (raise s1 0x0602 (it s.par.epoch))) else .next s1

/-- A sentinel lapses: the chip enters FAILED (R261). -/
def lapse (s : State) : State :=
  if s.par.state = .failed ∨ s.pwr.state = .off ∨ s.pins.resetHeld then s else failChip (endPartnerWaits s)

/-- The supply sentinel compares VDD_CORE with the commanded voltage (R411): from the end of boot, but not while a VCORE_SET runs nor
for 1 ms, 400,000 TIME ticks, after it. -/
def supplyWatched (s : State) : Bool :=
  hasRun s && (runningCmd s 0x0902).isNone && s.pwr.vcoreAt.all fun t => decide (t + 400000 ≤ s.time.clk)

/-- SENTINEL_LAPSE (R261): whichever sentinel it is, the chip enters FAILED; the supply sentinel lapses only where it watches. -/
def execSentinelLapse (which : Sentinel) (s : State) : Host.Outcome State Fault Refusal :=
  match which with
  | .processor | .lineEngine | .timebase | .headLink | .memory => .next (lapse s)
  | .supply => .next (if supplyWatched s then lapse s else s)

/-! Commands (R281, R282, R286, R404). -/

/-- PAIR_CONFIG (R286, R404): a change takes the partner link out of RUN. A chip with pairing enabled is not referenced until its
rejoin or ROLE_FOUND (R281). -/
def execPairConfig (e : Entry) (s : State) : Host.Outcome State Fault Refusal :=
  .next (command [0x0801] e (fun _ s =>
    let en := bitOf (pw e 0) 31
    let rate := fld (pw e 0) 0 2
    checked s [(!rsvOk e [0x80000003] || (en && rate == 0), stFormat),
               (s.par.state == .gaffer || s.par.state == .shadow, stBusy)] fun s =>
      let same := s.par.enabled == en && s.par.ptlRate == rate
      let s1 := if same then s else leaveRun (partnerLinkLost s) 44
      let s2 := { s1 with par := { s1.par with enabled := en, ptlRate := rate } }
      okWith (setGroup s2 44 fun g => { g with rate := rate, rated := en }) []) s)

/-- ROLE_FOUND (R281, R286): the chip's state is declared current, and it enters SHADOW. -/
def execRoleFound (e : Entry) (s : State) : Host.Outcome State Fault Refusal :=
  .next (command [0x0802] e (fun _ s =>
    checked s [(!rsvOk e [], stFormat), (s.par.enabled && s.par.linkRun && s.par.partnerRole != 0, stPartnerActive),
               (s.par.state == .gaffer || s.par.state == .failed, stState)] fun s =>
      if s.par.state = .shadow then okWith s []
      else
        let s1 := finishOp s 0x0803 stState []
        let s2 := { s1 with par := { s1.par with rejoin := 0, rejoinGot := [], autoDue := false }, ftb := { s1.ftb with referenced := true } }
        okWith (enterShadow s2) []) s)

/-- PAIR_REJOIN (R282, R286): runs until the rejoin ends. -/
def execPairRejoin (e : Entry) (partnerVersion : Dword) (s : State) : Host.Outcome State Fault Refusal :=
  .next (command [0x0803] e (fun r s =>
    checked s [(!rsvOk e [], stFormat), (s.par.state != .syncing, stState), ((runningCmd s 0x0803).isSome, stBusy)] fun s =>
      let s1 := commitRunning s r []
      let s2 := beginRejoin s1 partnerVersion
      .runs s2 []) s)

/-- REJOIN_AUTO (R269): a servitor in SYNCING rejoins of its own accord. -/
def execRejoinAuto (partnerVersion : Dword) (s : State) : Host.Outcome State Fault Refusal :=
  if s.par.autoDue && s.par.state == .syncing && servitor s && s.par.linkRun && bootRunning s && s.par.rejoin == 0 then
    .next (beginRejoin s partnerVersion)
  else .next s

/-- REF_TIMEOUT (R282): step 4 has taken no reference within 100 ms. -/
def execRefTimeout (s : State) : Host.Outcome State Fault Refusal :=
  if s.par.rejoin = 4 ∧ ¬ s.ftb.referenced then .next (failRejoin s 4 stRefTimeout 0) else .next s

/-- A swap made now thins no drop (R279). -/
def swapClean (s : State) : Bool :=
  s.par.linkRun && s.csc.marks.isEmpty && (s.par.state == .shadow || (isGaffer s && s.par.partnerRole == 2))

/-- PAIR_STATUS (R286, R404). -/
def execPairStatus (e : Entry) (s : State) : Host.Outcome State Fault Refusal :=
  .next (command [0x0804] e (fun _ s =>
    checked s [(!rsvOk e [], stFormat)] fun s =>
      let b := fun (x : Bool) (v : Nat) => if x then v else 0
      let d4 := pairCode s.par.state + b s.par.linkRun 4 + b s.ftb.referenced 8 + b (swapClean s) 16 + b s.pins.roleSel 32
        + b s.par.enabled 64
      let marks := (List.range 5).map fun i =>
        BitVec.ofNat 32 ((s.csc.marks.filter fun k => k / 32 == i).map fun k => 2 ^ (k % 32)).sum
      okWith s (it d4 ++ it s.par.epoch ++ it (deltaT s) ++ marks)) s)

end Sys2Proof.Machine
end

