-- ==== Sys2Proof/Machine/Memory.lean ====
section
/-! DEFINITION. The DRAM controller: configuration and regions, reads, codes and poison, writes and refresh, burnish,
rank sparing, the cullet log and retirement (R289 to R319, R404). -/

namespace Sys2Proof.Machine

/-! Places and ranks (R289 to R292). -/

/-- The populated channels of a configuration with `pairs` channel pairs (R290). -/
def populated (pairs : Nat) : List Nat := List.range pairs ++ (List.range pairs).map fun c => 6 + c

/-- Rows per bank by density code (R289). -/
def rowsPerBank : Nat → Nat
  | 0 => 65536 | 1 => 98304 | _ => 131072

/-- The place dword of R314: channel, rank, bank group, bank and row. -/
def placeDw (ch rank bg bank row : Nat) : Dword :=
  BitVec.ofNat 32 (ch * 2 ^ 28 + rank * 2 ^ 26 + bg * 2 ^ 23 + bank * 2 ^ 21 + row * 2 ^ 4)

/-- An exclusion dword excludes bank `b` (4 × group + bank) of rank `rank` on channel `ch` (R293). -/
def exclHits (d : Dword) (ch rank b : Nat) : Bool :=
  fld d 28 4 == ch && fld d 26 2 == rank && (bitOf d 20 || fld d 21 5 == b)

/-- The banks of a rank that are excluded. -/
def exclBanks (c : MemCfg) (ch rank : Nat) : List Nat :=
  (List.range 32).filter fun b => c.excluded.any fun d => exclHits d ch rank b

/-- The ranks of a channel that are not wholly excluded. -/
def liveRanks (c : MemCfg) (ch : Nat) : List Nat :=
  (List.range c.ranks).filter fun r => decide ((exclBanks c ch r).length < 32)

/-- The spare of a channel: its highest rank not wholly excluded (R291). -/
def spareRank (c : MemCfg) (ch : Nat) : Option Nat := if c.spareEn then (liveRanks c ch).getLast? else none

/-- The usable bytes of a channel (R292): its ranks but the spare, less excluded banks and the retirement reserve. -/
def usableBytes (c : MemCfg) (ch : Nat) : Nat :=
  let rows := rowsPerBank c.density
  (((liveRanks c ch).filter fun r => spareRank c ch != some r).map fun r =>
    4096 * ((32 - (exclBanks c ch r).length) * rows - c.retirePages)).sum

/-- C_sys in units of 256 MiB (R292). -/
def cSysUnits (c : MemCfg) : Nat :=
  match (populated c.chPairs).map (usableBytes c) with
  | [] => 0
  | x :: xs => 2 * c.chPairs * xs.foldl min x / 2 ^ 28

/-- Rank `rank` of channel `ch`, if populated. -/
def rankAt (s : State) (ch rank : Nat) : Option Rank := s.mem.ranks.find? fun x => x.ch == ch && x.rank == rank

/-- A rank changed. -/
def setRank (s : State) (ch rank : Nat) (f : Rank → Rank) : State :=
  { s with mem := { s.mem with ranks := s.mem.ranks.map fun x => if x.ch = ch ∧ x.rank = rank then f x else x } }

/-- The rank of a channel in a given state. -/
def rankIn (s : State) (ch : Nat) (st : RankState) : Option Rank :=
  s.mem.ranks.find? fun x => x.ch == ch && x.state == st

/-! The address map (R290 to R293, R298). -/

/-- The reserve rows of a rank, from its top down: (bank, row) of its banks not excluded (R291). -/
def reserveRows (c : MemCfg) (ch rank : Nat) : List (Nat × Nat) :=
  let rows := rowsPerBank c.density
  let banks := ((List.range 32).filter fun b => !(exclBanks c ch rank).contains b).reverse
  (List.range c.retirePages).filterMap fun i => (banks[i / rows]?).map fun b => (b, rows - 1 - i % rows)

/-- A place's dword (R314). -/
def dwOf (p : Place) : Dword := placeDw p.channel p.rank p.bg p.bank p.row

/-- The place of a dword. -/
def placeOf (d : Dword) : Place :=
  { channel := fld d 28 4, rank := fld d 26 2, bg := fld d 23 3, bank := fld d 21 2, row := fld d 4 17 }

/-- The bank of a place within its rank, 0 to 31. -/
def bankOf (p : Place) : Nat := 4 * p.bg + p.bank

/-- The row of a place within its rank, counted in ascending bank and row (R311). -/
def rankRow (c : MemCfg) (p : Place) : Nat := bankOf p * rowsPerBank c.density + p.row

/-- The channel that holds the other copy of what channel `ch` holds under STRONG (R298). -/
def otherChannel (ch : Nat) : Nat := if ch < 6 then ch + 6 else ch - 6

/-- The channel of the first copy of a memory page (R292). DESIGN CHOICE (log 155): pages go round the populated channels in
ascending order. -/
def pageChannel (c : MemCfg) (page : Nat) : Nat := (populated c.chPairs).getD (page % (2 * c.chPairs)) 0

/-- A row the system address space may use: its rank stands in it, its bank is not excluded (R293), it is no reserve row
(R291). -/
def mapped (s : State) (c : MemCfg) (p : Place) : Bool :=
  (match rankAt s p.channel p.rank with
   | some x => x.state == .inService || x.state == .migratingFrom
   | none => false) &&
  !(exclBanks c p.channel p.rank).contains (bankOf p) && decide (p.row < rowsPerBank c.density) &&
  !(reserveRows c p.channel p.rank).contains (bankOf p, p.row)

/-- Copy `k` of the burst at `addr` can stand at a place (R292): on its channel, in one row for the whole memory page, a row
no other page has. -/
def mayStand (s : State) (addr k : Nat) (p : Place) : Bool :=
  match s.mem.cfg with
  | none => false
  | some c =>
    let page := addr / 4096
    let ch := pageChannel c page
    p.channel == (if k = 0 then ch else otherChannel ch) && mapped s c p &&
    match assoc s.mem.places (2 * page + k) with
    | some q => q == p
    | none => !(s.mem.places.any fun x => x.2 == p)

/-- A page's place is kept from its first use on. -/
def keepPlace (s : State) (addr k : Nat) (p : Place) : State :=
  let key := 2 * (addr / 4096) + k
  if (assoc s.mem.places key).isSome then s
  else { s with mem := { s.mem with places := s.mem.places ++ [(key, p)] } }

/-! Where an access goes: retired rows, migrations (R311, R315). -/

/-- The row that stands in for a place: a retired row's reserve row (R315). -/
def remapped (s : State) (p : Place) : Place :=
  match s.mem.remap.find? fun x => x.1 == dwOf p with
  | some x => placeOf (BitVec.ofNat 32 x.2)
  | none => p

/-- The spare that a place's rank is being copied to, with the rows copied so far. -/
def migration (s : State) (p : Place) : Option (Rank × Nat) :=
  match rankAt s p.channel p.rank with
  | some x =>
    if x.state = .migratingFrom then
      (rankIn s p.channel .migratingTo).map fun y => (y, (assoc s.mem.copies p.channel).getD 0)
    else none
  | none => none

/-- The number of a place's row in its rank; 0 before MEM_CONFIG. -/
def rowNumber (s : State) (p : Place) : Nat := match s.mem.cfg with | some c => rankRow c p | none => 0

/-- The row a read goes to: of the spare once copied, else of the failing rank (R311). -/
def readPlace (s : State) (p : Place) : Place :=
  let q := remapped s p
  match migration s q with
  | some (sp, n) => if rowNumber s q < n then { q with rank := sp.rank } else q
  | none => q

/-- The rows a write goes to: both ranks' for a row copied or being copied, else the failing rank's (R311). -/
def writePlaces (s : State) (p : Place) : List Place :=
  let q := remapped s p
  match migration s q with
  | some (sp, n) => if rowNumber s q ≤ n then [q, { q with rank := sp.rank }] else [q]
  | none => [q]

/-! The cullet log (R314). -/

/-- Entries the cullet ring holds. -/
def culletSize : Nat := 1024

/-- A cullet entry is logged. An unread entry is never overwritten: with all unread it is lost and counted, CULLET_FULL
raised once (R314). -/
def logCullet (s : State) (kind cnt : Nat) (place : Dword) (addr : Nat) : State :=
  if culletSize ≤ s.mem.cullets.length ∧ s.mem.culletRead = 0 then
    let s1 := count { s with mem := { s.mem with culletLost := true } } (cnum 7 19)
    if s.mem.fullRaised then s1 else raise { s1 with mem := { s1.mem with fullRaised := true } } 0x0708 []
  else
    let c : Cullet := { kind := kind, lost := s.mem.culletLost, poison := false, count := cnt, place := place, addr := addr
                        seq := s.mem.culletSeq, sec := s.time.sec, nsec := s.time.nsec }
    let full := culletSize ≤ s.mem.cullets.length
    let kept := if full then s.mem.cullets.drop 1 else s.mem.cullets
    let nr := if full then s.mem.culletRead - 1 else s.mem.culletRead
    { s with mem := { s.mem with cullets := kept ++ [c], culletRead := nr, culletLost := false
                                 culletSeq := (s.mem.culletSeq + 1) % 2 ^ 32 } }

/-- The address of a cullet entry to which none applies: all ones. -/
def noAddr : Nat := 2 ^ 64 - 1

/-- CULLET_READ (R314): up to the number asked for of the oldest unread entries. -/
def execCulletRead (e : Entry) (s : State) : Host.Outcome State Fault Refusal :=
  .next (command [0x0407] e (fun _ s =>
    let n := fld (pw e 0) 0 7
    checked s [(!rsvOk e [0x7F, 0, allBits, allBits] || decide (n < 1 ∨ 64 < n) || pq e 2 % 32 != 0, stFormat)] fun s =>
      let out := (s.mem.cullets.drop s.mem.culletRead).take n
      let s1 := hostPutDws s (pq e 2) (out.flatMap culletDws)
      let full := s.mem.fullRaised && out.isEmpty
      let s2 := { s1 with mem := { s1.mem with culletRead := s.mem.culletRead + out.length, fullRaised := full } }
      okWith s2 (it out.length ++ it (s2.mem.cullets.length - s2.mem.culletRead : Nat))) s)

/-! Configuration and regions (R293, R299, R300). -/

/-- The configuration that the record's dwords give. -/
def readMemCfg (d : List Dword) (excl : List Dword) : MemCfg :=
  { speed := fld (rdw d 0) 22 2, chPairs := fld (rdw d 0) 19 3, density := fld (rdw d 0) 17 2
    ranks := fld (rdw d 0) 15 2 + 1, spareEn := bitOf (rdw d 0) 14, wmHigh := fld (rdw d 1) 26 6
    wmLow := fld (rdw d 1) 20 6, retirePages := fld (rdw d 1) 0 13, ceRowThr := fld (rdw d 2) 24 8, excluded := excl }

/-- The header's fields are in range (R293). -/
def memHeaderOk (d : List Dword) : Bool :=
  let c := readMemCfg d []
  recRsvOk d [0xFFFFC000, 0xFFF01FFF, 0xFF0007FF, 0] && fld (rdw d 0) 24 8 == 1 &&
  decide (1 ≤ c.chPairs ∧ c.chPairs ≤ 6 ∧ c.density ≠ 3 ∧ 9 ≤ c.wmHigh ∧ c.wmHigh ≤ 60 ∧ 8 ≤ c.wmLow ∧
    c.wmLow < c.wmHigh ∧ c.retirePages ≤ 4096 ∧ 1 ≤ c.ceRowThr ∧ fld (rdw d 2) 0 11 ≤ 1536)

/-- An exclusion dword names a populated channel and a rank of the record, ALL_BANKS with BG and BANK 0 (R293). -/
def exclOk (c : MemCfg) (d : Dword) : Bool :=
  onlyBits d 0xFFF00000 && (populated c.chPairs).contains (fld d 28 4) && decide (fld d 26 2 < c.ranks) &&
  (!bitOf d 20 || fld d 21 5 == 0)

/-- SPARE_EN leaves every populated channel two ranks not wholly excluded (R291). -/
def sparesOk (c : MemCfg) : Bool :=
  !c.spareEn || (populated c.chPairs).all fun ch => decide (2 ≤ (liveRanks c ch).length)

/-- Training finds what the record says (R293). -/
def populationOk (c : MemCfg) (f : Population) : Bool :=
  f.uniform && f.chPairs == c.chPairs && f.density == c.density && f.ranks == c.ranks

/-- The ranks as MEM_CONFIG leaves them: wholly excluded ones out of use, one spare per channel under SPARE_EN (R291). -/
def ranksFrom (c : MemCfg) : List Rank :=
  (populated c.chPairs).flatMap fun ch => (List.range c.ranks).map fun r =>
    { ch := ch, rank := r, failing := false, cause := 0, noSpareRaised := false, fast := false, owed := 0
      state := if !(liveRanks c ch).contains r then .retired else if spareRank c ch = some r then .spare else .inService }

/-- A configuration put in force, one EXCLUDED entry per exclusion dword (R314). -/
def applyMemCfg (s : State) (c : MemCfg) : State :=
  c.excluded.foldl (fun t d => logCullet t 8 1 (placeDw (fld d 28 4) (fld d 26 2) (fld d 23 3) (fld d 21 2) 0) noAddr)
    { s with mem := { s.mem with cfg := some c, ranks := ranksFrom c } }

/-- MEM_CONFIG (R293): BUSY, the record, then training and POPULATION. -/
def execMemConfig (e : Entry) (found : Population) (s : State) : Host.Outcome State Fault Refusal :=
  .next (command [0x0401] e (fun _ s =>
    let addr := pq e 2
    checked s [(s.mem.ready, stBusy), (!rsvOk e [0, 0, allBits, allBits] || addr % 64 != 0, stFormat)] fun s =>
      withRecord s addr 4 fun d =>
        checked s [(!memHeaderOk d, stFormat)] fun s =>
          withRecord s (addr + 16) (fld (rdw d 2) 0 11) fun ex =>
            let c := readMemCfg d ex
            checked s [(!(ex.all (exclOk c) && sparesOk c), stFormat), (!populationOk c found, stPopulation)] fun s =>
              okWith (applyMemCfg s c) []) s)

/-- The regions of a table: FIRMWARE, then dwords 1 to 15 (R299). -/
def regionsFrom (d : List Dword) : List Region :=
  { kind := 1, code := 3, size := 1 } ::
    (List.range 15).map fun i =>
      let w := rdw d (i + 1)
      { kind := fld w 28 4, code := fld w 26 2, size := fld w 0 12 }

/-- Kind, least and most regions, least total size, and whether LIGHT is allowed (R300). -/
def kindRules : List (Nat × Nat × Nat × Nat × Bool) :=
  [(2, 1, 1, 4, false), (7, 1, 1, 2, false), (3, 1, 4, 1, true), (4, 1, 4, 1, true), (5, 1, 1, 2, true),
   (6, 1, 1, 1, false)]

/-- A region's own fields (R299, R300). -/
def regionOk (r : Region) : Bool :=
  if r.kind = 0 then r.code == 0 && r.size == 0
  else match kindRules.find? fun k => k.1 == r.kind with
    | none => false
    | some (_, _, _, _, light) =>
      decide (1 ≤ r.code ∧ r.code ≤ 3 ∧ 1 ≤ r.size ∧ r.size ≤ 3072) && (light || r.code != 1)

/-- A table's rules (R299, R300; RSV bits are ignored, R36): each region, each kind's count and total, SPILL within 64 GiB. -/
def regionsOk (d : List Dword) : Bool :=
  let rs := (regionsFrom d).drop 1
  rs.all regionOk &&
  kindRules.all fun (k, lo, hi, least, _) =>
    let own := rs.filter fun r => r.kind == k
    decide (lo ≤ own.length ∧ own.length ≤ hi ∧ least ≤ (own.map (·.size)).sum ∧
      (k = 4 → (own.map (·.size)).sum ≤ 256))

/-- The capacity a region uses, in units (R298): twice its size under STRONG. -/
def unitsUsed (r : Region) : Nat := if r.code = 3 then 2 * r.size else r.size

/-- MEM_REGIONS (R299, R300): accepted once; every burst of the regions is written, so none is poisoned. -/
def execMemRegions (e : Entry) (s : State) : Host.Outcome State Fault Refusal :=
  .next (command [0x0402] e (fun _ s =>
    checked s [(!rsvOk e [0, 0, allBits, allBits] || pq e 2 % 64 != 0, stFormat), (s.mem.ready, stBusy),
               (s.mem.cfg.isNone, stNotReady)] fun s =>
      withRecord s (pq e 2) 16 fun d =>
        let rs := regionsFrom d
        let cs := match s.mem.cfg with | some c => cSysUnits c | none => 0
        checked s [(!regionsOk d, stFormat), (decide (cs < (rs.map unitsUsed).sum), stCapacity)] fun s =>
          okWith { s with mem := { s.mem with regions := rs, ready := true, poisoned := [] } } (it cs)) s)

/-- Region `j` in use. -/
def regionAt (s : State) (j : Nat) : Option Region :=
  (s.mem.regions[j]?).bind fun r => if r.kind = 0 then none else some r

/-- The system address at which region `j` begins (R299). -/
def regionBase (s : State) (j : Nat) : Nat := 2 ^ 28 * ((s.mem.regions.take j).map (·.size)).sum

/-! Writes and refresh (R294 to R296). -/

/-- The queued writes of a channel, oldest first. -/
def queuedOn (s : State) (ch : Nat) : List QueuedWrite := s.mem.writes.filter fun w => w.write.place.channel == ch

/-- The write to a burst queued on a channel. -/
def queuedTo (s : State) (ch addr : Nat) : Option QueuedWrite := (queuedOn s ch).find? fun w => w.write.addr == addr

/-- A write to a burst is queued. -/
def isQueued (s : State) (ch addr : Nat) : Bool := (queuedTo s ch addr).isSome

/-- A write of all 64 bytes (R302). -/
def wholeBurst (m : BitVec 64) : Bool := m == BitVec.allOnes 64

/-- The bits of the bytes a mask names. -/
def byteBits (m : BitVec 64) : BitVec 512 :=
  (List.range 64).foldl (fun a i => if m.getLsbD i then a ||| (255#512 <<< (8 * i)) else a) 0

/-- A burst's data with the named bytes of another. -/
def overlay (old : BitVec 512) (m : BitVec 64) (new : BitVec 512) : BitVec 512 :=
  (old &&& ~~~ byteBits m) ||| (new &&& byteBits m)

/-- A later write joins a queued one to its burst: the later bytes win (R295); one of all 64 bytes ends its poison (R302). -/
def mergeWrite (q : QueuedWrite) (w : BurstWrite) : QueuedWrite :=
  { q with write := { q.write with mask := q.write.mask ||| w.mask, data := overlay q.write.data w.mask w.data }
           poison := q.poison && !wholeBurst w.mask }

/-- A queued write reaches the DRAM: in both ranks of a migration where R311 says so. Only one of all 64 bytes clears the
burst's poison (R302). -/
def writeOut (s : State) (q : QueuedWrite) : State :=
  let w := q.write
  let s1 := emitAll s ((writePlaces s w.place).map fun p => .dramWrite p w.addr w.mask w.data q.poison)
  if wholeBurst w.mask && !q.poison then
    { s1 with mem := { s1.mem with poisoned := s1.mem.poisoned.filter fun a => a != w.addr } }
  else s1

/-- A channel's write queue changed. -/
def setWrites (s : State) (ws : List QueuedWrite) : State := { s with mem := { s.mem with writes := ws } }

/-- A write is queued (R295): it joins one to the same burst; with 64 queued the oldest is written first. -/
def enqueueWrite (s : State) (w : BurstWrite) (poison : Bool) : State :=
  let ch := w.place.channel
  if isQueued s ch w.addr then
    setWrites s (s.mem.writes.map fun q =>
      if q.write.place.channel = ch ∧ q.write.addr = w.addr then mergeWrite q w else q)
  else
    let new : QueuedWrite := { write := w, poison := poison, clk := s.time.clk }
    match queuedOn s ch with
    | [] => setWrites s (s.mem.writes ++ [new])
    | q :: qs =>
      if 63 ≤ qs.length then
        let s1 := writeOut s q
        setWrites s1 (s1.mem.writes.erase q ++ [new])
      else setWrites s (s.mem.writes ++ [new])

/-- A burst the controller itself writes back (R301): bytes already queued for it are newer and win. -/
def rewriteBurst (s : State) (p : Place) (addr : Nat) (data : BitVec 512) (poison : Bool) : State :=
  let whole : BurstWrite := { place := p, other := none, addr := addr, mask := BitVec.allOnes 64, data := data }
  match queuedTo s p.channel addr with
  | none => enqueueWrite s whole poison
  | some q =>
    if wholeBurst q.write.mask then s
    else
      let new := { q with write := { whole with data := overlay data q.write.mask q.write.data }, poison := poison }
      setWrites s (s.mem.writes.map fun x => if x = q then new else x)

/-- The copies of a burst that its region keeps (R298). -/
def copyCount (s : State) (addr : Nat) : Nat :=
  let hit := fun (j : Nat) => match regionAt s j with
    | some g => decide (regionBase s j ≤ addr ∧ addr < regionBase s j + 2 ^ 28 * g.size) && g.code == 3
    | none => false
  if (List.range 16).any hit then 2 else 1

/-- The 4 bytes at offset `off` of a burst, as a dword. -/
def burstDword (data : BitVec 512) (off : Nat) : Dword := BitVec.ofNat 32 (data.toNat / 2 ^ (8 * off))

/-- A dword of the debug port's with the bytes of a write to its burst over it (R295, R441). -/
def debuggedOver (w : BurstWrite) (x : Nat × Dword) : Nat × Dword :=
  if x.1 / 64 * 64 = w.addr then
    (x.1, burstDword (overlay (BitVec.ofNat 512 (x.2.toNat * 2 ^ (8 * (x.1 % 64)))) w.mask w.data) (x.1 % 64))
  else x

/-- The dwords that the debug port wrote follow the writes of the engines. -/
def followDebug (s : State) (w : BurstWrite) : State :=
  { s with mem := { s.mem with debugged := s.mem.debugged.map (debuggedOver w) } }

/-- The copies that a write of an engine writes: every copy its region keeps, each where the address map has it (R292, R298); none
where it does not stand there. -/
def writtenCopies (s : State) (w : BurstWrite) : List (Nat × Place) :=
  match w.other with
  | none => if copyCount s w.addr = 1 ∧ mayStand s w.addr 0 w.place then [(0, w.place)] else []
  | some p => if copyCount s w.addr = 2 ∧ mayStand s w.addr 0 w.place ∧ mayStand s w.addr 1 p then [(0, w.place), (1, p)] else []

/-- The write of an engine reaches the channel of every copy (R295, R298). -/
def writeArrives (s : State) (w : BurstWrite) : State :=
  let cs := writtenCopies s w
  if cs.isEmpty then s
  else followDebug (cs.foldl (fun t c => enqueueWrite (keepPlace t w.addr c.1 c.2) { w with place := c.2, other := none } false) s) w

/-- A read waits on a channel. -/
def readWaits (s : State) (ch : Nat) : Bool := s.mem.reads.any fun q => q.place.channel == ch

/-- The writes a drain writes, oldest first (R295): at WM_HIGH down to WM_LOW; everything while no read waits; else the entries
older than 20 µs. -/
def dueWrites (s : State) (c : MemCfg) (ch : Nat) : List QueuedWrite :=
  let ws := queuedOn s ch
  if c.wmHigh ≤ ws.length then ws.take (ws.length - c.wmLow)
  else if readWaits s ch then ws.filter fun w => decide (w.clk + 8000 < s.time.clk)
  else ws

/-- WRITE_DRAIN (R295): the engines' writes that reached the channel join its queue, then it drains what is due. DESIGN CHOICE
(log 156): where a store of the page, table or statistics engines lands in DRAM is the chip's own, so those writes come with
this command. -/
def execWriteDrain (ch : Nat) (arrived : List BurstWrite) (s : State) : Host.Outcome State Fault Refusal :=
  match s.mem.cfg with
  | none => .next s
  | some c =>
    let s1 := (arrived.filter fun w => w.place.channel == ch || w.other.any fun p => p.channel == ch).foldl writeArrives s
    let due := dueWrites s1 c ch
    let s2 := due.foldl writeOut s1
    .next (setWrites s2 (s2.mem.writes.diff due))

/-- A rank that refreshes: one in service, or on either side of a migration (R296). -/
def refreshes (x : Rank) : Bool :=
  x.state == .inService || x.state == .migratingFrom || x.state == .migratingTo

/-- A read waits for a rank. -/
def rankWaits (s : State) (ch rank : Nat) : Bool :=
  s.mem.reads.any fun q => q.place.channel == ch && (readPlace s q.place).rank == rank

/-- A read waits, if its place is one the controller accesses (R293). -/
def readArrives (s : State) (q : MemReq) : State :=
  match s.mem.cfg with
  | none => s
  | some c => if mapped s c q.place then { s with mem := { s.mem with reads := s.mem.reads ++ [q] } } else s

/-- REFRESH_DUE (R296): the reads that have come join the queue. The refresh is issued with what is owed while no read waits for
the rank; else it is postponed, the ninth forcing all. -/
def execRefreshDue (ch rank : Nat) (arrived : List MemReq) (s0 : State) : Host.Outcome State Fault Refusal :=
  let s := arrived.foldl readArrives s0
  match rankAt s ch rank with
  | none => .next s
  | some x =>
    let waits := rankWaits s ch rank
    if !refreshes x then .next s
    else if waits && decide (x.owed < 8) then .next (setRank s ch rank fun y => { y with owed := y.owed + 1 })
    else
      let s1 := setRank s ch rank fun y => { y with owed := 0 }
      .next (if waits then count s1 (cnum 7 18) else s1)

/-- The refreshes owed to ranks no read waits for any more are issued (R296). -/
def issueOwed (s : State) (ch : Nat) : State :=
  { s with mem := { s.mem with ranks := s.mem.ranks.map fun x =>
                                          if x.ch = ch ∧ rankWaits s ch x.rank = false then { x with owed := 0 } else x } }

/-- DRAM_TEMP_READ (R296): the refresh interval halves above 85 °C. -/
def execDramTempRead (ch rank : Nat) (above85 : Bool) (s : State) : Host.Outcome State Fault Refusal :=
  .next (setRank s ch rank fun x => { x with fast := above85 })

/-! Rank sparing (R310 to R312). -/

/-- A persistent uncorrectable error (cause 1) or a command error (cause 2) of a rank: one in service becomes failing; the
spare of a running migration is withdrawn and the failing rank stays in service (R310, R312). -/
def rankError (s : State) (ch rank cause : Nat) : State :=
  match rankAt s ch rank with
  | none => s
  | some x =>
    match x.state with
    | .migratingTo =>
      let old := (rankIn s ch .migratingFrom).getD x
      let s0 := setRank (setRank s ch old.rank fun y => { y with state := .inService }) ch rank fun y =>
        { y with state := .retired }
      let s1 := { s0 with mem := { s0.mem with copies := s0.mem.copies.filter fun x => x.1 != ch } }
      logCullet (raise s1 0x0704 (it ch ++ it old.rank)) 6 1 (placeDw ch old.rank 0 0 0) noAddr
    | .inService => if x.failing then s else setRank s ch rank fun y => { y with failing := true, cause := cause }
    | .spare | .migratingFrom | .retired => s

/-- The start of a migration of a rank in service to its channel's spare; with no spare free, RANK_NO_SPARE once per rank,
logged (R310). -/
def startMigration (s : State) (ch rank cause : Nat) : State :=
  match rankIn s ch .spare with
  | some sp =>
    let s0 := setRank (setRank s ch rank fun y => { y with state := .migratingFrom }) ch sp.rank fun y =>
      { y with state := .migratingTo }
    let s1 := { s0 with mem := { s0.mem with copies := s0.mem.copies ++ [(ch, 0)] } }
    raise s1 0x0702 (it ch ++ it rank ++ it cause)
  | none =>
    match rankAt s ch rank with
    | none => s
    | some x =>
      if x.noSpareRaised then s
      else logCullet (raise (setRank s ch rank fun y => { y with noSpareRaised := true }) 0x0705 (it ch ++ it rank))
        5 1 (placeDw ch rank 0 0 0) noAddr

/-- MIGRATION_START (R310): within 1 ms of a rank becoming failing. -/
def execMigrationStart (ch rank : Nat) (s : State) : Host.Outcome State Fault Refusal :=
  match rankAt s ch rank with
  | some x => .next (if x.failing ∧ x.state = .inService then startMigration s ch rank x.cause else s)
  | none => .next s

/-- A place of rank `a` of a channel, after rank `b` has replaced it. -/
def replaceRank (ch a b : Nat) (p : Place) : Place := if p.channel = ch ∧ p.rank = a then { p with rank := b } else p

/-- RANK_MIGRATED (R311): the copy of a channel is complete and the spare replaces the failing rank in the address map, the
remap table, which keeps its rows, and the queues. -/
def execRankMigrated (ch : Nat) (s : State) : Host.Outcome State Fault Refusal :=
  match rankIn s ch .migratingFrom, rankIn s ch .migratingTo with
  | some a, some b =>
    let move := replaceRank ch a.rank b.rank
    let s1 := setRank (setRank s ch a.rank fun y => { y with state := .retired }) ch b.rank fun y =>
      { y with state := .inService }
    let s2 := { s1 with mem := { s1.mem with remap := s.mem.remap.map fun x =>
                                               (dwOf (move (placeOf x.1)),
                                                (dwOf (move (placeOf (BitVec.ofNat 32 x.2)))).toNat)
                                             places := s.mem.places.map fun x => (x.1, move x.2)
                                             reads := s.mem.reads.map fun q => { q with place := move q.place }
                                             writes := s.mem.writes.map fun w =>
                                               { w with write := { w.write with place := move w.write.place } }
                                             copies := s.mem.copies.filter fun x => x.1 != ch } }
    .next (logCullet (raise s2 0x0703 (it ch ++ it a.rank)) 4 1 (placeDw ch a.rank 0 0 0) noAddr)
  | _, _ => .next s

/-- MEM_MIGRATE (R310, R317, R404): completes when the copy starts. -/
def execMemMigrate (e : Entry) (s : State) : Host.Outcome State Fault Refusal :=
  .next (command [0x0405] e (fun _ s =>
    let ch := fld (pw e 0) 28 4
    let rank := fld (pw e 0) 26 2
    match rankAt s ch rank with
    | none => reject s stFormat
    | some x =>
      checked s [(!rsvOk e [0xFC000000], stFormat), (x.state != .inService, stState)] fun s =>
        if (rankIn s ch .spare).isNone then .done (startMigration s ch rank 3) stState []
        else okWith (startMigration s ch rank 3) []) s)

/-- CMD_ERROR (R310): the one retry of an alerted command; recurring, the rank is failing and the error is logged. An excluded
rank and one that a migration replaced receive no command (R293, R311). -/
def execCmdError (ch rank : Nat) (recurs : Bool) (s : State) : Host.Outcome State Fault Refusal :=
  let commanded := match rankAt s ch rank with | some x => x.state != .retired | none => false
  if !commanded then .next s
  else
    let s1 := count s (cnum 7 16)
    .next (if recurs then rankError (logCullet s1 7 1 (placeDw ch rank 0 0 0) noAddr) ch rank 2 else s1)

/-! Retired rows (R315). -/

/-- The remap entries of a channel. -/
def remapsOn (s : State) (ch : Nat) : List (Dword × Nat) := s.mem.remap.filter fun x => fld x.1 28 4 == ch

/-- The row a retirement takes: not excluded, not a reserve row, not yet retired (R315). -/
def retirable (s : State) (c : MemCfg) (d : Dword) : Bool :=
  let ch := fld d 28 4
  let rank := fld d 26 2
  let b := fld d 21 5
  let row := fld d 4 17
  decide (row < rowsPerBank c.density) && !(exclBanks c ch rank).contains b &&
  !(reserveRows c ch rank).contains (b, row) && !(s.mem.remap.any fun x => x.1 == d)

/-- The next free reserve row of a rank, as a place dword. -/
def freeReserve (s : State) (c : MemCfg) (ch rank : Nat) : Option Dword :=
  let used := ((remapsOn s ch).filter fun x => fld x.1 26 2 == rank).length
  ((reserveRows c ch rank)[used]?).map fun x => placeDw ch rank (x.1 / 4) (x.1 % 4) x.2

/-! Reads, codes and poison (R298 to R304). -/

/-- What a copy's read and retry come to. -/
inductive CopyEnd where
  | good (errors : Nat) (retried : Bool)
  | poison
  | bad
deriving DecidableEq, Repr

/-- Byte errors a code corrects in one burst (R298). -/
def corrects (code : Nat) : Nat := if code = 1 then 1 else 4

/-- A copy decoded, of a burst stored poisoned or not: a poison pattern without errors is told first, on the read or its one
retry, and one with errors decodes as uncorrectable; else the read, then its retry (R301, R302). -/
def copyEnd (code : Nat) (poisoned : Bool) (c : CopyRead) : CopyEnd :=
  if poisoned then (if c.errors = 0 ∨ c.retryErrors = 0 then .poison else .bad)
  else if c.errors ≤ corrects code then .good c.errors false
  else if c.retryErrors ≤ corrects code then .good c.retryErrors true
  else .bad

/-- A pass's figures changed. -/
def setBurnish (s : State) (f : Burnish → Burnish) : State :=
  { s with mem := { s.mem with burnish := s.mem.burnish.map f } }

/-- Traffic of class 3 on a channel: a burst, charged to its share in any 100 µs (R294). -/
def chargeThree (s : State) (ch : Nat) : State :=
  let recent := s.mem.served.filter fun x => decide (s.time.clk < x.2 + 40000)
  { s with mem := { s.mem with served := recent ++ [(ch, s.time.clk)] } }

/-- A reader's class (R294). -/
def readClass : Reader → Nat
  | .print => 1 | .other => 2 | .burnish => 3 | .copy _ => 3

/-- A burst written back for a read: traffic of class 3 where a burnish pass or a migration read it (R294, R301). -/
def writeBack (s : State) (r : BurstRead) (p : Place) (poison : Bool) : State :=
  let s1 := rewriteBurst s p r.addr r.data poison
  if readClass r.by_ = 3 then chargeThree s1 p.channel else s1

/-- The rewrite of a corrected burst of a burnish pass: dropped where a write to that burst was queued between the read and the
rewrite (R306). -/
def burnishRewrite (s : State) (r : BurstRead) (c : CopyRead) : State :=
  if r.newer.any fun w => w.addr == r.addr && !(writtenCopies s w).isEmpty then
    setBurnish (count s (cnum 7 17)) fun b => { b with wbDropped := b.wbDropped + 1 }
  else setBurnish (writeBack s r c.place false) fun b => { b with ceBursts := b.ceBursts + 1 }

/-- A correctable error of a burnish pass counts for its row; a row that reaches CE_ROW_THR logs CE_THRESHOLD once
(R306). -/
def burnishRow (s : State) (p : Place) (addr : Nat) : State :=
  match s.mem.burnish, s.mem.cfg with
  | some b, some g =>
    let d := dwOf p
    let n := (assoc b.ceRows d.toNat).getD 0 + 1
    let s1 := setBurnish s fun b => { b with ceRows := (d.toNat, n) :: b.ceRows.filter fun x => x.1 != d.toNat }
    if n = g.ceRowThr then logCullet s1 2 n d addr else s1
  | _, _ => s

/-- A copy that decoded: the corrected burst and the transient counted; a burnish pass rewrites what it corrected. -/
def goodCopy (s : State) (r : BurstRead) (c : CopyRead) (errors : Nat) (retried : Bool) : State :=
  let s1 := if errors = 0 then s else count s (cnum 7 c.place.channel)
  let s2 := if retried then count s1 (cnum 7 12) else s1
  if r.by_ = .burnish ∧ errors ≠ 0 then burnishRewrite (burnishRow s2 (readPlace s c.place) r.addr) r c else s2

/-- A persistent error of one copy: MEM_UE, UE_FOUND, the rank it was read from failing (R301). -/
def badCopy (s : State) (r : BurstRead) (c : CopyRead) : State :=
  let p := readPlace s c.place
  let ev := decide (s.mem.ueRate < 1000)
  let s1 := raiseIf ev { s with mem := { s.mem with ueRate := s.mem.ueRate + 1 } } 0x0701
    (it p.channel ++ it p.rank ++ itq r.addr ++ it r.region)
  rankError (logCullet s1 1 1 (dwOf p) r.addr) p.channel p.rank 1

/-- A burst's address joins a pass's list. -/
def burnishAddr (b : Burnish) (addr : Nat) : List Nat := if b.addrs.contains addr then b.addrs else b.addrs ++ [addr]

/-- A bad copy repaired from the other one (R301). -/
def mirrorFix (s : State) (r : BurstRead) (c : CopyRead) : State :=
  let s1 := writeBack (count (badCopy s r c) (cnum 7 14)) r c.place false
  if r.by_ = .burnish then setBurnish s1 fun b => { b with mirrorFix := b.mirrorFix + 1, addrs := burnishAddr b r.addr } else s1

/-- Bursts of health-map entries join the map's poisoned clusters; a repair formed before no longer covers them. -/
def poisonMap (s : State) (k : Nat) (cl : List Nat) : State :=
  let new := (cl.map fun c => (k, c)).filter fun x => !s.map.poisoned.contains x
  if new.isEmpty then s
  else { s with map := { s.map with poisoned := s.map.poisoned ++ new
                                    poisonFix := s.map.poisonFix.filter fun f => f.1 != k } }

/-- Poison as the store keeps it: the block, the row index or the table burst is poisoned wherever it is read next. -/
def storedPoison (s : State) : BurstUse → State
  | .block page plane layer row col =>
    setPage s (BitVec.ofNat 32 page) fun p =>
      { p with blocks := p.blocks.map fun b =>
                           if b.plane = plane ∧ b.layer = layer ∧ b.row = row ∧ b.col = col then { b with poisoned := true } else b }
  | .rowIndex page plane layer row =>
    setPage s (BitVec.ofNat 32 page) fun p =>
      if p.rowPoison.contains (plane, layer, row) then p else { p with rowPoison := p.rowPoison ++ [(plane, layer, row)] }
  | .table kind index burst line => addPoison s kind index burst line
  | .eventEntry i =>
    { s with obs := { s.obs with log := modAt (fun ev => { ev with poison := true }) s.obs.log i } }
  | .culletEntry i =>
    { s with mem := { s.mem with cullets := modAt (fun c => { c with poison := true }) s.mem.cullets i } }
  | _ => s

/-- The next PRINT record of module-plane (m, q) not yet released: its web line. -/
def nextPrint (s : State) (m q : Nat) : Option Int :=
  (s.slices.recs.find? fun r => r.m == m && r.q == q && r.kind == .print).map (·.n)

/-- What takes the mark where the data is consumed (R303, R304). -/
def consumedPoison (s : State) : BurstUse → State
  | .healthMap m q cl => if servitor s then loseStep s else poisonMap s (mp m q) cl
  | .clusterState m q =>
    let s1 := match nextPrint s m q with | some n => makeLate s m q n | none => s
    requestSeam s1 (mp m q) 63
  | .expectedDefects p n => markFailed s p n
  | .window cam plane pix =>
    let hit := fun (w : Win) => w.cam == cam && w.plane == plane && w.pix == pix
    { s with asy := { s.asy with windows := s.asy.windows.map fun w =>
                                              if hit w then { w with sum := 0, count := 0 } else w } }
  | .censusHistory k => { s with asy := { s.asy with goodRuns := mapSet 0 s.asy.goodRuns k 0 } }
  | .paperWhite cam pix =>
    { s with asy := { s.asy with cams := modAt (fun c => { c with whiteN := mapSet 0 c.whiteN pix 0 }) s.asy.cams cam } }
  | .query op =>
    if s.mem.queryPoison.contains op then s
    else { s with mem := { s.mem with queryPoison := s.mem.queryPoison ++ [op] } }
  | _ => s

/-- A read whose data an engine consumes: no burnish pass's and no migration's (R303). -/
def consumes (r : BurstRead) : Bool := r.by_ == .print || r.by_ == .other

/-- The copy that a read reads first: a migration of second copies reads the second one (R311). -/
def firstCopy (r : BurstRead) : CopyRead :=
  match r.by_, r.copy1 with
  | .copy true, some c => c
  | _, _ => r.copy0

/-- The other copy, where the region is STRONG. -/
def otherCopy (r : BurstRead) : Option CopyRead :=
  match r.by_, r.copy1 with
  | .copy true, some _ => some r.copy0
  | _, c => c

/-- The writes queued for a burst, on the channels of its copies (R295). Later writes have reached both, so in any order the same bytes
win. -/
def queuedFor (s : State) (addr : Nat) : List QueuedWrite := s.mem.writes.filter fun q => q.write.addr == addr

/-- The data of a read: bytes queued for its burst stand over what was read (R295). -/
def readData (s : State) (r : BurstRead) : BitVec 512 :=
  (queuedFor s r.addr).foldl (fun d q => overlay d q.write.mask q.write.data) r.data

/-- A burst given to the engine that asked for it. -/
def deliver (s : State) (r : BurstRead) : State :=
  if consumes r then { s with mem := { s.mem with delivered := some (r.addr, readData s r, false) } } else s

/-- A burst given to its engine takes its mark with it (R303). -/
def deliverPoison (s : State) (r : BurstRead) : State :=
  let s1 := storedPoison s r.use
  if consumes r then
    consumedPoison { s1 with mem := { s1.mem with delivered := s1.mem.delivered.map fun d => (d.1, d.2.1, true) } } r.use
  else s1

/-- A burst written back poisoned in the copies named, and delivered so (R301). -/
def poisonBurst (s : State) (r : BurstRead) (cs : List CopyRead) : State :=
  let s1 := count s (cnum 7 13)
  let s2 := cs.foldl (fun t c => writeBack t r c.place true) s1
  let bad := if s2.mem.poisoned.contains r.addr then s2.mem.poisoned else s2.mem.poisoned ++ [r.addr]
  let s3 := { s2 with mem := { s2.mem with poisoned := bad } }
  let s4 := if r.by_ = .burnish then setBurnish s3 fun b => { b with ueNew := b.ueNew + 1, addrs := burnishAddr b r.addr } else s3
  deliverPoison s4 r

/-- A burst stored poisoned: counted, and the mark travels with the data (R302). -/
def readPoisoned (s : State) (r : BurstRead) : State :=
  let s1 := count s (cnum 7 15)
  let s2 := if r.by_ = .burnish then setBurnish s1 fun b => { b with poisonSeen := b.poisonSeen + 1 } else s1
  deliverPoison s2 r

/-- The other copy, read by a burnish pass after the first decoded (R306: every copy). One whose poison pattern has taken errors is
written back poisoned (R302). -/
def burnishOther (s : State) (r : BurstRead) (code : Nat) (poisoned : Bool) : State :=
  match otherCopy r with
  | none => s
  | some c =>
    if r.by_ ≠ .burnish then s
    else match copyEnd code poisoned c with
      | .good e t => goodCopy s r c e t
      | .bad => if poisoned then writeBack (badCopy s r c) r c.place true else mirrorFix s r c
      | .poison => s

/-- A read of a burst whose first copy fails its retry (R301). -/
def readFailing (s : State) (r : BurstRead) (code : Nat) (poisoned : Bool) : State :=
  let a := firstCopy r
  match otherCopy r with
  | some c =>
    match copyEnd code poisoned c with
    | .good e t => goodCopy (mirrorFix s r a) r c e t
    | .poison => poisonBurst (badCopy s r a) r [a]
    | .bad => poisonBurst (badCopy (badCopy s r a) r c) r [a, c]
  | none => poisonBurst (badCopy s r a) r [a]

/-- A burst is poisoned: a queued write of all its bytes says so, else how it is stored (R302). -/
def burstPoisoned (s : State) (addr : Nat) : Bool :=
  match (queuedFor s addr).find? fun q => wholeBurst q.write.mask with
  | some q => q.poison
  | none => s.mem.poisoned.contains addr

/-- A write of its whole burst waits, and is what a read of it returns (R295). -/
def heldWhole (s : State) (addr : Nat) : Bool := (queuedFor s addr).any fun q => wholeBurst q.write.mask

/-- A read of one burst (R295, R301, R302): a queued write of it all is what it returns, without the DRAM; else the copies are
read, and the writes of `newer`, which came after it, are queued before anything is written back. -/
def readBurst (s : State) (r : BurstRead) (code : Nat) : State :=
  let bad := burstPoisoned s r.addr
  let s1 := r.newer.foldl writeArrives (deliver s r)
  if heldWhole s r.addr then (if bad then readPoisoned s1 r else s1)
  else match copyEnd code bad (firstCopy r) with
    | .poison => burnishOther (readPoisoned s1 r) r code bad
    | .good e t => burnishOther (goodCopy s1 r (firstCopy r) e t) r code bad
    | .bad => readFailing s1 r code bad

/-- The other copy is read too: by a burnish pass, and where the first one fails (R301, R306). -/
def readsOther (s : State) (r : BurstRead) (code : Nat) : Bool :=
  !heldWhole s r.addr && (r.by_ == .burnish || copyEnd code (burstPoisoned s r.addr) (firstCopy r) == .bad)

/-- A read's region holds its burst, and its copies stand where the address map has them (R292, R298, R299). -/
def readStands (s : State) (r : BurstRead) : Bool :=
  match regionAt s r.region with
  | none => false
  | some g =>
    decide (regionBase s r.region ≤ r.addr ∧ r.addr < regionBase s r.region + 2 ^ 28 * g.size ∧ r.addr % 64 = 0) &&
    mayStand s r.addr 0 r.copy0.place &&
    match r.copy1 with
    | some c => g.code == 3 && mayStand s r.addr 1 c.place
    | none => g.code != 3

/-- The places of a read's copies kept. -/
def keepPlaces (s : State) (r : BurstRead) : State :=
  let s1 := keepPlace s r.addr 0 r.copy0.place
  match r.copy1 with
  | some c => keepPlace s1 r.addr 1 c.place
  | none => s1

/-! Retirement (R315). -/

/-- A burst of the row that a retirement copies: read as any other, and written to the reserve row with its mark (R311, R315). -/
def retireBurst (d place : Dword) (s : State) (r : BurstRead) : State :=
  match regionAt s r.region with
  | none => s
  | some g =>
    if readStands s r && dwOf (firstCopy r).place == d then
      let t := readBurst (keepPlaces s r) r g.code
      emit t (.dramWrite (placeOf place) r.addr (BitVec.allOnes 64) (readData t r) (burstPoisoned t r.addr))
    else s

/-- MEM_RETIRE (R315): the row is copied to a reserve row of its rank, and every later access to the row goes there (`remapped`);
poison marks stand by system address. DESIGN CHOICE (log 191): the bursts of the row that do not read clean come with the command,
and the copy is made in its one step. -/
def execMemRetire (turn : RetireTurn) (s : State) : Host.Outcome State Fault Refusal :=
  let e := turn.entry
  .next (command [0x0406] e (fun _ s =>
    let d := pw e 0
    let ch := fld d 28 4
    let rank := fld d 26 2
    match s.mem.cfg, rankAt s ch rank with
    | some c, some x =>
      let full := decide (4096 ≤ (remapsOn s ch).length)
      checked s [(!rsvOk e [0xFFFFFFF0] || !retirable s c d, stFormat),
                 (x.state == .migratingFrom || x.state == .migratingTo, stBusy), (full, stRetireFull)] fun s =>
        match freeReserve s c ch rank with
        | none => reject s stRetireFull
        | some r =>
          let s1 := turn.row.foldl (retireBurst d r) s
          let s2 := { s1 with mem := { s1.mem with remap := s1.mem.remap ++ [(d, r.toNat)] } }
          okWith (logCullet s2 3 1 d noAddr) [r]
    | _, _ => reject s stFormat) s)

/-! The read queue (R294). -/

/-- Transfers per second by SPEED, in millions (R293). -/
def megaTransfers : Nat → Nat
  | 0 => 4800 | 1 => 5600 | 2 => 6400 | _ => 7200

/-- A channel's class 3 share in per cent of its peak: the pass's RATE, at most 4, and 8 for a migration, so never above 12 (R306, R311,
R313). -/
def classThreeShare (s : State) (ch : Nat) : Nat :=
  (match s.mem.burnish with | some b => b.rate | none => 0) + (if (assoc s.mem.copies ch).isSome then 8 else 0)

/-- Class 3 has had less than its share of a channel in the last 100 µs (R294): the peak moves 4 bytes a transfer, 6.25 bursts
in 100 µs for each million transfers per second. -/
def classThreeBehind (s : State) (c : MemCfg) (ch : Nat) : Bool :=
  let had := (s.mem.served.filter fun x => x.1 == ch && decide (s.time.clk < x.2 + 40000)).length
  decide (16 * had < megaTransfers c.speed * classThreeShare s ch)

/-- A waiting read may be served next (R294): the oldest of its class in its bank; no class above its own waits, but class 3
goes first while it is behind its share; none while its channel has WM_HIGH writes queued and drains them (R295). DESIGN CHOICE
(log 157): how the share is made up within the 100 µs. -/
def mayServe (s : State) (c : MemCfg) (q : MemReq) : Bool :=
  let on := s.mem.reads.filter fun x => x.place.channel == q.place.channel
  let k := readClass q.by_
  let third := classThreeBehind s c q.place.channel && on.any fun x => readClass x.by_ == 3
  let like := fun (x : MemReq) => readClass x.by_ == k && x.place.rank == q.place.rank && bankOf x.place == bankOf q.place
  (if third then decide (k = 3) else !(on.any fun x => decide (readClass x.by_ < k))) &&
  on.find? like == some q && decide ((queuedOn s q.place.channel).length < c.wmHigh)

/-- A read leaves the queue served: class 3 is charged for it, and refreshes that waited for it are issued (R294, R296). -/
def serveRead (s : State) (q : MemReq) : State :=
  let s1 := if readClass q.by_ = 3 then chargeThree s q.place.channel else s
  issueOwed { s1 with mem := { s1.mem with reads := s1.mem.reads.erase q } } q.place.channel

/-! Reads of a burnish pass and of a migration in their order (R306, R311). -/

/-- The first system address of a pass's range. -/
def burnishStart (s : State) (b : Burnish) : Nat := regionBase s b.region + 4096 * b.first

/-- A read is one a pass may still make: of its range, not below the bursts it has read; once BURNISH_STOP has committed, not past the
next memory page boundary (R307). -/
def burnishReads (s : State) (r : BurstRead) : Bool :=
  match s.mem.burnish with
  | none => false
  | some b =>
    let top := if b.stopping then (b.next + 4095) / 4096 * 4096 else 4096 * b.pages
    b.region == r.region && decide (burnishStart s b + b.next ≤ r.addr ∧ r.addr < burnishStart s b + top)

/-- The pass has read up to and with a burst. DESIGN CHOICE (log 158): reads that find nothing need no command, so those below
it have been made. -/
def burnishTo (s : State) (addr : Nat) : State :=
  setBurnish s fun b =>
    let n := addr + 64 - burnishStart s b
    { b with next := n, pagesDone := n / 4096 }

/-- A read is one a migration may still make: of the failing rank, no row below those copied. -/
def migrationReads (s : State) (r : BurstRead) : Bool :=
  let p := remapped s (firstCopy r).place
  match migration s p with
  | some (_, n) => decide (n ≤ rowNumber s p)
  | none => false

/-- A burst that a migration has read goes to the same row of the spare with its mark, traffic of class 3 as the read (R294, R311). -/
def copyToSpare (s : State) (r : BurstRead) : State :=
  let p := remapped s (firstCopy r).place
  match migration s p with
  | some (sp, _) =>
    emit (chargeThree s p.channel)
      (.dramWrite { p with rank := sp.rank } r.addr (BitVec.allOnes 64) (readData s r) (burstPoisoned s r.addr))
  | none => s

/-- The migration has copied the rows below a place's, and its row with its last burst (R311; log 158). -/
def copiedTo (s : State) (p : Place) (addr : Nat) : State :=
  let n := rowNumber s p + (if addr % 4096 = 4032 then 1 else 0)
  { s with mem := { s.mem with copies := s.mem.copies.map fun x => if x.1 = p.channel then (x.1, n) else x } }

/-- A read belongs to what its reader does now. -/
def readDue (s : State) (r : BurstRead) : Bool :=
  match r.by_ with
  | .print => true
  | .other => true
  | .burnish => burnishReads s r
  | .copy _ => migrationReads s r

/-- How far a burnish pass or a migration has come with a read. -/
def readProgress (s : State) (r : BurstRead) : State :=
  match r.by_ with
  | .print => s
  | .other => s
  | .burnish => burnishTo s r.addr
  | .copy _ => copiedTo (copyToSpare s r) (remapped s (firstCopy r).place) r.addr

/-- The requests a read makes: each copy's on its own channel (R294, R298). DESIGN CHOICE (log 192): the second copy's request comes
with the first's. -/
def requestsOf (s : State) (r : BurstRead) (code : Nat) : List MemReq :=
  let req := fun (c : CopyRead) => ({ place := c.place, addr := r.addr, by_ := r.by_ } : MemReq)
  req (firstCopy r) :: if readsOther s r code then ((otherCopy r).map req).toList else []

/-- A request waits, if it does not wait already. -/
def requestArrives (s : State) (q : MemReq) : State := if s.mem.reads.contains q then s else readArrives s q

/-- MEM_READ (R294, R301): the reads that came before this one join the queue; it returns when every copy it reads is the next to be
served on its channel, and waits otherwise. -/
def execMemRead (turn : ReadTurn) (s : State) : Host.Outcome State Fault Refusal :=
  let r := turn.read
  match s.mem.cfg, regionAt s r.region with
  | some c, some g =>
    if !(readStands s r && readDue s r) then .next s
    else
      let qs := requestsOf s r g.code
      let s1 := qs.foldl requestArrives (turn.arrived.foldl readArrives (keepPlaces s r))
      if qs.all (mayServe s1 c) then .next (readProgress (readBurst (qs.foldl serveRead s1) r g.code) r) else .next s1
  | _, _ => .next s

/-! Burnish (R306 to R309). -/

/-- BURNISH_RUN (R306, R404): FORMAT, BUSY; it completes when the pass ends. -/
def execBurnishRun (e : Entry) (s : State) : Host.Outcome State Fault Refusal :=
  .next (command [0x0403] e (fun _ s =>
    let j := fld (pw e 0) 28 4
    let rate := fld (pw e 0) 0 3
    let size := match regionAt s j with | some g => 65536 * g.size | none => 0
    let ok := rsvOk e [0xF0000007, 0xFFFF, allBits, allBits, allBits, allBits, allBits, allBits] &&
      decide (1 ≤ rate ∧ rate ≤ 4 ∧ 1 ≤ pq e 4 ∧ pq e 2 + pq e 4 ≤ size ∧ pq e 6 % 64 = 0)
    checked s [(!ok, stFormat), (s.mem.burnish.isSome, stBusy)] fun s =>
      let b : Burnish := { region := j, first := pq e 2, pages := pq e 4, rate := rate, maxAddr := fld (pw e 1) 0 16
                           summary := pq e 6, next := 0, pagesDone := 0, ceBursts := 0, ueNew := 0, poisonSeen := 0, mirrorFix := 0
                           wbDropped := 0, ceRows := [], addrs := [], stopping := false, entry := e }
      .runs { s with mem := { s.mem with burnish := some b } } []) s)

/-- BURNISH_STOP (R307). -/
def execBurnishStop (e : Entry) (s : State) : Host.Outcome State Fault Refusal :=
  .next (command [0x0404] e (fun _ s =>
    checked s [(!rsvOk e [], stFormat), (s.mem.burnish.isNone, stAlreadyDone)] fun s =>
      okWith (setBurnish s fun b => { b with stopping := true }) []) s)

/-- The summary of R309. -/
def burnishSummary (s : State) (b : Burnish) : List Dword :=
  let thr := match s.mem.cfg with | some c => c.ceRowThr | none => 1
  let rows := (b.ceRows.filter fun x => decide (thr ≤ x.2)).length
  let addrs := (b.addrs.insertionSort (· ≤ ·)).take b.maxAddr
  it b.pagesDone ++ it b.ceBursts ++ it b.ueNew ++ it b.poisonSeen ++ it b.mirrorFix ++ it b.wbDropped ++ it rows ++
    it addrs.length ++ List.replicate 8 0 ++ addrs.flatMap dwordsOf

/-- BURNISH_DONE (R307, R309): the whole range read, or the page boundary after a stop; the bursts left up to there showed nothing
(log 158). -/
def execBurnishDone (s : State) : Host.Outcome State Fault Refusal :=
  match s.mem.burnish with
  | none => .next s
  | some b0 =>
    let b := if b0.stopping then { b0 with pagesDone := (b0.next + 4095) / 4096 } else { b0 with pagesDone := b0.pages }
    let s1 := hostPutDws { s with mem := { s.mem with burnish := none } } b.summary (burnishSummary s b)
    .next (finishOp s1 0x0403 (if b.stopping then stStopped else stOk) (it b.pagesDone))

/-! Firmware poison and status (R305, R317). -/

/-- Every command in flight completes with a status. -/
def finishAll (s : State) (st : Nat) : State := s.mbx.inFlight.foldl (fun t r => finish t r st []) s

/-- FW_RELOAD (R305): a poisoned fetch of Finbuly code or data. -/
def execFwReload (addr : Nat) (s : State) : Host.Outcome State Fault Refusal :=
  if !bootRunning s then .next s
  else
    let partnered := s.par.enabled && s.par.linkRun && s.par.partnerRole == 2
    let s1 := if partnered then s else sendCease s 2
    let s2 := raise (finishAll s1 stFwFault) 0x0707 (itq (addr / 64 * 64 : Nat))
    .next (bootReload s2)

/-- Rank state codes of MEM_STATUS: in the order R317 names them. -/
def rankCode : RankState → Nat
  | .inService => 0 | .spare => 1 | .migratingFrom => 2 | .migratingTo => 3 | .retired => 4

/-- MEM_STATUS's dwords: the population, C_sys, the region table, remap entries used, burnish progress, then 48 dwords, one
per channel and rank: its state in [2:0], its refresh interval in ns in [31:16]; all ones where not populated. -/
def memStatusDws (s : State) : List Dword :=
  let pop := match s.mem.cfg with
    | some c => it (c.speed * 2 ^ 22 + c.chPairs * 2 ^ 19 + c.density * 2 ^ 17 + (c.ranks - 1) * 2 ^ 15 +
        (if c.spareEn then 2 ^ 14 else 0) : Nat) ++ it (cSysUnits c)
    | none => it 0 ++ it 0
  let regs := (List.range 16).map fun j => match s.mem.regions[j]? with
    | some g => BitVec.ofNat 32 (g.kind * 2 ^ 28 + g.code * 2 ^ 26 + g.size)
    | none => 0
  let prog := match s.mem.burnish with | some b => 2 ^ 31 + b.pagesDone | none => 0
  let ranks := (List.range 48).map fun i => match rankAt s (i / 4) (i % 4) with
    | some x => BitVec.ofNat 32 ((if x.fast then 975 else 1950) * 2 ^ 16 + rankCode x.state)
    | none => BitVec.ofNat 32 allBits
  pop ++ regs ++ it s.mem.remap.length ++ it prog ++ ranks

/-- MEM_STATUS (R317). -/
def execMemStatus (e : Entry) (s : State) : Host.Outcome State Fault Refusal :=
  .next (command [0x0408] e (fun _ s =>
    checked s [(!rsvOk e [0, 0, allBits, allBits] || pq e 2 % 64 != 0, stFormat)] fun s =>
      okWith (hostPutDws s (pq e 2) (memStatusDws s)) []) s)

end Sys2Proof.Machine
end

