-- ==== Sys2Proof/Machine/Trajectory.lean ====
section
/-! DEFINITION. The trajectory generator's paths: trapezoids, S-curves, stops and retargets as stretches of constant jerk
(R327 to R331), and the cubic Hermite curves of segment tables (R332 to R334). Lengths in 1/2⁶⁴ planning step, positions and their
derivatives in 1/2⁶⁴ of a step, step/s, step/s² and step/s³. -/

namespace Sys2Proof.Machine

/-- 2⁶⁴: the scale of a path's figures. -/
abbrev pathScale : Nat := 2 ^ 64

/-- Units of a path's length in one second. -/
abbrev perSecond : Nat := 100000 * 2 ^ 64

/-- One planning step of 10 µs. -/
abbrev planStepLen : Nat := 2 ^ 64

/-- Position, velocity and acceleration along a path. -/
structure Kin where
  p : Int
  v : Int
  a : Int
deriving DecidableEq, Repr

/-- The state a time `t` into a stretch. -/
def segAt (g : Seg) (t : Nat) : Kin :=
  let q : Int := perSecond
  let x : Int := t
  { p := g.pos + (6 * g.vel * x * q * q + 3 * g.acc * x * x * q + g.jerk * x * x * x) / (6 * q * q * q)
    v := g.vel + (2 * g.acc * x * q + g.jerk * x * x) / (2 * q * q)
    a := g.acc + g.jerk * x / q }

/-- A stretch yet to be placed: its length, first acceleration and jerk; the velocity it begins with where the path plans one
exactly, else the velocity before it. -/
structure Leg where
  dur : Nat
  acc : Int
  jerk : Int
  vel : Option Int
deriving DecidableEq, Repr

/-- A stretch that goes on from the velocity before it. -/
def leg (d : Nat) (a j : Int) : Leg := { dur := d, acc := a, jerk := j, vel := none }

/-- A stretch at one exact velocity. -/
def cruise (d : Nat) (v : Int) : Leg := { dur := d, acc := 0, jerk := 0, vel := some v }

/-- A leg placed at a position, after a velocity. -/
def Leg.seg (l : Leg) (p v : Int) : Seg := { dur := l.dur, pos := p, vel := l.vel.getD v, acc := l.acc, jerk := l.jerk }

/-- Stretches one after the other from a position and velocity. -/
def placeLegs (p v : Int) : List Leg → List Seg
  | [] => []
  | l :: rest =>
    let g := l.seg p v
    let e := segAt g l.dur
    g :: placeLegs e.p e.v rest

/-- The position and velocity at the end of legs. -/
def endOf (p v : Int) : List Leg → Int × Int
  | [] => (p, v)
  | l :: rest =>
    let e := segAt (l.seg p v) l.dur
    endOf e.p e.v rest

/-- The distance legs cover from velocity `v`. -/
def distOf (v : Int) (ls : List Leg) : Int := (endOf 0 v ls).1

/-- The state a time into a path; none past its end. -/
def pathAt : List Seg → Nat → Option Kin
  | [], _ => none
  | g :: rest, t => if t < g.dur then some (segAt g t) else pathAt rest (t - g.dur)

/-- The square root of a non-negative integer, rounded down. -/
def isqrt (v : Int) : Int := (Nat.sqrt v.toNat : Nat)

/-- A length from a quotient of figures in one scale: seconds to path units. -/
def lenOf (num den : Int) : Nat := if den ≤ 0 then 0 else (num * (perSecond : Int) / den).toNat

/-- A leg mirrored. -/
def mirrorLegs (neg : Bool) (ls : List Leg) : List Leg :=
  if neg then ls.map fun l => { dur := l.dur, acc := -l.acc, jerk := -l.jerk, vel := l.vel.map fun v => -v } else ls

/-- Velocity from `v0` up to `v1` with acceleration ending at 0, from acceleration `a0`, within `amax` at jerk `j`. -/
def riseLegs (v0 a0 v1 amax j : Int) : List Leg :=
  let peak := isqrt (j * (v1 - v0) + a0 * a0 / 2)
  if peak ≤ amax ∧ a0 ≤ peak then [leg (lenOf (peak - a0) j) a0 j, leg (lenOf peak j) peak (-j)]
  else
    let up := decide (a0 ≤ amax)
    let t1 := lenOf (if up then amax - a0 else a0 - amax) j
    let d1 := (if up then amax * amax - a0 * a0 else a0 * a0 - amax * amax) / (2 * (if j ≤ 0 then 1 else j))
    let d3 := amax * amax / (2 * (if j ≤ 0 then 1 else j))
    [leg t1 a0 (if up then j else -j), leg (lenOf (v1 - v0 - d1 - d3) amax) amax 0, leg (lenOf amax j) amax (-j)]

/-- A change of velocity from `v0` (acceleration `a0`) to `v1` at rest of acceleration: at constant acceleration `lim` without a
jerk limit, else within `lim` at jerk `j` (R327). -/
def changeLegs (v0 a0 v1 lim : Int) (j : Option Int) : List Leg :=
  match j with
  | none => if v0 = v1 ∨ lim ≤ 0 then [] else [leg (lenOf (v1 - v0).natAbs lim) (if v0 < v1 then lim else -lim) 0]
  | some jk =>
    if jk ≤ 0 ∨ lim ≤ 0 then []
    else
      let settle := v0 + a0 * (a0.natAbs : Int) / (2 * jk)
      if settle = v1 then (if a0 = 0 then [] else [leg (lenOf (a0.natAbs : Nat) jk) a0 (if 0 < a0 then -jk else jk)])
      else if settle < v1 then riseLegs v0 a0 v1 lim jk
      else mirrorLegs true (riseLegs (-v0) (-a0) (-v1) lim jk)

/-- The largest value below `hi` above `lo` for which `ok` holds, by halving. -/
def halve (ok : Int → Bool) : Nat → Int → Int → Int
  | 0, lo, _ => lo
  | n + 1, lo, hi =>
    if hi ≤ lo + 1 then lo
    else
      let mid := (lo + hi) / 2
      if ok mid then halve ok n mid hi else halve ok n lo mid

/-- The limits of a move, scaled; `j` only for an S-curve. -/
structure Limits where
  v : Int
  a : Int
  d : Int
  j : Option Int
deriving DecidableEq, Repr

/-- A trapezoid over the distance `d` ahead from velocity `v0`: to the peak the distance allows, cruise, and rest. -/
def trapezoidLegs (v0 d : Int) (m : Limits) : List Leg :=
  let s : Int := pathScale
  let a := m.a / s
  let b := m.d / s
  let peak := isqrt ((2 * a * b * d * s + b * v0 * v0) / (if a + b ≤ 0 then 1 else a + b))
  if peak ≤ m.v then changeLegs v0 0 peak m.a none ++ changeLegs peak 0 0 m.d none
  else
    let up := changeLegs v0 0 m.v m.a none
    let down := changeLegs m.v 0 0 m.d none
    let rest := d - distOf v0 up - distOf m.v down
    up ++ [cruise (lenOf rest m.v) m.v] ++ down

/-- An S-curve over the distance `d` ahead from velocity `v0` and acceleration `a0`: the peak velocity whose path covers it,
cruise at VMAX, or, slowing already, as long a spell of rising acceleration as the distance allows. -/
def sCurveLegs (v0 a0 d : Int) (m : Limits) (j : Int) : List Leg :=
  let via := fun (vp : Int) => changeLegs v0 a0 vp m.a (some j) ++ changeLegs vp 0 0 m.d (some j)
  let top := via m.v
  if distOf v0 top ≤ d then
    changeLegs v0 a0 m.v m.a (some j) ++ [cruise (lenOf (d - distOf v0 top) m.v) m.v] ++ changeLegs m.v 0 0 m.d (some j)
  else
    let base := max 0 (v0 + a0 * (a0.natAbs : Int) / (2 * (if j ≤ 0 then 1 else j)))
    if a0 < 0 ∧ d < distOf v0 (via base) then
      let ease := fun (u : Int) =>
        let e := segAt { dur := u.toNat, pos := 0, vel := v0, acc := a0, jerk := j } u.toNat
        leg u.toNat a0 j :: changeLegs e.v e.a 0 m.d (some j)
      ease (halve (fun u => decide (distOf v0 (ease u) ≤ d)) 160 0 (lenOf (-a0) j : Nat))
    else via (halve (fun vp => decide (distOf v0 (via vp) ≤ d)) 128 base m.v)

/-- From `k` to rest at the target ahead or at it, whose stopping distance is not passed (R327). -/
def reachLegs (k : Kin) (target : Int) (m : Limits) : List Leg :=
  let neg := decide (target < k.p) || (decide (target = k.p) && decide (k.v < 0))
  let s : Int := if neg then -1 else 1
  let d := s * (target - k.p)
  if d = 0 ∧ k.v = 0 ∧ k.a = 0 then []
  else mirrorLegs neg (match m.j with
    | none => trapezoidLegs (s * k.v) d m
    | some j => sCurveLegs (s * k.v) (s * k.a) d m j)

/-- Slowing to rest at a deceleration, with a jerk limit for an S-curve (R329). -/
def stopLegs (k : Kin) (dec : Int) (j : Option Int) : List Leg := changeLegs k.v k.a 0 dec j

/-- What a retarget reports (R328): a raised deceleration, or the distance passed, scaled. -/
inductive Retarget where
  | plain
  | raised (dec : Int)
  | overshoot (dist : Int)
deriving DecidableEq, Repr

/-- The state at the end of legs from `k`, at rest of acceleration. -/
def after (k : Kin) (ls : List Leg) : Kin := { p := (endOf k.p k.v ls).1, v := (endOf k.p k.v ls).2, a := 0 }

/-- A state seen from the direction of its motion. -/
def forward (s : Int) (k : Kin) : Kin := { p := s * k.p, v := s * k.v, a := s * k.a }

/-- 2⁻³² of a step, step/s or step/s²: a path's figure this near a whole one is that one; what its stretches round off is far less.
DESIGN CHOICE (log 196). -/
def nearWhole : Int := 2 ^ 32

/-- The least deceleration, scaled, that stops `v` over `d` (R328): constant, or for an S-curve the least peak at J_HARD. -/
def neededDecel (k : Kin) (s d aHard : Int) (jHard : Option Int) : Int :=
  match jHard with
  | none => (k.v * k.v + 2 * d - 1) / (2 * d)
  | some j =>
    let f := forward s k
    let fits := fun (x : Int) => decide (distOf f.v (stopLegs f x (some j)) ≤ d + nearWhole)
    halve (fun x => !fits x) 128 0 (aHard + 1) + 1

/-- The retarget of R328 from a moving state, the cases in its order; `slowed` once the speed is within VMAX. -/
def retargetLegs (k : Kin) (target : Int) (m : Limits) (aHard : Int) (jHard : Option Int) : List Leg × Retarget :=
  if k.v = 0 ∧ k.a = 0 then (reachLegs k target m, .plain)
  else
    let s : Int := if k.v < 0 ∨ (k.v = 0 ∧ k.a < 0) then -1 else 1
    let stopDist := fun (x : Kin) (dec : Int) (j : Option Int) => distOf (forward s x).v (stopLegs (forward s x) dec j)
    let behind := fun (x : Kin) => decide (s * (target - x.p) ≤ 0)
    let reverse := fun (x : Kin) =>
      let stop := stopLegs x m.d m.j
      stop ++ reachLegs { after x stop with v := 0 } target m
    if behind k then (reverse k, .plain)
    else
      let slow := if m.v < s * k.v then changeLegs k.v k.a (s * m.v) m.d m.j else []
      let x := if slow.isEmpty then k else { after k slow with v := s * m.v }
      if behind x then (slow ++ reverse x, .plain)
      else
        let d := s * (target - x.p)
        if stopDist x m.d m.j ≤ d + nearWhole then (slow ++ reachLegs x target m, .plain)
        else
          let need := neededDecel x s d aHard jHard
          if need ≤ aHard + nearWhole then (slow ++ stopLegs x need jHard, .raised need)
          else
            let stop := stopLegs x aHard jHard
            let y := { after x stop with v := 0 }
            (slow ++ stop ++ reachLegs y target m, .overshoot (stopDist x aHard jHard - d))

/-! Segment tables (R332 to R334). A place in a segment is `n` of its `m` parts. -/

/-- The Hermite position between two knots, in 1/65,536 step. -/
def hermitePos (a b : Knot) (n m : Int) : Int :=
  let h : Int := b.dt
  let num := (b.pos - a.pos) * 100000 * (3 * n * n * m - 2 * n * n * n) + a.vel * h * 256 * (n * n * n - 2 * n * n * m + n * m * m)
    + b.vel * h * 256 * (n * n * n - n * n * m)
  a.pos + num / (100000 * m * m * m)

/-- The curve's velocity there, in 1/65,536 step/s. -/
def hermiteVel (a b : Knot) (n m : Int) : Int :=
  let h : Int := b.dt
  ((b.pos - a.pos) * 100000 * (6 * n * m - 6 * n * n) + a.vel * 256 * h * (3 * n * n - 4 * n * m + m * m)
    + b.vel * 256 * h * (3 * n * n - 2 * n * m)) / (h * m * m)

/-- Table time of a whole table, in 1/4,096 planning step. -/
def tableLen (ks : List Knot) : Nat := 4096 * (ks.map (·.dt)).sum

/-- Position and velocity at a table time. -/
def tableAt : List Knot → Nat → Int × Int
  | a :: b :: rest, t =>
    if t < 4096 * b.dt then (hermitePos a b t (4096 * b.dt), hermiteVel a b t (4096 * b.dt))
    else tableAt (b :: rest) (t - 4096 * b.dt)
  | [a], _ => (a.pos, 0)
  | [], _ => (0, 0)

/-- The places in a segment at which the cubic may be extreme, in 1/2³² of it (R333). -/
def turnPlaces (a b : Knot) : List Int :=
  let h : Int := b.dt
  let dp := (b.pos - a.pos) * 100000
  let u := a.vel * 256 * h
  let w := b.vel * 256 * h
  let c3 := u + w - 2 * dp
  let c2 := 3 * dp - 2 * u - w
  let disc := c2 * c2 - 3 * c3 * u
  let s : Int := pathScale
  if c3 = 0 then (if c2 = 0 then [] else [-u * s / (2 * c2)])
  else if disc < 0 then []
  else [(-c2 + isqrt disc) * s / (3 * c3), (-c2 - isqrt disc) * s / (3 * c3)]

/-- The extreme positions of a table relative to its origin (R333). -/
def tableExtremes : List Knot → Int × Int
  | a :: b :: rest =>
    let places := (turnPlaces a b).filter fun x => decide (0 < x ∧ x < (pathScale : Int))
    let ps := places.map fun x => hermitePos a b x pathScale
    let (lo, hi) := tableExtremes (b :: rest)
    ((a.pos :: ps).foldl min lo, (a.pos :: ps).foldl max hi)
  | [a] => (a.pos, a.pos)
  | [] => (0, 0)

/-- v_tab: the largest knot velocity magnitude, in 1/256 step/s (R333). -/
def tableSpeed (ks : List Knot) : Nat := (ks.map fun k => k.vel.natAbs).foldl max 0

end Sys2Proof.Machine
end

