-- ==== Sys2Proof/Machine/Motion.lean ====
section
/-! DEFINITION. The axes: configuration, moves, stops, limits, homing, segment tables, coil current and stalls, and the
planning step that drives them (R320 to R342, R355, R358 to R360, R404). -/

namespace Sys2Proof.Machine

/-! Axes, pairs and limits. -/

/-- The axis of a command: P0 [31:29]. -/
def axisOf (e : Entry) : Nat := fld (pw e 0) 29 3

/-- The followers of axis `i` (R324). -/
def followersOf (s : State) (i : Nat) : List Nat :=
  (List.range 8).filter fun k => (axisAt s k).cfg.enable && (axisAt s k).cfg.follow && (axisAt s k).cfg.leader == i

/-- The axes that stop together with axis `i`: itself, its leader and the followers (R324). -/
def linkGroup (s : State) (i : Nat) : List Nat :=
  let a := axisAt s i
  let lead := if a.cfg.enable && a.cfg.follow then a.cfg.leader else i
  lead :: followersOf s lead

/-- The signed way from one commanded position to another, modulo 2⁴⁸ steps (R321). -/
def wayTo (frm dest : Int) : Int := wrapS 64 (dest - frm)

/-- A limit input has been active for 4 consecutive samples (R331): LIMP for travel up, LIMN for travel down. -/
def limitActive (a : Axis) (up : Bool) : Bool := decide (4 ≤ a.runs.getD (if up then 1 else 0) 0)

/-- Virtual limits are enforced: VLIM_EN and HOMED (R330). -/
def limitsOn (a : Axis) : Bool := a.vlimEn && a.homed

/-- A commanded position lies within the virtual limits. -/
def withinLimits (a : Axis) (p : Int) : Bool := decide (a.limLo * 65536 ≤ p ∧ p ≤ a.limHi * 65536)

/-- A travel of the leader from `lo` to `hi` about its position leaves the virtual limits of the leader or of a follower
(R324, R330). -/
def travelOutside (s : State) (i : Nat) (lo hi : Int) : Bool :=
  let out := fun (a : Axis) (l h : Int) => limitsOn a && !(withinLimits a (a.pos + l) && withinLimits a (a.pos + h))
  out (axisAt s i) lo hi ||
  (followersOf s i).any fun k =>
    let f := axisAt s k
    if f.cfg.followInv then out f (-hi) (-lo) else out f lo hi

/-- A travel of the leader toward an active limit input of its own or of a follower (R331). -/
def towardLimit (s : State) (i : Nat) (up down : Bool) : Bool :=
  let hit := fun (a : Axis) (u d : Bool) => (u && limitActive a true) || (d && limitActive a false)
  hit (axisAt s i) up down ||
  (followersOf s i).any fun k =>
    let f := axisAt s k
    if f.cfg.followInv then hit f down up else hit f up down

/-- The jerk limit of a stop: J_HARD for an S-curve, none for a trapezoid, scaled (R329). -/
def jHardOf (a : Axis) : Option Int := if a.sCurve then some (a.cfg.jHard * 1024 * pathScale) else none

/-- A_HARD, scaled. -/
def aHardOf (a : Axis) : Int := a.cfg.aHard * pathScale

/-- The kinematic state of an axis, scaled. -/
def kinOf (a : Axis) : Kin := { p := a.pos * stepScale, v := a.vel * stepScale, a := a.acc * stepScale }

/-- The limits in force of an axis, scaled. -/
def limitsOf (a : Axis) : Limits :=
  { v := a.vmax * pathScale, a := a.amax * pathScale, d := a.dmax * pathScale
    j := if a.sCurve then some (a.jmax * 1024 * pathScale) else none }

/-! AXIS_CONFIG, AXIS_LIMITS, AXIS_STATUS (R322, R330, R358). -/

/-- The configuration of an AXIS_CONFIG entry (R322). -/
def readAxisCfg (e : Entry) : AxisCfg :=
  { enable := bitOf (pw e 0) 28, dirInv := bitOf (pw e 0) 27, fbCh := fld (pw e 0) 23 4, leader := fld (pw e 0) 20 3
    follow := bitOf (pw e 0) 19, followInv := bitOf (pw e 0) 18, curEn := bitOf (pw e 0) 17, curDev := fld (pw e 0) 12 5
    dirSetup := fld (pw e 0) 0 8, vHard := (pw e 1).toNat, aHard := (pw e 2).toNat, jHard := (pw e 3).toNat
    fbRatio := signed 32 (pw e 4).toNat, feStart := fld (pw e 5) 16 16, feFull := fld (pw e 5) 0 16
    runI := fld (pw e 6) 16 16, boostI := fld (pw e 6) 0 16, holdI := fld (pw e 7) 16 16, holdDelay := fld (pw e 7) 8 8
    stallT := fld (pw e 7) 0 8 }

/-- The fields are in range, the RSV fields 0, the pair well formed (R322). -/
def axisCfgOk (s : State) (e : Entry) : Bool :=
  let i := axisOf e
  let c := readAxisCfg e
  let all := allBits
  rsvOk e [0xFFFFF0FF, all, all, all, all, all, all, all] &&
  decide (((2 ≤ c.fbCh ∧ c.fbCh ≤ 11) ∨ c.fbCh = 15) ∧ 2 ≤ c.dirSetup ∧ 1 ≤ c.vHard ∧ c.vHard ≤ 5000000 ∧ 1 ≤ c.aHard ∧
    1 ≤ c.jHard ∧ (c.fbCh ≠ 15 → c.fbRatio ≠ 0) ∧ 1 ≤ c.feStart ∧ c.feStart ≤ 65534 ∧ c.feStart < c.feFull ∧
    c.runI ≤ c.boostI ∧ 1 ≤ c.stallT) &&
  (!(c.enable && c.follow) || (c.leader != i && (followersOf s i).isEmpty &&
    !((axisAt s c.leader).cfg.enable && (axisAt s c.leader).cfg.follow)))

/-- The axis as AXIS_CONFIG leaves it: feedback starts at the commanded position (R322, R323, R325). -/
def configured (a : Axis) (c : AxisCfg) : Axis :=
  { a with cfg := c, vel := 0, acc := 0, plan := [], planT := 0, newMove := false, stopReq := none, stopping := false
           passed := false, fb := 0, fbOffset := a.pos, restFor := 0, boostFor := 0, curHeld := false, homing := none
           loopVel := none, stepped := a.pos / 65536, lastStep := none
           state := if !c.enable then .disabled else if c.follow then .follower else .idle }

/-- AXIS_CONFIG (R322, R324, R357): BUSY unless DISABLED or IDLE; a follower takes it while both axes are at rest, else LINKED. A
servitor changes only its stored copy, whatever its mirrored axis does. -/
def execAxisConfig (e : Entry) (s : State) : Host.Outcome State Fault Refusal :=
  .next (command [0x0501] e (fun _ s =>
    let i := axisOf e
    let a := axisAt s i
    let linked := a.cfg.enable && a.cfg.follow
    let lead := axisAt s a.cfg.leader
    let own := !servitor s
    checked s [(!axisCfgOk s e, stFormat), (own && linked && !(a.state == .follower && lead.state == .idle), stLinked),
               (own && !linked && a.state != .disabled && a.state != .idle, stBusy)] fun s =>
      okWith (setAxis s i fun x => if own then configured x (readAxisCfg e) else { x with cfg := readAxisCfg e }) []) s)

/-- An axis takes no command of its own while it follows (R324). -/
def isFollower (a : Axis) : Bool := a.cfg.enable && a.cfg.follow

/-- AXIS_LIMITS (R330, R404). -/
def execAxisLimits (e : Entry) (s : State) : Host.Outcome State Fault Refusal :=
  .next (command [0x0504] e (fun _ s =>
    let i := axisOf e
    let a := axisAt s i
    let en := bitOf (pw e 0) 28
    let lo := pqS e 2
    let hi := pqS e 4
    let ok := rsvOk e [0xF0000000, 0, allBits, allBits, allBits, allBits] &&
      decide (-(2 ^ 47 : Int) ≤ lo ∧ lo < hi ∧ hi < (2 ^ 47 : Int))
    checked s [(!ok, stFormat), (isFollower a, stLinked),
               (en && !withinLimits { a with limLo := lo, limHi := hi } a.pos, stOutOfRange)] fun s =>
      okWith (setAxis s i fun x => { x with vlimEn := en, limLo := lo, limHi := hi }) []) s)

/-- The filtered switch levels of an axis: [2] HOME, [1] LIMP, [0] LIMN (R404). -/
def switchLevels (s : State) (i : Nat) : Nat :=
  let a := axisAt s i
  (if bitOf s.pins.axSwitch (3 * i + 2) then 4 else 0) + (if limitActive a true then 2 else 0) +
    (if limitActive a false then 1 else 0)

/-- AXIS_STATUS (R355, R358, R404). -/
def execAxisStatus (e : Entry) (s : State) : Host.Outcome State Fault Refusal :=
  .next (command [0x0509] e (fun _ s =>
    checked s [(!rsvOk e [0xE0000000, 0, allBits, allBits] || pq e 2 % 64 != 0, stFormat)] fun s =>
      okWith (hostPutDws s (pq e 2) (qdws (axisRecord s (axisOf e)) ++ it (switchLevels s (axisOf e)) ++ [0])) []) s)

/-! Moves and stops (R326 to R331). -/

/-- The target of an AXIS_MOVE at its commit point (R326). -/
def moveTarget (e : Entry) (a : Axis) : Int :=
  let t := signed 64 ((pw e 1).toNat + 2 ^ 32 * (pw e 2).toNat)
  if bitOf (pw e 0) 27 then wrapS 64 (a.pos + t) else t

/-- The fields of an AXIS_MOVE (R326). -/
def moveOk (e : Entry) (a : Axis) : Bool :=
  let vm := (pw e 3).toNat
  let am := (pw e 4).toNat
  let dm := (pw e 5).toNat
  let jm := (pw e 6).toNat
  rsvOk e [0xF8000000, allBits, allBits, allBits, allBits, allBits, allBits] &&
  decide (1 ≤ vm ∧ vm ≤ a.cfg.vHard ∧ 1 ≤ am ∧ am ≤ a.cfg.aHard ∧ 1 ≤ dm ∧ dm ≤ a.cfg.aHard ∧ jm ≤ a.cfg.jHard) &&
  (bitOf (pw e 0) 28 == decide (jm ≠ 0))

/-- AXIS_MOVE (R326): accepted from IDLE and MOVING; the next planning step takes it up (R328). -/
def execAxisMove (e : Entry) (s : State) : Host.Outcome State Fault Refusal :=
  .next (command [0x0502] e (fun _ s =>
    let i := axisOf e
    let a := axisAt s i
    let t := moveTarget e a
    let d := wayTo a.pos t
    checked s [(!moveOk e a, stFormat), (isFollower a, stLinked),
               (a.state != .idle && a.state != .moving, stState),
               ((limitsOn a && !withinLimits a t) || travelOutside s i d d, stOutOfRange),
               (towardLimit s i (decide (0 < d)) (decide (d < 0)), stLimit)] fun s =>
      okWith (setAxis s i fun x =>
        { x with state := .moving, target := t, sCurve := bitOf (pw e 0) 28, vmax := (pw e 3).toNat
                 amax := (pw e 4).toNat, dmax := (pw e 5).toNat, jmax := (pw e 6).toNat, newMove := true
                 stopReq := none, stopping := false, limited := false, passed := false }) []) s)

/-- The loop slots that drive an axis: in MANUAL or AUTO with it as the output (R347, R350). -/
def loopsOn (s : State) (i : Nat) : List Nat :=
  (List.range 32).filter fun k =>
    let d := rdw (loopAt s k).desc.dw 0
    bitOf d 11 && fld d 6 5 == i && fld (rdw (loopAt s k).desc.dw 1) 23 9 != 0 &&
      ((loopAt s k).mode == .manual || (loopAt s k).mode == .auto)

/-- An axis is to slow to rest at `dec` steps/s² from the next planning step. -/
def askStop (s : State) (i dec : Nat) : State := setAxis s i fun x => { x with stopReq := some dec, newMove := false }

/-- No move's limits are in force: the axis plays a table, homes, or has been driven by a loop. -/
def noLimits (a : Axis) : Axis := { a with vmax := 0, amax := 0, dmax := 0, jmax := 0 }

/-- The deceleration of an AXIS_STOP: the DMAX in force, or A_HARD where none is (R329). -/
def stopDecel (a : Axis) : Nat := if a.state = .moving ∧ !a.limited ∧ a.dmax ≠ 0 then a.dmax else a.cfg.aHard

/-- The stalled axes of a pair enter IDLE, a follower following again (R329, R342). -/
def unstall (s : State) (i : Nat) : State :=
  (linkGroup s i).foldl (fun t k => setAxis t k fun x =>
    if x.state = .stalled then { x with state := if isFollower x then .follower else .idle } else x) s

/-- AXIS_STOP (R329). -/
def execAxisStop (e : Entry) (s : State) : Host.Outcome State Fault Refusal :=
  .next (command [0x0503] e (fun _ s =>
    let i := axisOf e
    let a := axisAt s i
    checked s [(!rsvOk e [0xE0000000], stFormat), (isFollower a, stLinked), (a.state == .disabled, stState),
               (a.state == .idle, stAlreadyDone)] fun s =>
      if a.state = .stalled then okWith (unstall s i) []
      else okWith ((linkGroup s i).foldl (fun t k =>
        if k = i ∨ (axisAt t k).state = .homing then askStop t k (stopDecel (axisAt t k)) else t) s) []) s)

/-- A path in force, and the target it ends at. -/
def takePath (a : Axis) (ls : List Leg) (target : Int) : Axis :=
  { a with plan := placeLegs (kinOf a).p (kinOf a).v ls, planT := 0, target := target }

/-- The axis slows to rest where it can (R329, R331). -/
def slowDown (a : Axis) (dec : Nat) : Axis :=
  let ls := stopLegs (kinOf a) (dec * pathScale) (jHardOf a)
  let x := takePath a ls (wrapS 64 ((after (kinOf a) ls).p / stepScale))
  { x with stopping := true, passed := false, state := .moving }

/-- The retarget of R328 taken up at a planning step: d_req rounded up, the distance passed down. Where no move's limits are in
force, the axis a servitor has taken over was coming to rest, and does so at A_HARD (R329, R357). -/
def takeMove (s : State) (i : Nat) : State :=
  let a := axisAt s i
  if a.vmax = 0 then setAxis s i fun x => slowDown { x with newMove := false } x.cfg.aHard
  else
    let goal := a.pos + wayTo a.pos a.target
    let (ls, out) := retargetLegs (kinOf a) (goal * stepScale) (limitsOf a) (aHardOf a) (jHardOf a)
    let s1 := setAxis s i fun x => { takePath x ls a.target with newMove := false, stopping := false }
    let s2 := count (setAxis s1 i fun x => { x with stopping := true }) (cnum 8 3)
    let sc : Int := pathScale
    match out with
    | .plain => s1
    | .raised d => raise s2 0x0802 (it i ++ it ((d - nearWhole + sc - 1) / sc))
    | .overshoot d => raise s2 0x0803 (it i ++ it ((d + nearWhole) / sc))

/-- Loop slot `k` enters OFF: its integrator, filter and last output kept (R350). -/
def loopOff (s : State) (k : Nat) : State := setLoop s k fun l => { l with mode := .off, outDue := false, saved := none }

/-- The stop a planning step takes up: a loop that drives the axis enters OFF; homing ends with HOME_ABORTED (R329). -/
def takeStop (s : State) (i dec : Nat) : State :=
  let a := axisAt s i
  let s1 := if a.state = .velocity then (loopsOn s i).foldl loopOff s else s
  let s2 := match a.homing with
    | some h => raise s1 0x0808 (it i ++ it h.phase)
    | none => s1
  setAxis s2 i fun x => slowDown { x with stopReq := none, homing := none, loopVel := none } dec

/-! Segment tables (R332 to R335). -/

/-- The knots of a table's dwords (R332). -/
def readKnots : Nat → List Dword → List Knot
  | 0, _ => []
  | n + 1, d =>
    { dt := (rdw d 0).toNat, vel := signed 32 (rdw d 1).toNat, pos := signed 64 (rq d 2) } :: readKnots n (d.drop 4)

/-- Knots as R332 and R333 want them: knot 0 at 0, the last at rest, DT and speed in range. -/
def knotsOk (ks : List Knot) : Bool :=
  match ks with
  | [] => false
  | k0 :: rest =>
    k0.dt == 0 && k0.pos == 0 && k0.vel == 0 && (ks.getLast?.map (·.vel)) == some 0 &&
    (rest.all fun k => decide (1 ≤ k.dt ∧ k.dt ≤ 1000000)) && decide (tableSpeed ks ≤ 5000000 * 256)

/-- The table of a slot; empty for none. -/
def tableOf (s : State) (slot : Nat) : List Knot := mapGet [] s.mot.tables slot

/-- Knots the other slots hold. -/
def knotsElse (s : State) (slot : Nat) : Nat := ((s.mot.tables.filter fun t => t.1 != slot).map fun t => t.2.length).sum

/-- TABLE_LOAD (R333, R404): a poisoned read empties the slot. -/
def execTableLoad (e : Entry) (s : State) : Host.Outcome State Fault Refusal :=
  .next (command [0x0506] e (fun _ s =>
    let slot := fld (pw e 0) 0 4
    let n := (pw e 1).toNat
    let ok := rsvOk e [0xF, allBits, allBits, allBits] && pq e 2 % 16 == 0 &&
      decide (2 ≤ n ∧ n ≤ 1024 ∧ knotsElse s slot + n ≤ 4096)
    let playing := !servitor s && s.mot.axes.any fun a => a.state == .table && a.tslot == slot
    checked s [(!ok, stFormat), (playing, stSlotInUse)] fun s =>
      match hostReadEnd s (pq e 2) (16 * n) with
      | .failed => reject s stHostReadError
      | .poisoned => reject { s with mot := { s.mot with tables := mapErase s.mot.tables slot } } stPoisoned
      | .ok =>
        let ks := readKnots n (hostDws s (pq e 2) (4 * n))
        checked s [(!knotsOk ks, stFormat)] fun s =>
          okWith { s with mot := { s.mot with tables := mapSet [] s.mot.tables slot ks } }
            (it (4096 - (knotsElse s slot + n) : Nat))) s)

/-- TABLE_RUN (R334). -/
def execTableRun (e : Entry) (s : State) : Host.Outcome State Fault Refusal :=
  .next (command [0x0507] e (fun _ s =>
    let i := axisOf e
    let slot := fld (pw e 0) 0 4
    let a := axisAt s i
    let ks := tableOf s slot
    let (lo, hi) := tableExtremes ks
    checked s [(!rsvOk e [0xE000000F, 0xFFFF], stFormat), (isFollower a, stLinked), (a.state != .idle, stState),
               (ks.isEmpty, stEmpty), (decide (a.cfg.vHard * 256 < tableSpeed ks), stOutOfRange),
               (travelOutside s i lo hi, stOutOfRange),
               (towardLimit s i (decide (0 < hi)) (decide (lo < 0)), stLimit)] fun s =>
      okWith (setAxis s i fun x =>
        { noLimits x with
          state := .table, tslot := slot, tNew := true, ttime := 0, kfact := 4096, kTarget := 4096, kRate := 4096
          tRepeat := fld (pw e 1) 0 16, stopReq := none, stopping := false, sCurve := false }) []) s)

/-- The way a table goes on from a table time: its curve's velocity, or where that is 0 the way to the next knot. -/
def tableWay : List Knot → Nat → Int
  | a :: b :: rest, t =>
    if t < 4096 * b.dt then
      let v := hermiteVel a b t (4096 * b.dt)
      if v = 0 then b.pos - hermitePos a b t (4096 * b.dt) else v
    else tableWay (b :: rest) (t - 4096 * b.dt)
  | _, _ => 0

/-- AXIS_SCALE (R335): LIMIT where it would move a table on toward an active limit input (R331). -/
def execAxisScale (e : Entry) (s : State) : Host.Outcome State Fault Refusal :=
  .next (command [0x0508] e (fun _ s =>
    let i := axisOf e
    let a := axisAt s i
    let kt := fld (pw e 1) 16 16
    let kr := fld (pw e 1) 0 13
    let way := tableWay (tableOf s a.tslot) a.ttime
    let ok := rsvOk e [0xE0000000, 0xFFFF1FFF] && decide (kt ≤ 0x4000 ∧ 1 ≤ kr ∧ kr ≤ 4096)
    checked s [(!ok, stFormat), (isFollower a, stLinked), (a.state != .table, stState),
               (decide (a.cfg.vHard * 256 * 4096 < kt * tableSpeed (tableOf s a.tslot)), stOutOfRange),
               (kt != 0 && towardLimit s i (decide (0 < way)) (decide (way < 0)), stLimit)] fun s =>
      okWith (setAxis s i fun x => { x with kTarget := kt, kRate := kr }) []) s)

/-- A factor one ramp step nearer its target (R335). -/
def rampK (k target rate : Nat) : Nat := if k < target then min target (k + rate) else max target (k - rate)

/-- The plays a table time has finished: what is left of it, the repeats left and whether the table has ended (R334). -/
def wrapTable (len : Nat) : Nat → Nat → Nat → Nat × Nat × Nat × Bool
  | 0, t, n => (t, n, 0, false)
  | f + 1, t, n =>
    if t < len ∨ len = 0 then (t, n, 0, false)
    else if n = 1 then (t, n, 0, true)
    else
      let (t1, n1, w, fin) := wrapTable len f (t - len) (if n = 0 then 0 else n - 1)
      (t1, n1, w + 1, fin)

/-- One planning step of a table, and whether it has ended (R334, R335). -/
def stepTable (ks : List Knot) (a0 : Axis) : Axis × Bool :=
  let a := if a0.tNew then { a0 with torigin := a0.pos, tNew := false } else a0
  let k := rampK a.kfact a.kTarget a.kRate
  let len := tableLen ks
  let last := (tableAt ks len).1
  let (t, n, plays, fin) := wrapTable len 8 (a.ttime + k) a.tRepeat
  let origin := a.torigin + plays * last
  if fin then
    ({ a with pos := wrapS 64 (origin + last), vel := 0, acc := 0, kfact := k, ttime := 0, torigin := origin, tRepeat := 0 }, true)
  else
    let (p, v) := tableAt ks t
    let vel := v * k / 4096
    ({ a with pos := wrapS 64 (origin + p), vel := vel, acc := (vel - a.vel) * 100000, kfact := k, ttime := t
              torigin := origin, tRepeat := n }, false)

/-! Homing (R336 to R340). -/

/-- The homing an AXIS_HOME starts for an axis: at BACK where its switch is already confirmed active (R338). -/
def startHoming (e : Entry) (a : Axis) : Homing :=
  let neg := bitOf (pw e 0) 28
  let sw := fld (pw e 0) 26 2
  let deb := fld (pw e 0) 18 8
  let run := a.runs.getD (if sw = 1 then (if neg then 0 else 1) else 2) 0
  let on := decide (sw ≠ 2 ∧ deb ≤ run)
  { phase := if on then 2 else 1, neg := neg, sw := sw, debounce := deb, seekV := (pw e 1).toNat, latchV := (pw e 2).toNat
    hacc := (pw e 3).toNat, backoff := (pw e 4).toNat, homePos := pqS e 5
    seekCapture := 0, latched := 0, released := none, wasOn := on, stopping := false, limitSeen := false
    toBack := false, aborted := false, atSet := false }

/-- The fields of an AXIS_HOME (R336). -/
def homeOk (e : Entry) (a : Axis) : Bool :=
  let sw := fld (pw e 0) 26 2
  rsvOk e [0xFFFC0000, allBits, allBits, allBits, allBits, allBits, allBits] &&
  decide ((pw e 2).toNat ≤ (pw e 1).toNat ∧ (pw e 1).toNat ≤ a.cfg.vHard ∧ (pw e 3).toNat ≤ a.cfg.aHard ∧ sw ≠ 3 ∧
    (sw = 2 → a.cfg.fbCh ≠ 15) ∧ (sw ≠ 2 → 1 ≤ fld (pw e 0) 18 8) ∧ -(2 ^ 47 : Int) ≤ pqS e 5 ∧ pqS e 5 < (2 ^ 47 : Int))

/-- The direction of motion of a homing phase: toward DIR in SEEK and LATCH, against it in BACK and SEEK_BACK. -/
def homingUp (h : Homing) : Bool := if h.phase = 2 ∨ h.phase = 5 then h.neg else !h.neg

/-- The speed of a homing phase: SEEK_V in SEEK and SEEK_BACK, LATCH_V else (R338, R339). -/
def homingSpeed (h : Homing) : Nat := if h.phase = 1 ∨ h.phase = 5 then h.seekV else h.latchV

/-- A length no motion outlasts. -/
def foreverLen : Nat := 2 ^ 160

/-- The axis takes the speed and direction of its homing phase with HACC (R338); with HACC 0 it keeps the speed it has (log 96). -/
def homingPath (a : Axis) (h : Homing) : Axis :=
  let v : Int := (if homingUp h then (homingSpeed h : Int) else -(homingSpeed h : Int)) * pathScale
  let ls := changeLegs (kinOf a).v 0 v (h.hacc * pathScale) none
  takePath { a with homing := some h } (ls ++ [cruise foreverLen (if h.hacc = 0 then (kinOf a).v else v)]) a.target

/-- The axis comes to rest at a deceleration within its homing; at 0 it keeps its speed (log 96). -/
def homingStop (a : Axis) (h : Homing) (dec : Nat) : Axis :=
  let ls := if dec = 0 ∧ a.vel ≠ 0 then [cruise foreverLen (kinOf a).v] else stopLegs (kinOf a) (dec * pathScale) none
  takePath { a with homing := some { h with stopping := true } } ls (wrapS 64 ((after (kinOf a) ls).p / stepScale))

/-- The capture position: the commanded position, or the feedback position where FB_CH is set (R337). -/
def capturePos (a : Axis) (p : Int) : Int := if a.cfg.fbCh = 15 then p else a.fb + a.fbOffset

/-- AXIS_HOME (R336, R340): the axis, and the followers of a leader, enter HOMING with HOMED clear. An axis that leads a pair is
taken from its motion; not from DISABLED or STALLED, which R325 and R342 let it leave otherwise only (log 160). LIMIT where the
first phase moves toward an active limit input (R331). -/
def execAxisHome (e : Entry) (s : State) : Host.Outcome State Fault Refusal :=
  .next (command [0x0505] e (fun _ s =>
    let i := axisOf e
    let group := linkGroup s i
    let a := axisAt s i
    let up := !bitOf (pw e 0) 28
    let into := group.any fun k =>
      let h := startHoming e (axisAt s k)
      if h.phase = 1 then h.sw != 1 && limitActive (axisAt s k) up else limitActive (axisAt s k) (!up)
    let leads := !(followersOf s i).isEmpty && a.state != .disabled && a.state != .stalled
    checked s [(!group.all fun k => homeOk e (axisAt s k), stFormat), (isFollower a, stLinked),
               (a.state != .idle && !leads, stState), (into, stLimit)] fun s =>
      let s1 := if a.state = .velocity then (loopsOn s i).foldl loopOff s else s
      okWith (group.foldl (fun t k => setAxis t k fun x =>
        let h := startHoming e x
        homingPath { noLimits x with state := .homing, homed := false, sCurve := false, stopReq := none, stopping := false
                                     newMove := false, limited := false, loopVel := none } h) s1) []) s)

/-- A confirmed home edge at `c` (R338): SEEK and LATCH come to rest. -/
def homeConfirmed (a : Axis) (h : Homing) (c : Int) : Axis :=
  if h.stopping then { a with homing := some h }
  else if h.phase = 1 then homingStop a { h with seekCapture := c } h.hacc
  else if h.phase = 3 then homingStop a { h with latched := c, phase := 4 } h.hacc
  else if h.sw = 2 ∧ h.phase = 5 ∧ h.released.isNone then { a with homing := some { h with wasOn := true, released := some c } }
  else { a with homing := some { h with wasOn := true } }

/-- The home switch's sample (R337): confirmed with the position `c` of its edge, or released. -/
def homeSwitch (a : Axis) (h : Homing) (on : Bool) (run off : Nat) (c p : Int) : Axis :=
  if h.sw = 2 then a
  else if on then (if run = h.debounce then homeConfirmed a h c else a)
  else
    let back := (h.phase = 2 ∨ h.phase = 5) ∧ h.wasOn ∧ h.released.isNone ∧ off = h.debounce
    { a with homing := some (if back then { h with released := some (capturePos a p) } else h) }

/-- The inputs that capture an edge during homing: its switch and both limit inputs (R337, R339). -/
def homingInputs (h : Homing) : List Nat := if h.sw = 0 then [0, 1, 2] else [0, 1]

/-- Captures a sample discards: inputs that read inactive before their edge was confirmed (R337). -/
def lostCaptures (a : Axis) (h : Homing) (lv : List Bool) : Nat :=
  ((homingInputs h).filter fun k => !lv.getD k false && decide (0 < a.runs.getD k 0 ∧ a.runs.getD k 0 < confirmLen h)).length

/-- Homing ends with HOMING_LIMIT: the axis comes to rest at A_HARD, and so does the other axis of a pair, neither homed
(R339, R340). -/
def homingLimit (s : State) (i input : Nat) : State :=
  let h := (axisAt s i).homing
  let s1 := (linkGroup s i).foldl (fun t k => setAxis t k fun x =>
    match x.homing with
    | some g => homingStop x { g with aborted := true } x.cfg.aHard
    | none => x) s
  match h with
  | some g => raise s1 0x0807 (it i ++ it input ++ it g.phase)
  | none => s1

/-- A limit input confirmed during homing (R339): `dirSide` for the one in DIR. With SWITCH 1 that one is the home switch. -/
def homeLimit (s : State) (i : Nat) (dirSide : Bool) (input : Nat) : State :=
  match (axisAt s i).homing with
  | none => s
  | some h =>
    if h.aborted then s
    else if !dirSide then homingLimit s i input
    else if h.sw = 1 then s
    else if h.phase = 1 ∧ !h.limitSeen then
      setAxis s i fun x => homingStop x { h with limitSeen := true, toBack := true } x.cfg.aHard
    else if h.limitSeen ∨ h.phase = 3 then homingLimit s i input
    else s

/-- The position moves so that the latched capture reads HOME_POS; no step leaves for that (R338). -/
def setHome (a : Axis) (h : Homing) : Axis :=
  let off := h.homePos * 65536 - h.latched
  let p := wrapS 64 (a.pos + off)
  { a with pos := p, prev := wrapS 64 (a.prev + off), stepped := wrapS 48 (a.stepped + p / 65536 - a.pos / 65536)
           edges := a.edges.map (· + off), fbOffset := a.fbOffset + off, target := p, homed := true
           homing := none, state := if isFollower a then .follower else .idle, plan := [] }

/-- MOVE_DONE: the axis at rest, its position and the state it leaves (R325). -/
def moveDone (s : State) (i : Nat) (was : AxisState) : State :=
  raise s 0x0801 (it i ++ itq (axisAt s i).pos ++ it (axisCode was))

/-- The axes of a homing have all reached SET at rest: positions set, HOME_DONE for each (R338, R340). -/
def finishHoming (s : State) (i : Nat) : State :=
  let group := linkGroup s i
  let ready := group.all fun k => match (axisAt s k).homing with | some h => h.atSet | none => false
  if !ready then s
  else group.foldl (fun t k =>
    match (axisAt t k).homing with
    | some h =>
      let t1 := raise (setAxis t k fun x => setHome x h) 0x0806 (it k ++ itq h.seekCapture ++ itq h.latched)
      moveDone t1 k .homing
    | none => t) s

/-- The axes of an aborted homing at rest leave it unhomed, the link restored (R339, R340). -/
def endAborted (s : State) (i : Nat) : State :=
  let group := linkGroup s i
  let ready := group.all fun k => match (axisAt s k).homing with | some h => h.atSet | none => true
  if !ready then s
  else group.foldl (fun t k =>
    if (axisAt t k).homing.isSome then
      moveDone (setAxis t k fun x =>
        { x with homing := none, plan := [], state := if isFollower x then .follower else .idle }) k .homing
    else t) s

/-- The home switch is confirmed active. -/
def switchOn (a : Axis) (h : Homing) : Bool :=
  decide (h.sw ≠ 2 ∧ h.debounce ≤ a.runs.getD (homeInput h) 0)

/-- A homing axis has come to rest: the next phase, or its end once the planning step's steps have left (R338, R339). -/
def homingRest (s : State) (i : Nat) (h : Homing) : State :=
  let go := fun (g : Homing) => setAxis s i fun x => homingPath x { g with stopping := false }
  if h.aborted ∨ h.phase = 4 then setAxis s i fun x => { x with homing := some { h with atSet := true } }
  else if h.phase = 1 ∧ h.toBack then go { h with phase := 5, toBack := false, wasOn := switchOn (axisAt s i) h, released := none }
  else if h.phase = 1 then go { h with phase := 2, wasOn := true, released := none }
  else go { h with phase := 3 }

/-- A homing at rest in SET, or aborted, ends where the axes homed with it are there too. -/
def settleHoming (s : State) (i : Nat) : State :=
  match (axisAt s i).homing with
  | some h => if h.aborted then endAborted s i else if h.atSet then finishHoming s i else s
  | none => s

/-- How far BACK or SEEK_BACK has gone beyond the release; an index counts as released where it was captured (R338). -/
def backedOff (a : Axis) (h : Homing) : Bool :=
  let rel := if h.sw = 2 ∧ h.phase = 2 then some h.seekCapture else h.released
  match rel with
  | none => false
  | some r =>
    let gone := if homingUp h then capturePos a a.pos - r else r - capturePos a a.pos
    (h.phase == 2 || h.phase == 5) && !h.stopping && decide ((h.backoff * 65536 : Nat) ≤ gone)

/-! The planning step (R321, R324, R341). -/

/-- One planning step along the path under way; `true` at its end, where the axis is exactly on the target at rest (R327). -/
def followPath (a : Axis) : Axis × Bool :=
  let t := a.planT + planStepLen
  match pathAt a.plan t with
  | some k => ({ a with pos := wrapS 64 (k.p / stepScale), vel := k.v / stepScale, acc := k.a / stepScale, planT := t }, false)
  | none => ({ a with pos := a.target, vel := 0, acc := 0, plan := [], planT := 0 }, true)

/-- The virtual limit a position has passed: 0 LIM_LO, 1 LIM_HI. -/
def limitPassed (a : Axis) : Option Nat :=
  if !limitsOn a then none
  else if a.pos < a.limLo * 65536 then some 0 else if a.limHi * 65536 < a.pos then some 1 else none

/-- VLIMIT: axis, limit and position (R360), once per motion. -/
def reportVlimit (s : State) (i lim : Nat) : State :=
  if (axisAt s i).passed then s
  else raise (setAxis s i fun x => { x with passed := true }) 0x0804 (it i ++ it lim ++ itq (axisAt s i).pos)

/-- A motion that carries an axis past a virtual limit it was within raises VLIMIT (R330). -/
def crossLimit (s : State) (i : Nat) : State :=
  let a := axisAt s i
  match limitPassed a with
  | some lim => if withinLimits a a.prev then reportVlimit s i lim else s
  | none => s

/-- An axis in VELOCITY (R330): its speed moves toward the loop's output within V_HARD at A_HARD, to the largest from which it
can still rest at the virtual limit ahead; beyond a limit it comes to rest. The second part is the limit it holds at. Velocities are
exact, in 1/(65,536 × 100,000) step/s, and so are positions, 2 × 10¹⁰ to 1/65,536 step, so that a planning step at velocities `v` and
`w` goes `v + w`. -/
def stepVelocity (a : Axis) : Axis × Option Nat :=
  let unit : Int := 20000000000
  let hard : Int := a.cfg.vHard * 6553600000
  let acc : Int := a.cfg.aHard * 65536
  let v := a.vel * 100000 + a.velSub
  let want := clampI (clampI ((a.loopVel.getD 0) * 6553600000) (-hard) hard) (v - acc) (v + acc)
  let up := decide (0 < want) || (decide (want = 0) && decide (0 < v))
  let sgn : Int := if up then 1 else -1
  let edge := if up then a.limHi * 65536 else a.limLo * 65536
  let room := sgn * (edge * unit - (a.pos * unit + a.posSub))
  let disc := acc * acc + 4 * acc * (room - sgn * v)
  let most := if disc < 0 then -1 else (isqrt disc - acc) / 2
  let tight := limitsOn a && decide ((want ≠ 0 ∨ v ≠ 0) ∧ most < sgn * want)
  let w := if tight then sgn * max 0 (max (sgn * v - acc) most) else want
  let p := a.pos * unit + a.posSub + v + w
  let hold := if tight ∧ w = 0 then some (if up then 1 else 0) else none
  if tight ∧ w = 0 ∧ 0 ≤ room ∧ (room ≤ sgn * v ∨ room ≤ unit) then
    ({ a with pos := edge, posSub := 0, vel := 0, velSub := 0, acc := 0 }, hold)
  else
    ({ a with pos := wrapS 64 (p / unit), posSub := (p % unit).toNat, vel := w / 100000, velSub := (w % 100000).toNat, acc := w - v },
     hold)

/-- The motion of one axis that leads or stands alone over a planning step. -/
def stepAxis (s0 : State) (i : Nat) : State :=
  let s := match (axisAt s0 i).stopReq with
    | some dec => takeStop s0 i dec
    | none => if (axisAt s0 i).newMove then takeMove s0 i else s0
  let a := axisAt s i
  match a.state with
  | .moving =>
    let (x, done) := followPath a
    let s2 := crossLimit (setAxis s i fun _ => x) i
    if done then
      moveDone (setAxis s2 i fun x =>
        { x with stopping := false, limited := false, state := if isFollower x then .follower else .idle }) i .moving
    else s2
  | .table =>
    let (x, done) := stepTable (tableOf s a.tslot) a
    let s1 := setAxis s i fun _ => x
    if done then
      moveDone (setAxis s1 i fun x => { x with state := .idle, target := x.pos }) i .table
    else s1
  | .homing =>
    match a.homing with
    | none => s
    | some h =>
      let (x, done) := followPath a
      let s1 := setAxis s i fun _ => x
      if done && h.stopping && !h.atSet then homingRest s1 i h
      else if backedOff x h then setAxis s1 i fun y => homingStop y h h.hacc
      else s1
  | .velocity =>
    let (x, lim) := stepVelocity a
    let s1 := setAxis s i fun _ => if lim.isSome ∨ limitPassed x ≠ none then x else { x with passed := a.passed && x.vel == 0 }
    match lim with
    | some l => reportVlimit s1 i l
    | none => crossLimit s1 i
  | .disabled | .idle | .follower | .stalled => s

/-- A follower's commanded position changes by its leader's change, negated with FOLLOW_INV (R324). -/
def stepFollower (s : State) (i : Nat) : State :=
  let a := axisAt s i
  if a.state = .follower then
    let lead := axisAt s a.cfg.leader
    let d := wayTo lead.prev lead.pos
    let sgn : Int := if a.cfg.followInv then -1 else 1
    let s1 := setAxis s i fun x =>
      { x with pos := wrapS 64 (x.pos + sgn * d), vel := sgn * lead.vel, acc := sgn * lead.acc, passed := x.passed && limitPassed x ≠ none }
    crossLimit s1 i
  else s

/-- Instants of 25 ns in a planning step of 10 µs (R321). -/
abbrev planInstants : Nat := 400

/-- From one step to the next: a pulse of 100 ns and as long low; with a change of direction, also DIR_SETUP (R320). -/
def stepGap (a : Axis) (turned : Bool) : Int := if turned then 8 + 4 * a.cfg.dirSetup else 8

/-- The instant at which step `j` (from 0) of those owed is due: where the position, linear from `prev` over the planning step,
crosses it, the next 25 ns after. DESIGN CHOICE (log 164): R321 does not say which way the instant is quantised. -/
def crossing (a : Axis) (up : Bool) (j : Nat) : Int :=
  let way := wayTo a.prev a.pos
  let first := wrapS 64 (a.stepped * 65536 - a.prev)
  let far := if up then first + 65536 * (j + 1) else -(first - 65536 * j)
  let len := if up then way else -way
  if far ≤ 0 ∨ len ≤ 0 then 0 else -(-(far * (planInstants : Int)) / len)

/-- The instants at which owed steps leave within the planning step, none before `earliest`, each held to R320. -/
def stepTimes (due : Nat → Int) : Nat → Nat → Int → List Nat
  | 0, _, _ => []
  | n + 1, j, earliest =>
    let t := max (due j) earliest
    if (planInstants : Int) ≤ t then [] else t.toNat :: stepTimes due n (j + 1) (t + 8)

/-- The steps owed at the end of a planning step leave on AXn_STEP and AXn_DIR, the rest in the steps after (R320, R321). -/
def emitSteps (s : State) (i : Nat) : State :=
  let a := axisAt s i
  let owed := wrapS 48 (a.pos / 65536 - a.stepped)
  let up := decide (0 < owed)
  let earliest := match a.lastStep with
    | some (t, u) => max 0 (t + stepGap a (u != up))
    | none => 0
  let times := stepTimes (crossing a up) (min 50 owed.natAbs) 0 earliest
  let gone : Int := times.length
  let last := match times.getLast? with
    | some t => some ((t : Int) - planInstants, up)
    | none => a.lastStep.map fun l => (max (-planInstants * 100) (l.1 - planInstants), l.2)
  let s1 := setAxis s i fun x => { x with stepped := wrapS 48 (if up then x.stepped + gone else x.stepped - gone), lastStep := last }
  if times.isEmpty ∨ !a.cfg.enable then s1
  else
    let level := up != a.cfg.dirInv
    let dir := (s1.pins.outs.dir &&& ~~~(1#8 <<< i)) ||| (if level then 1#8 <<< i else 0)
    emit { s1 with pins := { s1.pins with outs := { s1.pins.outs with dir := dir } } } (.step i level times)

/-- The current reference code of R341: HOLD_I once held, else by the following error. -/
def currentCode (a : Axis) : Nat :=
  if a.curHeld then a.cfg.holdI
  else if a.cfg.fbCh = 15 then a.cfg.runI
  else
    let span := (a.cfg.feFull - a.cfg.feStart) * 65536
    let excess := min ((feFine a).natAbs - a.cfg.feStart * 65536) span
    a.cfg.runI + (a.cfg.boostI - a.cfg.runI) * excess / span

/-- A current code that has changed waits for its device (R341, R345). -/
def setCurrent (s : State) (i code : Nat) : State :=
  let a := axisAt s i
  if !a.cfg.curEn ∨ !a.cfg.enable ∨ a.cur = code then s
  else
    let s1 := setAxis s i fun x => { x with cur := code }
    { s1 with mot := { s1.mot with curQueue := (s1.mot.curQueue.filter fun q => q.1 != i) ++ [(i, code)] } }

/-- Rest and boost times of an axis, and its current (R341, R342). -/
def stepCurrent (s : State) (i : Nat) : State :=
  let a := axisAt s i
  let rest := a.vel = 0
  let boost := a.cfg.fbCh ≠ 15 ∧ a.cfg.feFull ≤ (feOf a).natAbs
  let s1 := setAxis s i fun x => { x with restFor := if rest then x.restFor + 1 else 0, curHeld := x.curHeld && decide rest
                                          boostFor := if boost then x.boostFor + 1 else 0 }
  if a.state = .stalled then s1 else setCurrent s1 i (currentCode (axisAt s1 i))

/-- The motion of the chip runs here: it is no servitor, awake and not in SAVE (R354, R405, R414). -/
def motionRuns (s : State) : Bool :=
  bootRunning s && awake s && !s.pwr.saving && s.par.state != .failed && !servitor s

/-- The output write of a loop that drives an axis begins: the velocity the axis is asked for from now on (R347, R352). -/
def driveLoop (s : State) (k : Nat) : State :=
  let l := loopAt s k
  if l.outDue && bitOf (rdw l.desc.dw 0) 11 then
    let s1 := setLoop s k fun x => { x with outDue := false, saved := none, written := true, outWritten := l.lastOut }
    setAxis s1 (fld (rdw l.desc.dw 0) 6 5) fun x => if x.state = .velocity then { x with loopVel := some l.lastOut } else x
  else s

/-- PLANNING_STEP (R321): the outputs of the loops that drive axes (DESIGN CHOICE, log 197), leaders, the axes that followed throughout, steps, the ends of
homings, and currents. -/
def execPlanningStep (s : State) : Host.Outcome State Fault Refusal :=
  if !motionRuns s then .next s
  else
    let axes := s.mot.axes.map fun a => { a with prev := a.pos }
    let s1 := (List.range 32).foldl driveLoop { s with mot := { s.mot with axes := axes, sample := 0 } }
    let led := (List.range 8).filter fun i => (axisAt s1 i).state == .follower
    let s2 := (List.range 8).foldl stepAxis s1
    let s3 := led.foldl stepFollower s2
    let s4 := (List.range 8).foldl settleHoming ((List.range 8).foldl emitSteps s3)
    .next ((List.range 8).foldl (fun t i => if (axisAt t i).cfg.enable then stepCurrent t i else t) s4)

/-! Switches, stalls and hold current (R331, R337, R341, R342). -/

/-- Counts of consecutive samples, held at 256: beyond any DEBOUNCE. -/
def nextRun (on : Bool) (n : Nat) : Nat := if on then min 256 (n + 1) else 0

/-- The commanded position at a switch sample, between the ends of the planning step (R321, R337). -/
def samplePos (s : State) (a : Axis) : Int := a.prev + wayTo a.prev a.pos * (min 10 s.mot.sample : Nat) / 10

/-- A limit stop (R331): the axes of the pair slow at A_HARD; LIMIT_HIT. -/
def limitStop (s : State) (i input : Nat) : State :=
  let s1 := (linkGroup s i).foldl (fun t k =>
    let a := axisAt t k
    if a.state = .moving ∨ a.state = .table ∨ a.state = .velocity then
      setAxis t k fun x => { slowDown { x with loopVel := none, stopReq := none, newMove := false } x.cfg.aHard with limited := true }
    else t) s
  raise (count s1 (cnum 8 1)) 0x0805 (it i ++ it input ++ itq (axisAt s i).pos)

/-- One axis's switch sample: LIMN, LIMP and HOME are bits 3i, 3i + 1 and 3i + 2 of the levels. -/
def sampleAxis (levels : BitVec 24) (s : State) (i : Nat) : State :=
  let lv := (List.range 3).map fun k => bitOf levels (3 * i + k)
  let a0 := axisAt s i
  let runs := (List.range 3).map fun k => nextRun (lv.getD k false) (a0.runs.getD k 0)
  let offs := (List.range 3).map fun k => nextRun (!lv.getD k false) (a0.offs.getD k 0)
  let edges := (List.range 3).map fun k =>
    if lv.getD k false && a0.runs.getD k 0 == 0 then capturePos a0 (samplePos s a0) else a0.edges.getD k 0
  let s1 := setAxis s i fun x => { x with runs := runs, offs := offs, edges := edges }
  let a := axisAt s1 i
  if !motionRuns s ∨ !a.cfg.enable then s1
  else match a.homing with
    | some h =>
      let k := homeInput h
      let s2 := setAxis s1 i fun _ =>
        homeSwitch a h (lv.getD k false) (runs.getD k 0) (offs.getD k 0) (edges.getD k 0) (samplePos s a)
      let s3 := countN s2 (cnum 8 2) (lostCaptures a0 h lv)
      let n := confirmLen h
      let s4 := if runs.getD 1 0 = n then homeLimit s3 i (!h.neg) 1 else s3
      if runs.getD 0 0 = n then homeLimit s4 i h.neg 2 else s4
    | none =>
      if (axisAt s1 (if isFollower a then a.cfg.leader else i)).limited then s1
      else if 0 < a.vel ∧ limitActive a true then limitStop s1 i 1
      else if a.vel < 0 ∧ limitActive a false then limitStop s1 i 2
      else s1

/-- SWITCH_SAMPLE (R320, R331, R337). -/
def execSwitchSample (levels : BitVec 24) (s : State) : Host.Outcome State Fault Refusal :=
  let s1 := { s with pins := { s.pins with axSwitch := levels }, mot := { s.mot with sample := s.mot.sample + 1 } }
  .next ((List.range 8).foldl (sampleAxis levels) s1)

/-- An axis stalls (R342): no further step, HOLD_I, HOMED clear. -/
def stallAxis (s : State) (i : Nat) : State :=
  let s1 := if (axisAt s i).state = .velocity then (loopsOn s i).foldl loopOff s else s
  let s2 := setAxis s1 i fun x =>
    { x with state := .stalled, homed := false, vel := 0, acc := 0, plan := [], planT := 0, newMove := false, stopReq := none
             stopping := false, homing := none, loopVel := none, boostFor := 0, stepped := x.pos / 65536 }
  setCurrent s2 i (axisAt s2 i).cfg.holdI

/-- STALL (R342): |fe| at FE_FULL or above for STALL_T; both axes of a pair stall. -/
def execStall (ax : Nat) (s : State) : Host.Outcome State Fault Refusal :=
  let a := axisAt s ax
  if motionRuns s ∧ a.cfg.enable ∧ a.state ≠ .stalled ∧ a.cfg.stallT * 100 ≤ a.boostFor then
    let s1 := (linkGroup s ax).foldl stallAxis s
    .next (raise (count s1 (cnum 8 0)) 0x0809 (it ax ++ itq a.pos ++ it (feOf a)))
  else .next s

/-- HOLD_CURRENT (R341): at rest for HOLD_DELAY, the axis takes HOLD_I. -/
def execHoldCurrent (ax : Nat) (s : State) : Host.Outcome State Fault Refusal :=
  let a := axisAt s ax
  if motionRuns s ∧ a.cfg.enable ∧ a.vel = 0 ∧ a.cfg.holdDelay * 100 ≤ a.restFor then
    .next (setCurrent (setAxis s ax fun x => { x with curHeld := true }) ax a.cfg.holdI)
  else .next s

/-! The index inputs (R151, R337). -/

/-- A qualified index on channel `ch` is the home edge of every axis that homes to it, confirmed at once with the position
captured (R337). -/
def homeIndex (s : State) (ch : Nat) : State :=
  if !motionRuns s then s
  else (List.range 8).foldl (fun t i =>
    let a := axisAt t i
    match a.homing with
    | some h => if h.sw = 2 ∧ a.cfg.fbCh = ch then setAxis t i fun x => homeConfirmed x h (x.fb + x.fbOffset) else t
    | none => t) s

/-- INDEX_RISE (R149, R151, R159): the index input has held high; captured and counted
where qualified; zeroes channels 2 to 11 with INDEX_ZERO; on channel 0 it applies a pending reference of REF_MODE 2. -/
def execIndexRise (ch : Nat) (edge : Edge) (s : State) : Host.Outcome State Fault Refusal :=
  match s.encs[ch]? with
  | none => .next s
  | some e =>
    let s0 := { s with encs := modAt (fun x => { x with i := true }) s.encs ch }
    if !awake s || !filtered e.filt edge.held then .next s
    else if !e.enable ∨ (e.indexQual ∧ ¬ (e.a ∧ e.b)) then .next s0
    else
      let zero := e.indexZero && decide (2 ≤ ch)
      let s1 := count { s0 with encs := modAt (fun x =>
        { x with index := e.pos, pos := if zero then 0 else x.pos }) s0.encs ch } (cnum 3 (12 + ch))
      let s2 := homeIndex s1 ch
      match s2.ftb.lineRef with
      | some r => if ch = 0 ∧ r.onIndex then .next (applyReference (advancePacing s2 edge.t) r.lamI r.lamF) else .next s2
      | none => .next s2

end Sys2Proof.Machine
end

