-- ==== Sys2Proof/Machine/Loops.lean ====
section
/-! DEFINITION. Control SPI, analogue inputs and loop slots (R343 to R353, R356, R358 to R360, R404). -/

namespace Sys2Proof.Machine

/-! Control SPI devices (R344, R345). -/

/-- The entry of device `d`: three dwords, none for a device never loaded. -/
def devOf (s : State) (d : Nat) : List Dword := mapGet [] s.mot.devs d

/-- KIND of device `d`: 0 unused, 1 DAC, 2 current reference, 3 ADC. -/
def devKind (s : State) (d : Nat) : Nat := fld (rdw (devOf s d) 0) 20 2

/-- A device entry's fields (R344); its RSV bits are ignored (R5, R36). -/
def devOk (d : List Dword) : Bool :=
  let frame := fld (rdw d 0) 12 6
  decide (8 ≤ frame ∧ frame ≤ 32 ∧ fld (rdw d 0) 7 5 + fld (rdw d 0) 2 5 < frame)

/-- The frame sent to a device (R344): TEMPLATE with the value, clamped to its width, in its place. -/
def devFrame (d : List Dword) (v : Int) : Dword :=
  let frame := fld (rdw d 0) 12 6
  let pos := fld (rdw d 0) 7 5
  let bits := fld (rdw d 0) 2 5 + 1
  let t := (rdw d 2).toNat
  let field := t / 2 ^ pos % 2 ^ bits
  let val := (clampI v 0 (2 ^ bits - 1)).toNat
  BitVec.ofNat 32 ((t - field * 2 ^ pos + val * 2 ^ pos) % 2 ^ frame)

/-- The value of a frame an ADC returned (R344). -/
def devValue (d : List Dword) (frame : Dword) : Nat := fld frame (fld (rdw d 0) 7 5) (fld (rdw d 0) 2 5 + 1)

/-- A loop descriptor's field: bits from `lo`, `len` of them, of dword `i` (R347). -/
def lf (l : Loop) (i lo len : Nat) : Nat := fld (rdw l.desc.dw i) lo len

/-- A signed dword of a loop descriptor. -/
def ls32 (l : Loop) (i : Nat) : Int := signed 32 (rdw l.desc.dw i).toNat

/-- A slot holds a descriptor: PERIOD_N is not 0. -/
def slotLoaded (l : Loop) : Bool := lf l 1 23 9 != 0

/-- A loop's output goes to an axis. -/
def toAxis (l : Loop) : Bool := lf l 0 11 1 == 1

/-- A loop uses device `d`: measurement or output. -/
def loopUses (l : Loop) (d : Nat) : Bool :=
  (lf l 0 24 3 == 1 && lf l 0 19 5 == d) || (!toAxis l && lf l 0 6 5 == d)

/-- Device `d` is used by an axis not DISABLED or a loop not OFF (R344). -/
def devInUse (s : State) (d : Nat) : Bool :=
  (s.mot.axes.any fun a => a.state != .disabled && a.cfg.curEn && a.cfg.curDev == d) ||
  s.mot.loops.any fun l => l.mode != .off && loopUses l d

/-- Device entries of three dwords each. -/
def devEntries : Nat → List Dword → List (List Dword)
  | 0, _ => []
  | n + 1, d => d.take 3 :: devEntries n (d.drop 3)

/-- CSPI_CONFIG (R344, R404). -/
def execCspiConfig (e : Entry) (s : State) : Host.Outcome State Fault Refusal :=
  .next (command [0x0601] e (fun _ s =>
    let n := fld (pw e 0) 0 6
    checked s [(!rsvOk e [0x3F, 0, allBits, allBits] || pq e 2 % 4 != 0 || decide (n < 1 ∨ 32 < n), stFormat)] fun s =>
      withRecord s (pq e 2) (3 * n) fun d =>
        let es := devEntries n d
        checked s [(!es.all devOk, stFormat), (!servitor s && es.any fun x => devInUse s (fld (rdw x 0) 27 5), stBusy)] fun s =>
          okWith { s with mot := { s.mot with devs := mapSetAll [] s.mot.devs (es.map fun x => (fld (rdw x 0) 27 5, x)) } } []) s)

/-- AIN_CONVERSION (R343): the latest code of an input; one being recalibrated holds its last code. Input 4 stands
for the monitor of HOLD_MON, its code in mV (R480). DESIGN CHOICE (log 195). -/
def execAinConversion (i : Nat) (code : BitVec 16) (s : State) : Host.Outcome State Fault Refusal :=
  let held := match s.mot.ainHold with | some h => h.1 == i && decide (s.time.clk < h.2) | none => false
  if i = 4 then .next { s with pwr := { s.pwr with holdMonMv := code.toNat } }
  else if i < 4 ∧ !held then .next { s with mot := { s.mot with ain := s.mot.ain.set i code.toNat } } else .next s

/-- The value a loop's pending write carries: FAULT_OUT in FAULTED, else its last output. -/
def writeValue (l : Loop) : Int := if l.mode = .faulted then ls32 l 14 else l.lastOut

/-- A loop's output write begins: its frame leaves, or its axis takes the velocity, and it always completes (R345, R352). -/
def writeLoop (s : State) (k : Nat) : State :=
  let l := loopAt s k
  if !l.outDue then s
  else if toAxis l then driveLoop s k
  else
    let s1 := setLoop s k fun x => { x with outDue := false, saved := none, written := true, outWritten := writeValue l }
    emit s1 (.spi (lf l 0 6 5) (devFrame (devOf s (lf l 0 6 5)) (writeValue l)))

/-- PORT of a device. -/
def portOf (s : State) (d : Nat) : Nat := fld (rdw (devOf s d) 0) 25 2

/-- A slot samples at the next instant (R346). -/
def slotDue (s : State) (k : Nat) : Bool :=
  let l := loopAt s k
  slotLoaded l && (l.mode == .manual || l.mode == .auto) && s.mot.instant % lf l 1 23 9 == lf l 1 14 9

/-- The ADC reads a port has left to make for the loops due, in slot order (R345). -/
def readsLeft (s : State) (port : Nat) : List Nat :=
  (List.range 32).filter fun k =>
    let l := loopAt s k
    slotDue s k && lf l 0 24 3 == 1 && portOf s (lf l 0 19 5) == port && !s.mot.adcRead.contains k

/-- The output writes a port has left, in slot order (R345). -/
def writesLeft (s : State) (port : Nat) : List Nat :=
  (List.range 32).filter fun k =>
    let l := loopAt s k
    l.outDue && !toAxis l && portOf s (lf l 0 6 5) == port

/-- The current-reference writes a port has left, in axis order (R345). -/
def currentsLeft (s : State) (port : Nat) : List (Nat × Nat) :=
  (s.mot.curQueue.insertionSort fun a b => a.1 ≤ b.1).filter fun q => portOf s (axisAt s q.1).cfg.curDev == port

/-- The reads of the next instant have begun at a port and are not all made: its writes wait (R345). -/
def midReads (s : State) (port : Nat) : Bool :=
  !(readsLeft s port).isEmpty && s.mot.adcRead.any fun k => portOf s (lf (loopAt s k) 0 19 5) == port

/-- The frame an ADC is sent: TEMPLATE (R344). -/
def templateFrame (d : List Dword) : Dword := BitVec.ofNat 32 ((rdw d 2).toNat % 2 ^ fld (rdw d 0) 12 6)

/-- CSPI_TRANSFER (R344, R345): the transfer its port makes next of the device's kind: the next ADC read of the loops due, the
next output write unless the next instant's reads are under way, or, once no write is left either, the next current reference. A
transfer that is not the port's next is none. -/
def execCspiTransfer (dev : Nat) (frame : Dword) (s : State) : Host.Outcome State Fault Refusal :=
  if servitor s ∨ !awake s ∨ s.pwr.saving ∨ s.par.state = .failed then .next s
  else
    let d := devOf s dev
    let port := portOf s dev
    match devKind s dev with
    | 1 =>
      match writesLeft s port with
      | k :: _ => .next (if lf (loopAt s k) 0 6 5 = dev ∧ !midReads s port then writeLoop s k else s)
      | [] => .next s
    | 2 =>
      match writesLeft s port, currentsLeft s port with
      | [], q :: _ =>
        .next (if (axisAt s q.1).cfg.curDev = dev ∧ !midReads s port then
            emit { s with mot := { s.mot with curQueue := s.mot.curQueue.erase q } } (.spi dev (devFrame d q.2))
          else s)
      | _, _ => .next s
    | 3 =>
      match readsLeft s port with
      | k :: _ =>
        .next (if lf (loopAt s k) 0 19 5 = dev then
            emit { s with mot := { s.mot with adc := mapSet 0 s.mot.adc dev (devValue d frame)
                                              adcRead := s.mot.adcRead ++ [k] } } (.spi dev (templateFrame d))
          else s)
      | [] => .next s
    | _ => .next s

/-! Loop commands (R347, R350, R351, R404). -/

/-- Source fields of a descriptor: AIN 0 to 3, channels 2 to 11, axes 0 to 7 (R347). -/
def sourcesOk (l : Loop) : Bool :=
  let mi := lf l 0 19 5
  let si := lf l 0 12 5
  let fi := lf l 1 3 5
  let chan := fun (x : Nat) => decide (2 ≤ x ∧ x ≤ 11)
  (match lf l 0 24 3 with
    | 0 => decide (mi ≤ 3)
    | 1 => true
    | 2 => chan mi
    | 3 => chan mi
    | 4 => decide (mi ≤ 7)
    | _ => false) &&
  (match lf l 0 17 2 with
    | 0 => true
    | 1 => decide (si ≤ 3)
    | 2 => chan si
    | _ => false) &&
  (match lf l 1 8 2 with
    | 0 => true
    | 1 => decide (fi ≤ 3)
    | 2 => decide (fi ≤ 7)
    | _ => false)

/-- A descriptor's fields (R347). -/
def loopDescOk (s : State) (l : Loop) : Bool :=
  let k := lf l 0 27 5
  let oi := lf l 0 6 5
  recRsvOk l.desc.dw ([0xFFFFFFF0, 0xFFFFFFF8] ++ List.replicate 13 allBits ++ [0]) && sourcesOk l &&
  decide (1 ≤ lf l 1 23 9 ∧ lf l 1 23 9 ≤ 400 ∧ lf l 1 14 9 < lf l 1 23 9 ∧ ls32 l 6 < ls32 l 7 ∧ ls32 l 8 < ls32 l 9) &&
  (lf l 0 24 3 != 1 || devKind s (lf l 0 19 5) == 3) &&
  (if toAxis l then
    decide (oi ≤ 7) && !isFollower (axisAt s oi) &&
      !((List.range 32).any fun j => j != k && slotLoaded (loopAt s j) && toAxis (loopAt s j) && lf (loopAt s j) 0 6 5 == oi)
   else devKind s oi == 1)

/-- LOOP_CONFIG (R347, R404). -/
def execLoopConfig (e : Entry) (s : State) : Host.Outcome State Fault Refusal :=
  .next (command [0x0602] e (fun _ s =>
    checked s [(!rsvOk e [0, 0, allBits, allBits] || pq e 2 % 64 != 0, stFormat)] fun s =>
      withRecord s (pq e 2) 16 fun d =>
        let l := { Loop.reset with desc := { dw := d } }
        let k := lf l 0 27 5
        checked s [(!loopDescOk s l, stFormat), (!servitor s && (loopAt s k).mode != .off, stBusy)] fun s =>
          okWith (setLoop s k fun x => { x with desc := { dw := d }, tune := [] }) []) s)

/-- The output axis of a slot is free for it: IDLE, or VELOCITY (R325). -/
def axisFree (s : State) (l : Loop) : Bool :=
  !toAxis l || (let st := (axisAt s (lf l 0 6 5)).state; st == .idle || st == .velocity)

/-- The output axis of a slot enters VELOCITY (R325). -/
def driveAxis (s : State) (l : Loop) : State :=
  if toAxis l then
    setAxis s (lf l 0 6 5) fun x =>
      if x.state = .idle then
        { noLimits x with state := .velocity, sCurve := false, loopVel := none, velSub := 0, posSub := 0, passed := false, stopReq := none, limited := false }
      else x
  else s

/-- The output axis of a slot comes to rest under R329 (R350, R352). -/
def releaseAxis (s : State) (l : Loop) : State :=
  if toAxis l && (axisAt s (lf l 0 6 5)).state == .velocity then
    askStop s (lf l 0 6 5) (axisAt s (lf l 0 6 5)).cfg.aHard
  else s

/-- The net counts of a channel, from which encoder rates are counted. -/
def encNow (s : State) (ch : Nat) : Int := match s.encs[ch]? with | some x => x.total | none => 0

/-- The slot enters a mode (R350), AUTO from OFF with no output written taking U_BIAS as its last output: its overruns start again; from a mode without samples, its rates are counted from now. -/
def enterMode (s : State) (k : Nat) (m : LoopMode) (manOut : Int) : State :=
  let l := loopAt s k
  let out := if m = .auto ∧ l.mode = .off ∧ !l.written then ls32 l 10 else l.lastOut
  let s1 := setLoop s k fun x =>
    { x with mode := m, manOut := if m = .manual then manOut else x.manOut, lastOut := out, ovr := 0, ovrRaised := false
             samples := 0, entering := m == .auto && x.mode != .auto, saved := none, outDue := false
             lastCount := if x.mode = .off ∨ x.mode = .faulted then encNow s (lf l 0 19 5) else x.lastCount
             lastCountSp := if x.mode = .off ∨ x.mode = .faulted then encNow s (lf l 0 12 5) else x.lastCountSp }
  if m = .off then releaseAxis s1 l else driveAxis s1 l

/-- LOOP_MODE (R350, R404). FAULTED is left only to MANUAL or AUTO; DESIGN CHOICE (log 162): a LOOP_MODE to OFF there is rejected
with STATE. -/
def execLoopMode (e : Entry) (s : State) : Host.Outcome State Fault Refusal :=
  .next (command [0x0603] e (fun _ s =>
    let k := fld (pw e 0) 27 5
    let l := loopAt s k
    let m := fld (pw e 0) 0 2
    let ok := rsvOk e [0xF8000003, if m = 1 then allBits else 0] && m != 3
    checked s [(!ok, stFormat), (m != 0 && !slotLoaded l, stEmpty),
               ((m == 0 && l.mode == .faulted) || (m != 0 && !axisFree s l), stState)] fun s =>
      okWith (enterMode s k (if m = 0 then .off else if m = 1 then .manual else .auto) (signed 32 (pw e 1).toNat)) []) s)

/-- The pairs of a LOOP_TUNE record, the last marked (R351). -/
def tunePairs : Nat → List Dword → List (Nat × Dword × Bool)
  | 0, _ => []
  | n + 1, d => (fld (rdw d 0) 0 4, rdw d 1, n == 0) :: tunePairs n (d.drop 2)

/-- LOOP_TUNE (R351, R404). -/
def execLoopTune (e : Entry) (s : State) : Host.Outcome State Fault Refusal :=
  .next (command [0x0604] e (fun _ s =>
    let k := fld (pw e 0) 27 5
    let n := fld (pw e 0) 0 4 + 1
    checked s [(!rsvOk e [0xF800000F, 0, allBits, allBits] || pq e 2 % 8 != 0, stFormat)] fun s =>
      withRecord s (pq e 2) (2 * n) fun d =>
        let ps := tunePairs n d
        let l := loopAt s k
        checked s [(!ps.all fun p => decide (2 ≤ p.1 ∧ p.1 ≤ 14), stFormat),
                   (decide (32 < l.tune.length + n), stPendingFull)] fun s =>
          okWith (setLoop s k fun x => { x with tune := x.tune ++ ps }) (it (l.tune.length + n : Nat))) s)

/-- LOOP_SETPOINT (R348, R404). -/
def execLoopSetpoint (e : Entry) (s : State) : Host.Outcome State Fault Refusal :=
  .next (command [0x0605] e (fun _ s =>
    checked s [(!rsvOk e [0xF8000000, allBits], stFormat)] fun s =>
      okWith (setLoop s (fld (pw e 0) 27 5) fun x => { x with desc := { dw := x.desc.dw.set 12 (pw e 1) } }) []) s)

/-- LOOP_STATUS (R356, R358, R404). -/
def execLoopStatus (e : Entry) (s : State) : Host.Outcome State Fault Refusal :=
  .next (command [0x0606] e (fun _ s =>
    let k := fld (pw e 0) 27 5
    checked s [(!rsvOk e [0xF8000000], stFormat)] fun s =>
      okWith s (qdws (loopRecord s k) ++ it (loopAt s k).meas ++ it ((loopAt s k).tune.length : Nat))) s)

/-! Samples (R346, R348, R349, R352). -/

/-- Encoder position: the channel's low 32 bits in pair coordinates (R284, R348). -/
def encPos32 (s : State) (ch : Nat) : Int :=
  match s.encs[ch]? with
  | some x => wrapS 32 (x.pos + x.offset)
  | none => 0

/-- Encoder rate: net counts since the slot's previous sample × 40,000 / PERIOD_N, whatever an index zeroes (R348). -/
def encRate (s : State) (l : Loop) (ch : Nat) (last : Int) : Int :=
  sat32 ((wrapS 64 (encNow s ch - last) * 40000).tdiv (lf l 1 23 9 : Nat))

/-- The code of analogue input `i`. -/
def ainCode (s : State) (i : Nat) : Int := (s.mot.ain.getD i 0 : Nat)

/-- The measurement of a slot (R348). -/
def measure (s : State) (l : Loop) : Int :=
  let i := lf l 0 19 5
  match lf l 0 24 3 with
  | 0 => ainCode s i
  | 1 => sat32 (mapGet 0 s.mot.adc i : Nat)
  | 2 => encPos32 s i
  | 3 => encRate s l i l.lastCount
  | _ => sat32 (feOf (axisAt s i))

/-- The source value of the set-point (R348). -/
def setpointSource (s : State) (l : Loop) : Int :=
  let i := lf l 0 12 5
  let scaled := fun (v : Int) => sat32 (ls32 l 11 * v / 65536 + ls32 l 12)
  match lf l 0 17 2 with
  | 1 => scaled (ainCode s i)
  | 2 => scaled (encRate s l i l.lastCountSp)
  | _ => ls32 l 12

/-- A value moved toward another by at most `rate`; 0 sets no limit (R347). -/
def slew (v dest : Int) (rate : Nat) : Int := if rate = 0 then dest else clampI dest (v - rate) (v + rate)

/-- The feed-forward value (R348). -/
def feedForward (s : State) (l : Loop) : Int :=
  let i := lf l 1 3 5
  match lf l 1 8 2 with
  | 1 => ainCode s i
  | 2 => sat32 ((axisAt s i).acc / 65536 / 1024)
  | _ => 0

/-- int64 addition and multiplication, saturating (R349). -/
def add64 (a b : Int) : Int := sat64 (a + b)
def mul64 (a b : Int) : Int := sat64 (a * b)
def shl64 (a : Int) (n : Nat) : Int := sat64 (a * 2 ^ n)

/-- What an AUTO sample leaves: integ, df, m_prev, the output and whether it was clamped. -/
structure AutoOut where
  integ : Int
  df : Int
  mPrev : Int
  out : Int
  clamped : Bool
deriving DecidableEq, Repr

/-- One AUTO sample (R349), or the first after entry, whose integrator is preset so that its output equals last_out (R350). -/
def autoSample (l : Loop) (m sp ffv : Int) : AutoOut :=
  let e := sat32 (sp - m)
  let p := mul64 (ls32 l 2) e
  let mp := if l.entering then m else l.mPrev
  let df0 := if l.entering then 0 else l.df
  let shift := lf l 1 10 4
  let df := add64 df0 ((add64 (shl64 (mp - m) 24) (-df0)) / 2 ^ shift)
  let d := mul64 (ls32 l 4) (df / 2 ^ 12) / 2 ^ 12
  let ff := mul64 (ls32 l 5) ffv
  let b := shl64 (ls32 l 10) 24
  let lo := shl64 (ls32 l 8) 24
  let hi := shl64 (ls32 l 9) 24
  let rest := add64 (add64 d ff) b
  let ke := mul64 (ls32 l 3) e
  let u0 := add64 (add64 p l.integ) rest
  let hold := lf l 0 5 1 == 1 &&
    decide ((shl64 (ls32 l 7) 24 < u0 ∧ 0 < ke) ∨ (u0 < shl64 (ls32 l 6) 24 ∧ ke < 0))
  let integ :=
    if l.entering then clampI (add64 (shl64 l.lastOut 24) (-(add64 p rest))) lo hi
    else if hold then l.integ else clampI (add64 l.integ ke) lo hi
  let u := add64 (add64 (add64 p integ) rest) 0x800000 / 2 ^ 24
  let out := clampI u (ls32 l 6) (ls32 l 7)
  { integ := integ, df := df, mPrev := m, out := out, clamped := decide (out ≠ u) }

/-- One pending pair applied; new limits clamp the integrator; the last pair raises TUNE_DONE (R351). -/
def applyTune (s : State) (k : Nat) : State :=
  match (loopAt s k).tune with
  | [] => s
  | (i, v, last) :: rest =>
    let s1 := setLoop s k fun x =>
      let y := { x with desc := { dw := x.desc.dw.set i v }, tune := rest }
      { y with integ := clampI y.integ (shl64 (ls32 y 8) 24) (shl64 (ls32 y 9) 24) }
    raiseIf last s1 0x080C (it k)

/-- A slot enters FAULTED (R350, R352): LOOP_FAULT; FAULT_OUT written once under FAULT_ACT, an axis output comes to rest. -/
def faultLoop (s : State) (k : Nat) : State :=
  let l := loopAt s k
  let write := lf l 0 4 1 = 1 ∧ !toAxis l
  let s1 := setLoop s k fun x => { x with mode := .faulted, outDue := decide write, saved := none, ovr := 0 }
  raise (releaseAxis s1 l) 0x080B (it k ++ it l.lastOut)

/-- An overrun of a slot's latest sample (R352): nothing is written for it and its figures go back. -/
def overrun (s : State) (k : Nat) : State :=
  let l := loopAt s k
  match l.saved with
  | none => s
  | some (i, d, m, sp, o) =>
    let s1 := count (setLoop s k fun x =>
      { x with integ := i, df := d, mPrev := m, sp := sp, lastOut := o, outDue := false, saved := none, ovr := x.ovr + 1
               ovrRaised := true }) (cnum 8 (4 + k))
    let s2 := raiseIf (!l.ovrRaised) s1 0x080A (it k ++ it l.samples)
    if 3 ≤ l.ovr + 1 then faultLoop s2 k else s2

/-- What precedes a slot's sample: its latest write is late, or has begun. -/
def settleWrite (s : State) (k : Nat) (late : Bool) : State :=
  let l := loopAt s k
  if l.mode = .off ∨ l.mode = .faulted then s
  else if late && l.saved.isSome then overrun s k
  else
    let s1 := writeLoop s k
    setLoop s1 k fun x => { x with saved := none, ovr := 0 }

/-- A slot's sample (R348 to R350). -/
def sampleLoop (s : State) (k : Nat) : State :=
  let s1 := applyTune s k
  let l := loopAt s1 k
  let m := measure s1 l
  let sp := slew l.sp (setpointSource s1 l) (lf l 13 16 16)
  let saved := some (l.integ, l.df, l.mPrev, l.sp, l.lastOut)
  let upd := fun (x : Loop) => { x with meas := m, sp := sp, saved := saved, samples := x.samples + 1, outDue := true
                                        lastCount := encNow s1 (lf l 0 19 5), lastCountSp := encNow s1 (lf l 0 12 5) }
  match l.mode with
  | .off | .faulted => s1
  | .manual => setLoop s1 k fun x => { upd x with lastOut := slew l.lastOut l.manOut (lf l 13 0 16) }
  | .auto =>
    let r := autoSample l m sp (feedForward s1 l)
    let s2 := setLoop s1 k fun x =>
      { upd x with integ := r.integ, df := r.df, mPrev := r.mPrev, lastOut := r.out, entering := false }
    if r.clamped then count s2 (cnum 8 (36 + k)) else s2

/-- LOOP_SAMPLE (R346, R352): a 25 µs instant; `late` lists the slots whose latest output write has not begun. The samples due
run in slot order. -/
def execLoopSample (late : List Nat) (s : State) : Host.Outcome State Fault Refusal :=
  if !motionRuns s then .next s
  else
    let c := s.mot.instant
    let due := (List.range 32).filter fun k =>
      let l := loopAt s k
      slotLoaded l && c % lf l 1 23 9 == lf l 1 14 9
    let s1 := { s with mot := { s.mot with instant := c + 1, adcRead := [] } }
    .next (due.foldl (fun t k => sampleLoop (settleWrite t k (late.contains k)) k) s1)

end Sys2Proof.Machine
end

