-- ==== Sys2Proof/Machine/Mirror.lean ====
section
/-! DEFINITION. MOTION messages: the gaffer's axis and loop state, and the servitor that holds it (R268, R354 to R357). -/

namespace Sys2Proof.Machine

/-- The fields that travel only when they change (R355), each by its index: 0 LIM_LO, 1 LIM_HI, then the homing fields: 2 DIR,
SWITCH and DEBOUNCE as in AXIS_HOME dword 0, 3 SEEK_V, 4 LATCH_V, 5 HACC, 6 BACKOFF, 7 HOME_POS. -/
def extraFields (a : Axis) : List (Nat × Qword) :=
  [(0, sq a.limLo), (1, sq a.limHi)] ++
  match a.homing with
  | none => []
  | some h =>
    [(2, BitVec.ofNat 64 ((if h.neg then 2 ^ 28 else 0) + h.sw * 2 ^ 26 + h.debounce * 2 ^ 18)), (3, BitVec.ofNat 64 h.seekV),
     (4, BitVec.ofNat 64 h.latchV), (5, BitVec.ofNat 64 h.hacc), (6, BitVec.ofNat 64 h.backoff), (7, sq h.homePos)]

/-- What of them has changed since the partner was last told. -/
def changedFields (s : State) (i : Nat) : List (Nat × Qword) :=
  (extraFields (axisAt s i)).filter fun x => !(mapGet [] s.mot.told i).contains x

/-- The words that carry a changed field (R355). -/
def extraWords (xs : List (Nat × Qword)) : List Qword := xs.flatMap fun x => [BitVec.ofNat 64 (2 ^ 63 + x.1), x.2]

/-- The axes not DISABLED. -/
def liveAxes (s : State) : List Nat := (List.range 8).filter fun i => (axisAt s i).state != .disabled

/-- The data words of a MOTION message (R354 to R356). -/
def motionWords (s : State) : List Qword :=
  ((liveAxes s).flatMap fun i => axisRecord s i ++ extraWords (changedFields s i)) ++
  ((List.range 32).filter fun k => (loopAt s k).mode != .off).flatMap fun k => loopRecord s k

/-- MOTION_SEND (R268, R354). -/
def execMotionSend (s : State) : Host.Outcome State Fault Refusal :=
  if isGaffer s && s.par.enabled && s.par.linkRun then
    let s1 := sendPartner s 6 (motionWords s)
    .next { s1 with mot := { s1.mot with told := mapSetAll [] s1.mot.told ((liveAxes s).map fun i => (i, extraFields (axisAt s i))) } }
  else .next s

/-! At the servitor. -/

/-- The axis state of a code (R325). -/
def axisOfCode : Nat → AxisState
  | 1 => .idle | 2 => .moving | 3 => .table | 4 => .homing | 5 => .velocity | 6 => .follower | 7 => .stalled | _ => .disabled

/-- The loop mode of a code (R350). -/
def loopOfCode : Nat → LoopMode
  | 1 => .manual | 2 => .auto | 3 => .faulted | _ => .off

/-- A homing whose fields have not yet come. -/
def Homing.blank : Homing :=
  { phase := 0, neg := false, sw := 0, debounce := 1, seekV := 0, latchV := 0, hacc := 1, backoff := 0, homePos := 0
    seekCapture := 0, latched := 0, released := none, wasOn := false, stopping := false
    limitSeen := false, toBack := false, aborted := false, atSet := false }

/-- The steps a servitor's step generator counts as gone: a jump no motion makes between two messages leaves no steps (log 165). -/
def mirroredSteps (a : Axis) (pos : Int) : Int :=
  if (wayTo a.pos pos).natAbs ≤ 50 * 65536 then a.stepped else pos / 65536

/-- The axis as its record says (R355): position, motion, limits in force; the feedback offset from the following error; what a
table, move or homing needs to go on from here (R357). -/
def mirrorAxis (s : State) (ws : List Qword) (a : Axis) : Axis :=
  let w := fun (i : Nat) => ws.getD i 0
  let st := axisOfCode (fld (w 0) 57 4)
  let pos := signed 64 (w 1).toNat
  let fe := signed 32 (fld (w 6) 32 32)
  let t := (fld (w 3) 0 64 * 4096 + 999) / 1000
  let tab := st == .table
  let ph := fld (w 0) 52 3
  let h := if st = .homing then some { (a.homing.getD Homing.blank) with phase := ph } else none
  { a with state := st, homed := bitOf (w 0) 56, vlimEn := bitOf (w 0) 55, cur := fld (w 0) 32 16, kfact := fld (w 0) 16 16
           kTarget := fld (w 0) 16 16
           tslot := if tab then fld (w 0) 48 4 else a.tslot, tRepeat := if tab then fld (w 0) 0 16 else a.tRepeat
           prev := a.pos, pos := pos, stepped := mirroredSteps a pos, vel := signed 32 (fld (w 2) 32 32) * 256, acc := signed 32 (fld (w 2) 0 32) * 65536
           target := if tab then a.target else signed 64 (w 3).toNat, ttime := if tab then t else a.ttime
           torigin := if tab then pos - (tableAt (tableOf s (fld (w 0) 48 4)) t).1 else a.torigin
           vmax := fld (w 4) 32 32, amax := fld (w 4) 0 32, dmax := fld (w 5) 32 32, jmax := fld (w 5) 0 32
           sCurve := fld (w 5) 0 32 != 0, fbOffset := if a.cfg.fbCh = 15 then a.fbOffset else pos - fe * 65536 - a.fb
           newMove := st == .moving, tNew := false, plan := [], planT := 0, stopReq := none, stopping := false
           limited := false, homing := h }

/-- A changed field put into the axis (R355). -/
def putExtra (a : Axis) (i : Nat) (w : Qword) : Axis :=
  let hom := fun (f : Homing → Homing) => { a with homing := some (f (a.homing.getD Homing.blank)) }
  match i with
  | 0 => { a with limLo := signed 64 w.toNat }
  | 1 => { a with limHi := signed 64 w.toNat }
  | 2 => hom fun h => { h with neg := bitOf w 28, sw := fld w 26 2, debounce := fld w 18 8 }
  | 3 => hom fun h => { h with seekV := fld w 0 32 }
  | 4 => hom fun h => { h with latchV := fld w 0 32 }
  | 5 => hom fun h => { h with hacc := fld w 0 32 }
  | 6 => hom fun h => { h with backoff := fld w 0 32 }
  | 7 => hom fun h => { h with homePos := signed 64 w.toNat }
  | _ => a

/-- The changed fields that follow a record: each a word whose bit 63 is 1 and bits [62:32] are 0, then its value. -/
def takeExtras : Nat → List Qword → List (Nat × Qword) × List Qword
  | 0, ws => ([], ws)
  | n + 1, ws =>
    match ws with
    | x :: v :: rest =>
      if bitOf x 63 ∧ fld x 32 31 = 0 then
        let (es, more) := takeExtras n rest
        ((fld x 0 32, v) :: es, more)
      else ([], ws)
    | _ => ([], ws)

/-- An axis record of a message: its axis, seven words and changed fields. -/
structure AxisPart where
  axis : Nat
  words : List Qword
  extras : List (Nat × Qword)
deriving DecidableEq, Repr

/-- The axis records of a message that carries those of the axes given, and the words after them. -/
def axisParts : List Nat → List Qword → Option (List AxisPart × List Qword)
  | [], ws => some ([], ws)
  | i :: rest, ws =>
    let w0 := ws.getD 0 0
    if 7 ≤ ws.length ∧ fld w0 61 3 = i ∧ 1 ≤ fld w0 57 4 ∧ fld w0 57 4 ≤ 7 then
      let (es, more) := takeExtras 8 (ws.drop 7)
      (axisParts rest more).map fun r => ({ axis := i, words := ws.take 7, extras := es } :: r.1, r.2)
    else none

/-- Words are loop records, slots ascending from `least`, none OFF (R354, R356). -/
def loopRecords : Nat → List Qword → Bool
  | _, [] => true
  | least, w0 :: _ :: _ :: rest => decide (least ≤ fld w0 59 5 ∧ fld w0 57 2 ≠ 0) && loopRecords (fld w0 59 5 + 1) rest
  | _, _ => false

/-- A MOTION message's axis records and loop records. DEDUCED (log 161): neither is counted in the message; the axes it carries are
the chip's own where it reads so, else the first set of axes it reads as a whole by. -/
def motionParts (s : State) (ws : List Qword) : Option (List AxisPart × List Qword) :=
  let own := (List.range 8).filter fun i => (axisAt s i).cfg.enable
  (own :: (List.range 8).sublists).findSome? fun axes =>
    (axisParts axes ws).filter fun r => loopRecords 0 r.2

/-- A homing axis is ready to go on in its phase, any other has none (R357). -/
def mirroredHoming (a : Axis) : Axis :=
  if a.state = .homing then
    match a.homing with
    | some h => if h.phase = 4 then homingStop a h h.hacc else homingPath a h
    | none => a
  else { a with homing := none }

/-- An axis takes its record; one the message does not carry is DISABLED (R354). -/
def mirrorPart (parts : List AxisPart) (s : State) (i : Nat) : State :=
  match parts.find? fun p => p.axis == i with
  | some p =>
    let a := p.extras.foldl (fun a x => putExtra a x.1 x.2) (mirrorAxis s p.words (axisAt s i))
    emitSteps (setAxis s i fun _ => mirroredHoming a) i
  | none => setAxis s i fun x => { x with state := .disabled, homing := none }

/-- The loop records: a slot takes its mode, overruns, set-point, integrator and output (R356). -/
def mirrorLoops (s : State) : List Qword → State
  | w0 :: w1 :: w2 :: rest =>
    mirrorLoops (setLoop s (fld w0 59 5) fun l =>
      { l with mode := loopOfCode (fld w0 57 2), ovr := fld w0 55 2, sp := signed 32 (fld w0 0 32), integ := signed 64 w1.toNat
               lastOut := signed 32 (fld w2 32 32), outWritten := signed 32 (fld w2 32 32), written := true, outDue := false, saved := none }) rest
  | _ => s

/-- A MOTION message's state, held exactly (R354): a slot it does not carry is OFF. -/
def mirrorMotion (s : State) (ws : List Qword) : State :=
  match motionParts s ws with
  | none => s
  | some (parts, rest) =>
    let s1 := (List.range 8).foldl (mirrorPart parts) s
    let off := s1.mot.loops.map fun l => { l with mode := .off, outDue := false, saved := none }
    mirrorLoops { s1 with mot := { s1.mot with loops := off } } rest

/-- MOTION (R354), held in SHADOW and in SYNCING alike: replaced by the next one, so its loss has no further effect (R269). -/
def execMotion (msg : PMsg) (s : State) : Host.Outcome State Fault Refusal :=
  .next (receive s msg true false fun t => mirrorMotion t msg.words)

end Sys2Proof.Machine
end

