-- ==== Sys2Proof/Machine/Debug.lean ====
section
/-! DEFINITION. The JTAG port and the debug port (R439 to R441, R444, R449). -/

namespace Sys2Proof.Machine

/-- What the JTAG port gives in the present lifecycle, level and power state (R444). -/
inductive DbgMode where
  | n | t | b | o | f
deriving DecidableEq, Repr

/-- The cell of R444's table. -/
def dbgMode (s : State) : DbgMode :=
  if s.pwr.state = .off ∨ s.pins.resetHeld then .n
  else if s.pwr.state = .sleep ∨ s.pwr.state = .save then .t
  else if !bootRunning s then .b
  else match s.sec.debug with
    | .closed => .t
    | .observe => .o
    | .full => .f

/-- The instructions of R440, BYPASS among them. -/
def jtagCodes : List Nat := [0x00, 0x01, 0x02, 0x04, 0x05, 0x10, 0x11, 0xFF]

/-- An instruction permitted in a mode (R444): EXTEST, CLAMP and HIGHZ only before RUNNING. DBG_ACCESS loads in T and B too,
where each access is DENIED. -/
def jtagPermitted (m : DbgMode) (code : Nat) : Bool :=
  code == 0x01 || code == 0x02 || code == 0x11 || code == 0xFF || code == 0x10 ||
  (m == .b && (code == 0x00 || code == 0x04 || code == 0x05))

/-- JTAG_INSTRUCTION (R440, R449): what is not permitted, or no instruction of the list, acts as BYPASS and is counted; without power
the TAP does not respond. -/
def execJtagInstruction (code : BitVec 8) (s : State) : Host.Outcome State Fault Refusal :=
  let m := dbgMode s
  if m = .n then .next s
  else if jtagCodes.contains code.toNat && jtagPermitted m code.toNat then .next { s with sec := { s.sec with jtag := code } }
  else .next (count { s with sec := { s.sec with jtag := 0xFF } } (cnum 11 2))

/-- What Capture-DR loads into the data register of the instruction in force: its length and value (R440, R441). The boundary-scan
register of EXTEST and SAMPLE/PRELOAD is not given: none. -/
def capturedDr (s : State) : Option (Nat × Nat) :=
  match s.sec.jtag.toNat with
  | 0x00 | 0x02 => none
  | 0x01 => some (32, 0x11640A6B)
  | 0x10 => some (96, s.sec.dbgResult * 2 ^ 94 + s.sec.dbgData.toNat)
  | 0x11 => some (8, lifecycle s * 2 ^ 6 + debugCode s.sec.debug * 2 ^ 4 + if bootRunning s then 2 ^ 3 else 0)
  | _ => some (1, 0)

/-- A scan of the data register: what was captured leaves at TDO. -/
def shiftDr (s : State) : State := match capturedDr s with | some x => emit s (.tdo x.1 x.2) | none => s

/-- RESULT of the next Capture-DR: 0 OK, 1 DENIED, 3 POISON (R441). -/
def dbgResult (s : State) (r : Nat) : State := { s with sec := { s.sec with dbgResult := r } }

/-- A DENIED access, counted (R449). -/
def dbgDenied (s : State) : State := count (dbgResult s 1) (cnum 11 2)

/-- A space-1 address the debug port never reaches: region 0, or beyond C_sys (R441). -/
def dramDenied (s : State) (addr : Nat) : Bool :=
  let cs := match s.mem.cfg with | some c => cSysUnits c | none => 0
  decide (addr < 2 ^ 28 ∨ cs * 2 ^ 28 ≤ addr)

/-- ADDR of a DBG_ACCESS register; bits [33:32] are taken as 0. -/
def dbgAddr (reg : BitVec 96) : Nat := fld reg 32 48 / 4 * 4

/-- The dword a space-1 read returns: what the debug port has written there, with the bytes written since; any other is a free value, as
the spec gives no placement of data in DRAM. The read of a poisoned burst is counted (R302). -/
def dramDword (s : State) (addr : Nat) : State :=
  let (s1, v) := drawFree s
  let a := addr / 64 * 64
  let bad := burstPoisoned s a
  let d := (assoc s.mem.debugged addr).getD (BitVec.ofNat 32 v)
  let s2 := { s1 with sec := { s1.sec with dbgResult := if bad then 3 else 0, dbgData := d } }
  if bad then count s2 (cnum 7 15) else s2

/-- A dword written in DRAM by system address: it takes effect at once (R439), and a poisoned burst stays so (R302). -/
def writeDram (s : State) (addr : Nat) (d : Dword) : State :=
  emit { s with mem := { s.mem with debugged := (addr, d) :: s.mem.debugged.filter fun x => x.1 != addr } } (.dramDword addr d)

/-- The dword a space-0 read returns, with the latch that a read of TIM_NSEC makes (R380). -/
def barDword (s : State) (off : Nat) : State :=
  let s1 := if off = 0x1100 then latchTime s else s
  { s1 with sec := { s1.sec with dbgResult := 0, dbgData := bar0Read s off } }

/-- An access takes until some instant within 2 µs, 800 TIME ticks. DESIGN CHOICE (log 169): the spec leaves open which, so it is
free. One that arrives before it is refused with BUSY (R441). -/
def dbgTurn (s : State) (access : State → State) : State :=
  if s.time.clk < s.sec.dbgUntil then dbgResult s 2
  else
    let (s1, v) := drawFree s
    access { s1 with sec := { s1.sec with dbgUntil := s1.time.clk + v % 801 } }

/-- The read of DBG_ACCESS (R441): what each space gives at each level (R439, R444). -/
def dbgRead (m : DbgMode) (space a : Nat) (s : State) : State :=
  if m ≠ .o ∧ m ≠ .f then dbgDenied s
  else match space with
    | 0 => barDword s a
    | 1 => if dramDenied s a then dbgDenied s else dramDword s a
    | 3 =>
      if m = .f ∧ a = 0 then { s with sec := { s.sec with dbgResult := 0, dbgData := if s.sec.halted then 1 else 0 } }
      else dbgDenied s
    | _ => dbgDenied s

/-- DBG_ACCESS_READ (R441): OP 1 with DBG_ACCESS loaded. -/
def execDbgAccessRead (reg : BitVec 96) (s : State) : Host.Outcome State Fault Refusal :=
  let m := dbgMode s
  if m = .n ∨ s.sec.jtag ≠ 0x10 ∨ fld reg 94 2 ≠ 1 then .next s
  else .next (dbgTurn (shiftDr s) (dbgRead m (fld reg 92 2) (dbgAddr reg)))

/-- A debug-port write has been made: nothing is promised of the records from now on (R439). -/
def dbgWrote (s : State) : State := { s with sec := { s.sec with dbgResult := 0, outside := true } }

/-- The write of DBG_ACCESS (R441): a space-0 write acts as the host's; a space-1 write is a dword of DRAM; space 3 halts or resumes
the processor. -/
def dbgWrite (m : DbgMode) (space a : Nat) (d : Dword) (s : State) : State :=
  if m ≠ .f then dbgDenied s
  else match space with
    | 0 => bar0Write (dbgWrote s) a d
    | 1 => if dramDenied s a then dbgDenied s else writeDram (dbgWrote s) a d
    | 3 =>
      if a = 0 then
        let s1 := dbgWrote s
        { s1 with sec := { s1.sec with halted := bitOf d 0 } }
      else dbgDenied s
    | _ => dbgDenied s

/-- DBG_ACCESS_WRITE (R441): OP 2 with DBG_ACCESS loaded. -/
def execDbgAccessWrite (reg : BitVec 96) (s : State) : Host.Outcome State Fault Refusal :=
  let m := dbgMode s
  if m = .n ∨ s.sec.jtag ≠ 0x10 ∨ fld reg 94 2 ≠ 2 then .next s
  else .next (dbgTurn (shiftDr s) (dbgWrite m (fld reg 92 2) (dbgAddr reg) (BitVec.ofNat 32 (fld reg 0 32))))

end Sys2Proof.Machine
end

