-- ==== Sys2Proof/Machine/Observe.lean ====
section
/-! DEFINITION. Quench commands, event log, counters and telemetry (R451 to R465). -/

namespace Sys2Proof.Machine

/-- The codes whose bit is set in a bitmap of 512 bytes: byte c div 8, bit c mod 8 (R454). -/
def bitmapCodes (bs : List Byte) : List Nat :=
  (List.range 4096).filter fun c => (bs.getD (c / 8) 0).getLsbD (c % 8)

/-- A time is later than the counter. -/
def laterThanNow (s : State) (sec nsec : Nat) : Bool :=
  decide (s.time.sec < sec ∨ (s.time.sec = sec ∧ s.time.nsec < nsec))

/-- The compare value of QUENCH_ARM (R454): seconds and nanoseconds. -/
def armTime (e : Entry) : Nat × Nat := (fld (pw e 1) 16 16 * 2 ^ 32 + (pw e 2).toNat, (pw e 3).toNat)

/-- The payload of QUENCH_ARM has the form of R454. -/
def armFormatOk (e : Entry) : Bool :=
  rsvOk e [0xF0000001, 0xFFFF0000, allBits, allBits, allBits, allBits] && decide ((armTime e).2 ≤ 999999999) &&
  (bitOf (pw e 0) 29 || pq e 4 == 0) && (!bitOf (pw e 0) 0 || fld (pw e 0) 28 4 == 0)

/-- The selection of a QUENCH_ARM put in force (R454): it replaces any earlier one and leaves the last snapshot
readable. -/
def armWith (s : State) (e : Entry) (arm : Bool) : State :=
  let ev := if bitOf (pw e 0) 29 then bitmapCodes (hostBytes s (pq e 4) 512) else []
  { s with quench := { s.quench with armed := arm, pinEn := bitOf (pw e 0) 31, timeEn := bitOf (pw e 0) 30
                                     eventEn := bitOf (pw e 0) 29, ceaseOn := bitOf (pw e 0) 28, evMap := ev
                                     cmpSec := (armTime e).1, cmpNsec := (armTime e).2 } }

/-- QUENCH_ARM (R454): a time match must lie ahead. -/
def execQuenchArm (e : Entry) (s : State) : Host.Outcome State Fault Refusal :=
  if bitOf (pw e 0) 0 then .next s
  else .next (command [0x0A01] e (fun _ s =>
    checked s [(!armFormatOk e, stFormat),
               (bitOf (pw e 0) 30 && !laterThanNow s (armTime e).1 (armTime e).2, stOutOfRange),
               (bitOf (pw e 0) 29 && hostReadEnd s (pq e 4) 512 != .ok, stHostReadError)] fun s =>
      okWith (armWith s e true) []) s)

/-- QUENCH_DISARM: QUENCH_ARM with DISARM set (R454). -/
def execQuenchDisarm (e : Entry) (s : State) : Host.Outcome State Fault Refusal :=
  if bitOf (pw e 0) 0 then
    .next (command [0x0A01] e (fun _ s => if armFormatOk e then okWith (armWith s e false) [] else reject s stFormat) s)
  else .next s

/-- QUENCH_FIRE (R451, R452, R454): a trigger, also in the TIME tick of another; else NOT_ARMED while DISARMED. -/
def execQuenchFire (e : Entry) (s : State) : Host.Outcome State Fault Refusal :=
  .next (command [0x0A02] e (fun _ s =>
    checked s [(!rsvOk e [], stFormat)] fun s =>
      if s.quench.armed || joinsQuench s then okWith (fireQuench s 1 0 0) []
      else .done (countLog s (cnum 12 1)) stNotArmed []) s)

/-- QUENCH_PIN (R451): recognised high, where the pin is enabled. -/
def execQuenchPin (s : State) : Host.Outcome State Fault Refusal :=
  if s.quench.pinEn then .next (fireQuench s 8 0 0) else .next s

/-- The dwords of the QCH window, 0x8_0000 to 0xF_FFFF. -/
def windowDws (s : State) : List Dword := (List.range 131072).map fun i => qchRead s (0x80000 + 4 * i)

/-- QUENCH_READ (R456): the window copied to host memory, QSEQ returned. -/
def execQuenchRead (e : Entry) (s : State) : Host.Outcome State Fault Refusal :=
  .next (command [0x0A03] e (fun _ s =>
    checked s [(!rsvOk e [0, 0, allBits, allBits], stFormat), (!s.quench.valid, stNoSnapshot), (s.quench.armed, stBusy)]
      fun s => okWith (hostPutDws s (pq e 2) (windowDws s)) (it s.quench.qseq)) s)

/-- EVENT_READ (R460): the oldest unread entries go to the buffer and are marked read. -/
def execEventRead (e : Entry) (s : State) : Host.Outcome State Fault Refusal :=
  .next (command [0x0A04] e (fun _ s =>
    let n := (pw e 0).toNat
    checked s [(!rsvOk e [allBits, 0, allBits, allBits] || decide (n < 1 ∨ 1024 < n), stFormat)] fun s =>
      let out := s.obs.log.take n
      let s1 := hostPutDws s (pq e 2) (out.flatMap eventDws)
      let s2 := { s1 with obs := { s1.obs with log := s.obs.log.drop n, nRead := s.obs.nRead + out.length } }
      okWith s2 (it out.length ++ it s2.obs.log.length)) s)

/-- EVENT_MASK (R461): the LOG and SIGNAL bitmaps of a 1,024-byte record, 64-byte aligned (R404). -/
def execEventMask (e : Entry) (s : State) : Host.Outcome State Fault Refusal :=
  .next (command [0x0A05] e (fun _ s =>
    checked s [(!rsvOk e [0, 0, allBits, allBits] || pq e 2 % 64 != 0, stFormat),
               (hostReadEnd s (pq e 2) 1024 != .ok, stHostReadError)] fun s =>
      let on := bitmapCodes (hostBytes s (pq e 2) 512)
      okWith { s with obs := { s.obs with logOff := (List.range 4096).filter fun c => !on.contains c
                                          signalOn := bitmapCodes (hostBytes s (pq e 2 + 512) 512) } } []) s)

/-- The numbers `first` to `first + n - 1` that name a counter. -/
def countersIn (first n : Nat) : List Nat := allCounters.filter fun k => decide (first ≤ k ∧ k < first + n)

/-- COUNTER_READ (R463): one dword per number, 0 where there is no counter; reading LNE_PACE_MIN resets it (R109). -/
def execCounterRead (e : Entry) (s : State) : Host.Outcome State Fault Refusal :=
  .next (command [0x0A06] e (fun _ s =>
    let first := (pw e 0).toNat
    let n := (pw e 1).toNat
    checked s [(!rsvOk e [allBits, allBits, allBits, allBits] || decide (n < 1 ∨ 4096 < n) ||
                (countersIn first n).isEmpty, stFormat)] fun s =>
      let vals := (List.range n).map fun i =>
        if counterWidth (first + i) = 0 then 0 else BitVec.ofNat 32 (counterValue s (first + i))
      let s1 := hostPutDws s (pq e 2) vals
      let reset := decide (first ≤ paceMinNum ∧ paceMinNum < first + n)
      okWith { s1 with obs := { s1.obs with paceMin := if reset then 0xFFFF else s.obs.paceMin } } []) s)

/-- The counters in a range cleared, and their COUNT_SAT events re-armed (R463). One that hardware has incremented in the same TIME
tick reads 1 afterwards (R6; the tick as the cycle is a DESIGN CHOICE, log 175). -/
def clearCounters (s : State) (first n : Nat) : State :=
  let hit := fun (k : Nat) => decide (first ≤ k ∧ k < first + n)
  let kept := fun (kv : Nat × Nat) => if !hit kv.1 then some kv else if (freshCounters s).contains kv.1 then some (kv.1, 1) else none
  { s with obs := { s.obs with counters := s.obs.counters.filterMap kept
                               saturated := s.obs.saturated.filter fun k => !hit k
                               paceMin := if hit paceMinNum then 0xFFFF else s.obs.paceMin } }

/-- COUNTER_CLEAR (R463). -/
def execCounterClear (e : Entry) (s : State) : Host.Outcome State Fault Refusal :=
  .next (command [0x0A07] e (fun _ s =>
    let n := (pw e 1).toNat
    checked s [(!rsvOk e [allBits, allBits] || decide (n < 1 ∨ 53248 < n), stFormat)] fun s =>
      okWith (clearCounters s (pw e 0).toNat n) []) s)

/-- The dwords of TELEMETRY_READ (R465): temperatures, Tj, rails, HOLD_MON, PACE, module temperatures. -/
def telemetryDws (s : State) (rails : List Dword) : List Dword :=
  ((List.range 16).flatMap fun i => it (s.pwr.temps.getD i 0)) ++ it s.pwr.tj ++
  ((List.range 8).map fun i => rails.getD i 0) ++ it s.pwr.holdMonMv ++
  ((List.range 40).flatMap fun m => it (s.slices.pace.getD m 0)) ++
  (List.range 640).flatMap fun i => it ((mapGet 0x8000 s.dxl.temps i : Nat) : Int)

/-- TELEMETRY_READ (R465): `rails` are the monitored supplies in mV, in the order of R468. -/
def execTelemetryRead (e : Entry) (rails : List Dword) (s : State) : Host.Outcome State Fault Refusal :=
  .next (command [0x0A08] e (fun _ s =>
    checked s [(!rsvOk e [0, 0, allBits, allBits], stFormat)] fun s =>
      okWith (hostPutDws s (pq e 2) (telemetryDws s rails)) []) s)

/-- RATE_WINDOW (R460): the count of each code restarts. -/
def execRateWindow (s : State) : Host.Outcome State Fault Refusal :=
  .next { s with obs := { s.obs with window := [] }, mem := { s.mem with ueRate := 0 } }

end Sys2Proof.Machine
end

