-- ==== Sys2Proof/Machine/Power.lean ====
section
/-! DEFINITION. Power states, core voltage, SAVE and the keep device, anneal and temperature (R405 to R427, R28, R484). -/

namespace Sys2Proof.Machine

abbrev stPmbusError : Nat := 0x0080
abbrev stNoKeep : Nat := 0x0081
abbrev stNoImage : Nat := 0x0082

/-! Power states (R405 to R409). -/

/-- A change of power state, with its POWER_CHANGED event (R407). -/
def setPower (s : State) (p : PowerState) : State :=
  if s.pwr.state = p then s
  else raise { s with pwr := { s.pwr with state := p } } 0x0A01 (it (powerCode s.pwr.state) ++ it (powerCode p))

/-- An anneal in progress is abandoned: no set is stored (R415, R424). -/
def abandonAnneal (s : State) : State :=
  if s.anneal.running then
    count { s with anneal := { s.anneal with running := false, windowEnd := none } } (cnum 10 3)
  else s

/-- Step outputs stop at once, with no deceleration, and every axis clears HOMED (R414). -/
def stopAxes (s : State) : State :=
  let f := fun (a : Axis) => { a with vel := 0, acc := 0, homed := false, newMove := false, stopping := false, homing := none
                                      stopReq := none, plan := [], planT := 0
                                      loopVel := none, state := if a.state = .disabled then .disabled
                                                               else if a.state = .follower then .follower
                                                               else if a.state = .stalled then .stalled else .idle }
  { s with mot := { s.mot with axes := s.mot.axes.map f } }

/-- Entry to SAVE (R413, R414): the state at the trip is kept, PWR_SAVES counts, the debug level falls (R439), HEALTH
stays low (R260), axes stop and an anneal is abandoned (R415). -/
def enterSave (s : State) (cause : Nat) : State :=
  let p := { s.pwr with saving := true, saveCause := cause, saveFrom := s.pwr.state, saveSec := s.time.sec
                        saveNsec := s.time.nsec, saveClk := s.time.clk, saveGroups := runGroups s
                        saveJoined := joinedModules s }
  let s1 := setPower { s with pwr := p } .save
  let s2 := setDebug (count s1 (cnum 10 0)) .closed 2
  let s3 := abandonAnneal (stopAxes s2)
  { s3 with pins := { s3.pins with healthHigh := false, healthReady := false } }

/-- Every group leaves RUN: module, camera and, where asked, partner transmitters idle (R405). -/
def idleGroups (s : State) (partner : Bool) : State :=
  let s1 := (List.range 44).foldl leaveRun s
  if partner then leaveRun (partnerLinkLost s1) 44 else s1

/-- Entry to SLEEP (R408, R439): every lane stops; with pairing enabled the chip enters SYNCING, but from FAILED (R261). -/
def enterSleep (s : State) : State :=
  let s1 := setDebug (idleGroups (setPower s .sleep) true) .closed 1
  if s.par.enabled ∧ s.par.state ≠ .failed then enterSyncing s1 else s1

/-- Leaving SLEEP (R408, R423): positions, line position and time are stale, every axis leaves with HOMED clear, and one
anneal runs: ANNEAL_DONE brings its outcome. No page is there for its window to meet. DESIGN CHOICE (log 168): the transition
completes while it runs. -/
def leaveSleep (s : State) : State :=
  let s1 := setPower s .parked
  let f := fun (a : Axis) => { a with homed := false }
  { s1 with pwr := { s1.pwr with stale := true }, mot := { s1.mot with axes := s1.mot.axes.map f }
            anneal := { s1.anneal with running := true, granted := false, windowEnd := none } }

/-- POWER_STATE's target (R407). -/
def powerTarget : Nat → Option PowerState
  | 0 => some .print | 1 => some .ready | 2 => some .parked | 3 => some .sleep | 5 => some .off | _ => none

/-- Every axis is IDLE or DISABLED and every loop is OFF (R407). -/
def motionQuiet (s : State) : Bool :=
  (s.mot.axes.all fun a => a.state == .idle || a.state == .disabled) && s.mot.loops.all fun l => l.mode == .off

/-- Pairing is enabled and the chip is GAFFER (R407). -/
def pairedGaffer (s : State) : Bool := s.par.enabled && isGaffer s

/-- The transition table of R407: the checks, in table order, and the effect. -/
def powerMove (r : InFlight) (s : State) (dest : PowerState) : Reply :=
  match s.pwr.state, dest with
  | .ready, .print => okWith (setPower s .print) []
  | .print, .ready => checked s [(anyActive s, stBusy)] fun t => okWith (setPower t .ready) []
  | .ready, .parked => checked s [(s.job.isSome || dropsLeft s, stBusy)] fun t =>
      okWith (idleGroups (setPower t .parked) false) []
  | .parked, .ready => checked s [(!s.mem.ready, stNotReady)] fun t => okWith (setPower t .ready) []
  | .parked, .sleep => checked s [(!motionQuiet s, stBusy), (pairedGaffer s, stState)] fun t => okWith (enterSleep t) []
  | .sleep, .parked => okWith (leaveSleep s) []
  | .ready, .off | .parked, .off | .sleep, .off =>
      checked s [(dropsLeft s, stBusy), (pairedGaffer s, stState)] fun t =>
        let t1 := idleGroups (enterSave t 2) true
        .runs { t1 with pwr := { t1.pwr with offAfter := true } } [opcodeOf r.entry]
  | _, _ => reject s stState

/-- POWER_STATE (R407). -/
def execPowerState (e : Entry) (s : State) : Host.Outcome State Fault Refusal :=
  .next (command [0x0901] e (fun r s =>
    match rsvOk e [0xE0000000], powerTarget (fld (pw e 0) 29 3) with
    | true, some p => if s.pwr.state = p then okWith s [] else powerMove r s p
    | _, _ => reject s stFormat) s)

/-! Core voltage (R410 to R412). -/

/-- The PMBus reads of R410, by their command codes: VOUT_MODE and READ_VOUT (PMBus, log 167). -/
def pmbVoutMode : Nat := 0x20
def pmbReadVout : Nat := 0x8B

/-- The word of VOUT_COMMAND for a voltage in mV, in the regulator's VOUT_MODE format. PRESUMED (PMBus, log 167): in the linear format,
[7:5] 0, a mantissa with the signed exponent [4:0], rounded to the nearest; the other formats have coefficients of the regulator's own,
and their word is a free value. -/
def voutWord (s : State) (mode : BitVec 8) (mv : Nat) : State × Nat :=
  if mode.toNat / 32 = 0 then
    let x := mode.toNat % 32
    (s, if x < 16 then (mv + 500 * 2 ^ x) / (1000 * 2 ^ x) else (mv * 2 ^ (32 - x) + 500) / 1000)
  else
    let (s1, v) := drawFree s
    (s1, v % 65536)

/-- VCORE_SET (R410): a legal VMV not below the voltage of the open job's E2 (R27). VOUT_MODE is read and VOUT_COMMAND written
over PMBus in its format, and the command waits for VOUT_SETTLED; a regulator that does not acknowledge the read of VOUT_MODE ends
it with PMBUS_ERROR. -/
def execVcoreSet (turn : VcoreTurn) (s : State) : Host.Outcome State Fault Refusal :=
  let e := turn.entry
  .next (command [0x0902] e (fun _ s =>
    let v := fld (pw e 0) 0 16
    let low := match s.job with | some j => decide (v < j.vcore) | none => false
    checked s [(!rsvOk e [0xFFFF] || decide (v < 650 ∨ 850 < v ∨ v % 5 ≠ 0), stFormat), (low, stVoltageInUse)]
      fun t =>
        let t1 := emit t (.pmbusRead s.pwr.pmbAddr pmbVoutMode)
        match turn.voutMode with
        | none => reject t1 stPmbusError
        | some m =>
          let (t2, w) := voutWord { t1 with pwr := { t1.pwr with vcoreTarget := v } } m v
          .runs (emitAll t2 [.pmbus s.pwr.pmbAddr w, .pmbusRead s.pwr.pmbAddr pmbReadVout]) [v]) s)

/-- The TIME tick at which a VCORE_SET completes (R411). -/
def vcoreEnds (s : State) : State := { s with pwr := { s.pwr with vcoreAt := some s.time.clk } }

/-- VOUT_SETTLED (R410, R412): within ±10 mV the commanded voltage is set, and a change of more than 20 mV makes an anneal
due; otherwise PMBUS_ERROR, the commanded voltage unchanged. -/
def execVoutSettled (readback : Option Nat) (s : State) : Host.Outcome State Fault Refusal :=
  match runningCmd s 0x0902 with
  | none => .next s
  | some r =>
    let v := r.note.getD 0 0
    match readback with
    | none => .next (finish (vcoreEnds s) r stPmbusError [])
    | some mv =>
      if (mv : Int) - v ≤ 10 ∧ (v : Int) - mv ≤ 10 then
        let big := decide (20 < ((v : Int) - s.pwr.vcore).natAbs)
        let s1 := { s with pwr := { s.pwr with vcore := v, vcoreSet := true, vcoreAt := some s.time.clk }
                           anneal := { s.anneal with due := s.anneal.due || big } }
        .next (finish s1 r stOk [])
      else .next (finish (vcoreEnds s) r stPmbusError [])

/-! SAVE and the keep device (R413 to R420). -/

/-- SUPPLY_SAG (R413, R415): FAILED, SAVE with cause 1, CEASE with cause 1 ahead of idle transmitters, the cameras' among them (none from
SLEEP).
During the SAVE of a POWER_STATE OFF it makes the cause 1. -/
def execSupplySag (s : State) : Host.Outcome State Fault Refusal :=
  match s.pwr.state with
  | .off => .next s
  | .save => .next { s with pwr := { s.pwr with saveCause := 1 } }
  | p =>
    let s1 := raise s 0x0A02 (it (powerCode p))
    let s2 := if p = .sleep then s1 else sendCease s1 1
    let s3 := failChip (enterSave s2 1)
    .next ((List.range 4).foldl (fun t k => leaveRun t (40 + k)) s3)

/-- A section of the keep image: KIND and length in dwords, then its dwords (R419). -/
def section_ (kind : Nat) (ds : List Dword) : List Dword := BitVec.ofNat 32 (kind * 2 ^ 24 + ds.length) :: ds

/-- Sections 1 to 8, which always fit (R419). -/
def keepFixed (s : State) : List Dword :=
  section_ 1 [idDw, s.boot.fwVersion, BitVec.ofNat 32 (lifecycle s), BitVec.ofNat 32 (debugCode s.sec.debug),
              BitVec.ofNat 32 (powerCode s.pwr.saveFrom)] ++
  section_ 2 (itq (lineCounter s) ++ itq s.ftb.lamI ++ it s.ftb.lamF ++ itq (masterPos s) ++ dwordsOf s.ftb.g ++
              it (estimate s) ++ it (if s.ftb.reversed then 1 else 0)) ++
  section_ 3 (it (pairCode s.par.state) ++ it s.par.epoch ++ it (genInForce s (lineCounter s)) ++ it s.tables.curveGen) ++
  section_ 4 (dwordsOf s.time.sec ++ it s.time.nsec ++ it s.time.frac ++ it s.time.adj ++ it (servoCode s.ptp.servo)) ++
  section_ 5 (((List.range 8).filter fun i => (axisAt s i).state != .disabled).flatMap fun i => qdws (axisRecord s i)) ++
  section_ 6 (((List.range 32).filter fun k => (loopAt s k).mode != .off).flatMap fun k => qdws (loopRecord s k)) ++
  section_ 7 ((s.pages.list.filter pageActive).flatMap fun p =>
    [p.id] ++ it (pageCode p.state) ++ itq (p.n0.getD 0)) ++
  section_ 8 (allCounters.map fun k => BitVec.ofNat 32 (counterValue s k))

/-- A section of equal entries cut at an entry boundary to fit `room` dwords; whether it was cut (R419). -/
def fitSection (kind : Nat) (entries : List (List Dword)) (size room : Nat) : List Dword × Bool :=
  if room = 0 then ([], !entries.isEmpty) else
  let n := min entries.length ((room - 1) / size)
  (section_ kind (entries.take n).flatten, decide (n < entries.length))

/-- The image's bytes from offset 64 as dwords, and TRUNC: a cut section leaves the later ones out (R419). -/
def keepBody (s : State) : List Dword × Bool :=
  let fixed := keepFixed s
  let room := 32768 - 16 - fixed.length
  let (c, cut) := fitSection 9 ((s.mem.cullets.drop s.mem.culletRead).map culletDws) 8 room
  if cut then (fixed ++ c, true)
  else
    let (l, cut2) := fitSection 10 (s.obs.log.reverse.map eventDws) 16 (room - c.length)
    (fixed ++ c ++ l, cut2)

/-- A slot is valid: MAGIC and CRC (R418). -/
def slotValid (slot : List Dword) : Bool :=
  let len := (rdw slot 3).toNat
  rdw slot 0 == 0x4B454550 && decide (64 ≤ len ∧ len ≤ 131072) &&
  (rdw slot 7).toNat == crc32d ((slot.drop 16).take ((len - 64) / 4))

/-- SEQ `a` is above SEQ `b`, compared as R154 compares views (R418). -/
def seqAbove (a b : Dword) : Bool := decide (0 < signed 32 (a - b).toNat)

/-- The byte address of a slot: BASE, and 131,072 above it (R418). -/
def slotBase (cfg : List Dword) (one : Bool) : Nat := (rdw cfg 2).toNat + if one then 131072 else 0

/-- A slot's content: what the keep device holds there (R418). -/
def keepSlot (s : State) (one : Bool) : List Dword := mapGet [] s.pwr.keepDev (slotBase s.pwr.keepCfg one / 131072)

/-- A slot's content changed. -/
def setSlot (s : State) (one : Bool) (ds : List Dword) : State :=
  { s with pwr := { s.pwr with keepDev := mapSet [] s.pwr.keepDev (slotBase s.pwr.keepCfg one / 131072) ds } }

/-- Which slot holds the newest valid image, if any (R418). -/
def newestSlot (s : State) : Option Bool :=
  let v0 := slotValid (keepSlot s false)
  let v1 := slotValid (keepSlot s true)
  if v0 && v1 then some (seqAbove (rdw (keepSlot s true) 2) (rdw (keepSlot s false) 2))
  else if v0 then some false else if v1 then some true else none

/-- The whole image with its header (R418). -/
def keepImage (s : State) (body : List Dword) (trunc : Bool) : List Dword :=
  let b := fun (c : Bool) (v : Nat) => if c then v else 0
  let stale := s.pwr.saveFrom == .sleep
  [0x4B454550, BitVec.ofNat 32 (2 ^ 16 + s.pwr.saveCause * 2 ^ 8 + b trunc (2 ^ 7) + b stale (2 ^ 6)),
   BitVec.ofNat 32 s.pwr.keepSeq, BitVec.ofNat 32 (64 + 4 * body.length),
   BitVec.ofNat 32 (s.pwr.saveSec / 2 ^ 32 % 2 ^ 16 * 2 ^ 16), BitVec.ofNat 32 s.pwr.saveSec,
   BitVec.ofNat 32 s.pwr.saveNsec, BitVec.ofNat 32 (crc32d body)] ++ List.replicate 8 0 ++ body

/-! The traffic to the keep device (R416 to R418), with the opcodes and addresses of the power record. -/

/-- A command to the keep device: opcode, then its complement (R416). -/
def xspi (op addrBytes addr dummy : Nat) (data : List Dword) (reads : Nat) : Sent :=
  .xspi { op := op, complement := 255 - op, addrBytes := addrBytes, addr := addr, dummy := dummy, data := data, reads := reads }

/-- The bytes of an address: ADDR4 of the power record (R417). -/
def keepAddrBytes (cfg : List Dword) : Nat := if bitOf (rdw cfg 0) 22 then 4 else 3

/-- One write burst, after the write-enable latch is set (R416). -/
def keepBurst (cfg : List Dword) (addr : Nat) (ds : List Dword) : List Sent :=
  [xspi (fld (rdw cfg 1) 8 8) 0 0 0 [] 0, xspi (fld (rdw cfg 1) 24 8) (keepAddrBytes cfg) addr 0 ds 0]

/-- Dwords written from a byte address in bursts of up to 4,096 bytes (R416). -/
def keepWrites (cfg : List Dword) (addr : Nat) (ds : List Dword) : List Sent :=
  (List.range (cdiv ds.length 1024)).flatMap fun i => keepBurst cfg (addr + 4096 * i) ((ds.drop (1024 * i)).take 1024)

/-- A read of a whole slot. -/
def keepRead (cfg : List Dword) (one : Bool) : Sent :=
  xspi (fld (rdw cfg 1) 16 8) (keepAddrBytes cfg) (slotBase cfg one) (fld (rdw cfg 0) 16 6) [] 131072

/-- The read of the device's SFDP signature (R417): the opcode, address length and dummy cycles of JESD216 (log 166). -/
def sfdpRead : Sent := xspi 0x5A 3 0 8 [] 4

/-- The writes of an image: its contents from slot offset 64 first, its header last (R418). -/
def imageWrites (cfg : List Dword) (one : Bool) (img : List Dword) : List Sent :=
  keepWrites cfg (slotBase cfg one + 64) (img.drop 16) ++ keepWrites cfg (slotBase cfg one) (img.take 16)

/-- The slot a SAVE writes: the one that does not hold the newest valid image (R418). -/
def saveSlot (s : State) : Bool := newestSlot s == some false

/-- The keep write commits the image in the slot that does not hold the newest valid one (R418, R420). -/
def commitImage (s : State) : State :=
  let (body, trunc) := keepBody s
  let img := keepImage s body trunc
  let toOne := saveSlot s
  let s1 := setSlot s toOne img
  raise (emitAll { s1 with pwr := { s1.pwr with keepSeq := (s.pwr.keepSeq + 1) % 2 ^ 32 } }
      (imageWrites s.pwr.keepCfg toOne img)) 0x0A03
    (it s.pwr.keepSeq ++ it (64 + 4 * body.length) ++ it (if trunc then 1 else 0))

/-- SAVE_DONE (R413, R415, R420): the image is committed, or SAVE_FAILED with its cause: 1 no device, 2 write failure.
The SAVE of a POWER_STATE OFF then drives SUPPLY_EN low, CEASE_ACK is no longer driven, and the command completes
(R409, R479). -/
def execSaveDone (written : Bool) (s : State) : Host.Outcome State Fault Refusal :=
  if s.pwr.saving then
    let s1 := if !s.pwr.keepEn then raise s 0x0A04 (it 1) else if written then commitImage s else raise s 0x0A04 (it 2)
    let s2 := { s1 with pwr := { s1.pwr with saving := false } }
    if s.pwr.offAfter then
      let s3 := finishOp s2 0x0901 stOk []
      .next (setPower { s3 with pwr := { s3.pwr with supplyEn := false, offAfter := false }
                                pins := { s3.pins with ceaseAck := false } } .off)
    else .next s2
  else .next s

/-- The xSPI device's SFDP signature (R417). -/
def sfdpSignature : Dword := 0x50444653

/-- The fields and ranges of the power record (R417); its reserved fields are ignored (R5, R36). -/
def powerRecordOk (d : List Dword) : Bool :=
  fld (rdw d 0) 24 8 == 1 &&
  decide (fld (rdw d 0) 16 6 ≤ 31) && (fld (rdw d 0) 8 8 == 0 || fld (rdw d 0) 8 8 == 2) &&
  (rdw d 2).toNat % 131072 == 0 &&
  decide (400 ≤ fld (rdw d 3) 21 11 ∧ fld (rdw d 3) 21 11 ≤ 1200 ∧ 2 ≤ fld (rdw d 3) 8 6 ∧ fld (rdw d 3) 8 6 ≤ 40)

/-- The payload of KEEP_CONFIG uses only ACTION and the address (R417). -/
def keepPayloadOk (e : Entry) : Bool := rsvOk e [3, 0, allBits, allBits]

/-- The SEQ after the newest valid one (R418); 1 with no valid image (log 21). -/
def nextKeepSeq (s : State) : Nat :=
  match newestSlot s with
  | some one => ((rdw (keepSlot s one) 2).toNat + 1) % 2 ^ 32
  | none => 1

/-- KEEP_APPLY_RECORD: KEEP_CONFIG with ACTION 0 reads the device's signature and applies the power record; ACTION 3 is
invalid (R417). -/
def execKeepApplyRecord (e : Entry) (sfdp : Dword) (s : State) : Host.Outcome State Fault Refusal :=
  if fld (pw e 0) 0 2 = 0 ∨ fld (pw e 0) 0 2 = 3 then
    .next (command [0x0904] e (fun _ s =>
      checked s [(!keepPayloadOk e || fld (pw e 0) 0 2 == 3, stFormat)] fun s0 =>
        checked (emit s0 sfdpRead) [(sfdp != sfdpSignature, stNoKeep)] fun s =>
          withRecord s (pq e 2) 8 fun d =>
            if powerRecordOk d then
              let s1 := { s with pwr := { s.pwr with keepCfg := d, keepEn := bitOf (rdw d 0) 23
                                                     holdThr := fld (rdw d 3) 21 11, pmbAddr := fld (rdw d 3) 14 7
                                                     annealDt := fld (rdw d 3) 8 6 } }
              okWith (emitAll { s1 with pwr := { s1.pwr with keepSeq := nextKeepSeq s1 } } [keepRead d false, keepRead d true]) []
            else reject s stFormat) s)
  else .next s

/-- KEEP_READ_IMAGE: ACTION 1 writes the newest valid image to a buffer of 131,072 bytes, or NO_IMAGE (R417). -/
def execKeepReadImage (e : Entry) (s : State) : Host.Outcome State Fault Refusal :=
  if fld (pw e 0) 0 2 = 1 then
    .next (command [0x0904] e (fun _ s =>
      checked s [(!keepPayloadOk e, stFormat)] fun s =>
        match newestSlot s with
        | none => reject s stNoImage
        | some one => okWith (hostPutDws (emit s (keepRead s.pwr.keepCfg one)) (pq e 2)
            ((List.range 32768).map fun i => rdw (keepSlot s one) i)) []) s)
  else .next s

/-- KEEP_CLEAR_SLOTS: ACTION 2 clears MAGIC in both slots (R417). -/
def execKeepClearSlots (e : Entry) (sfdp : Dword) (s : State) : Host.Outcome State Fault Refusal :=
  if fld (pw e 0) 0 2 = 2 then
    .next (command [0x0904] e (fun _ s =>
      checked s [(!keepPayloadOk e, stFormat)] fun s0 =>
        checked (emit s0 sfdpRead) [(sfdp != sfdpSignature, stNoKeep)] fun s =>
          let clear := fun (t : State) (one : Bool) => setSlot t one (modAt (fun _ => 0) (keepSlot t one) 0)
          okWith (emitAll (clear (clear s false) true)
            (keepBurst s.pwr.keepCfg (slotBase s.pwr.keepCfg false) [0] ++
              keepBurst s.pwr.keepCfg (slotBase s.pwr.keepCfg true) [0])) []) s)
  else .next s

/-! Anneal (R422 to R427). -/

/-- ANNEAL_DT in 1/64 °C. -/
def annealStep (s : State) : Int := 64 * (s.pwr.annealDt : Int)

/-- The results are current: some set lies within ANNEAL_DT of Tj (R423). -/
def annealCurrent (s : State) : Bool := s.anneal.sets.any fun a => decide ((a.tj - s.pwr.tj).natAbs ≤ annealStep s)

/-- An anneal is due: the results are not current, or whatever they are after a change of voltage or a failure (R412, R423, R427). -/
def annealDue (s : State) : Bool := s.anneal.due || !annealCurrent s

/-- W of R424, with |ρ| from the speed estimate in 1/1,024 line/s, rounded up. -/
def annealWindow (s : State) : Nat :=
  let rho := (estimate s).natAbs
  cdiv (350 * max (1024 * lDeclOf s) rho) (1024 * 1000000) + 2

/-- The state allows anneals: PRINT to PARKED, once Finbuly runs (R424). -/
def annealState (s : State) : Bool := bootRunning s && (s.pwr.state == .print || s.pwr.state == .ready || s.pwr.state == .parked)

/-- A due anneal may start at line tick `t` (R424): no ADMITTED page unresolved, no firing span in the window, not
inhibited, and no retry time still to come (R427). -/
def annealMayStart (s : State) (t : Int) : Bool :=
  annealDue s && !s.anneal.inhibited && decide (s.anneal.retryAt ≤ s.time.clk) &&
  s.pages.list.all fun p => !(p.state == .admitted && p.n0.isNone) && !spanMeets s p t (annealWindow s)

/-- ANNEAL_START (R424, R426): a granted anneal, or a due one whose window is free, starts at this line tick. One whose
window the line counter has already reached is abandoned. While it runs no tick is projected. -/
def execAnnealStart (s : State) : Host.Outcome State Fault Refusal :=
  let t := lineCounter s
  if s.anneal.running then
    .next (match s.anneal.windowEnd with
      | some w => if w ≤ t then abandonAnneal s else s
      | none => s)
  else if annealState s ∧ (s.anneal.granted ∨ annealMayStart s t) then
    .next { s with anneal := { s.anneal with running := true, granted := false, windowEnd := some (t + annealWindow s) }
                   ftb := { s.ftb with projected := [] } }
  else .next s

/-- ANNEAL_DONE (R422, R426, R427). -/
def execAnnealDone (pass : Bool) (s : State) : Host.Outcome State Fault Refusal :=
  if s.anneal.running then .next (raiseAnneal (annealEnd s pass) pass) else .next s

/-- ANNEAL_GRANT modes 0 and 1: BUSY while a page is ADMITTED or PRINTING or a drop is left to fire; the grant ends an
inhibit (R426). -/
def annealGrant (s : State) (run : Bool) : Reply :=
  checked s [(anyActive s || dropsLeft s, stBusy)] fun t =>
    okWith { t with anneal := { t.anneal with inhibited := false, granted := t.anneal.granted || run } } []

/-- ANNEAL_IF_DUE: mode 0 runs an anneal if one is due; mode 3 is invalid (R426). -/
def execAnnealIfDue (e : Entry) (s : State) : Host.Outcome State Fault Refusal :=
  if fld (pw e 0) 0 2 = 0 ∨ fld (pw e 0) 0 2 = 3 then
    .next (command [0x0903] e (fun _ s =>
      if !rsvOk e [3] || fld (pw e 0) 0 2 == 3 then reject s stFormat else annealGrant s (annealDue s)) s)
  else .next s

/-- ANNEAL_FORCE: mode 1 runs an anneal, due or not (R426). -/
def execAnnealForce (e : Entry) (s : State) : Host.Outcome State Fault Refusal :=
  if fld (pw e 0) 0 2 = 1 then
    .next (command [0x0903] e (fun _ s => if !rsvOk e [3] then reject s stFormat else annealGrant s true) s)
  else .next s

/-- ANNEAL_INHIBIT: mode 2 inhibits automatic anneals until the next grant (R426). -/
def execAnnealInhibit (e : Entry) (s : State) : Host.Outcome State Fault Refusal :=
  if fld (pw e 0) 0 2 = 2 then
    .next (command [0x0903] e (fun _ s =>
      if !rsvOk e [3] then reject s stFormat
      else okWith { s with anneal := { s.anneal with inhibited := true } } []) s)
  else .next s

/-- AIN_RECALIBRATE (R343, R422): the inputs are recalibrated one at a time after an anneal; the one in hand holds its
last code for 20 µs, 8,000 TIME ticks. -/
def execAinRecalibrate (i : Nat) (s : State) : Host.Outcome State Fault Refusal :=
  if s.anneal.ainCal = some i then
    .next { s with anneal := { s.anneal with ainCal := if 3 ≤ i then none else some (i + 1) }
                   mot := { s.mot with ainHold := some (i, s.time.clk + 8000) } }
  else .next s

/-- The sets the calibration in use is interpolated from: the nearest below and above Tj, or the nearest outside (R422). -/
def setsInUse (s : State) : List Nat :=
  let tj := s.pwr.tj
  let nearest := fun (c : AnnealSet → Bool) =>
    (s.anneal.sets.filter c).foldl (fun (acc : Option AnnealSet) a =>
      match acc with
      | none => some a
      | some b => if (a.tj - tj).natAbs < (b.tj - tj).natAbs then some a else some b) none
  let below := nearest fun a => decide (a.tj ≤ tj)
  let above := nearest fun a => decide (tj ≤ a.tj)
  (below.toList ++ above.toList).map AnnealSet.tag

/-- CALIB_RECOMPUTE (R422). -/
def execCalibRecompute (s : State) : Host.Outcome State Fault Refusal :=
  .next { s with anneal := { s.anneal with inUse := setsInUse s } }

/-- Once-per-job key of TJ_ABOVE_DECLARED. -/
def onceTj : Nat := 0x0A06

/-- TJ_ABOVE_DECLARED, once per job, while Tj exceeds the declared T (R28). -/
def reportTj (s : State) : State :=
  match s.job with
  | none => s
  | some j =>
    if 64 * j.tDecl < s.pwr.tj then
      let (new, s1) := onceJob s onceTj
      raiseIf new s1 0x0A06 (itTemp s.pwr.tj ++ it j.tDecl)
    else s

/-- TEMPERATURE_SAMPLE (R28, R423, R484): Tj is the hottest of the sensors, by which an anneal is due or not, and THERM_ALERT_N
is asserted at 110 °C and released below 105 °C. -/
def execTemperatureSample (temps : List Int) (s : State) : Host.Outcome State Fault Refusal :=
  match temps with
  | [] => .next s
  | t :: rest =>
    let tj := rest.foldl max t
    let alert := if 7040 ≤ tj then true else if tj < 6720 then false else s.pwr.thermAlert
    let s1 := { s with pwr := { s.pwr with temps := temps, tj := tj, thermAlert := alert } }
    .next (reportTj s1)

/-- The anneal state POWER_STATUS reports: 0 none due, 1 due, 2 running, 3 FAILED (R427; codes log 22). -/
def annealCode (s : State) : Nat :=
  if 3 ≤ s.anneal.failRuns then 3 else if s.anneal.running then 2 else if annealDue s then 1 else 0

/-- POWER_STATUS (R397): power state, VDD_CORE, Tj, HOLD_MON, anneal state. -/
def execPowerStatus (e : Entry) (s : State) : Host.Outcome State Fault Refusal :=
  .next (command [0x0905] e (fun _ s =>
    if !rsvOk e [] then reject s stFormat
    else okWith s (it (powerCode s.pwr.state) ++ it s.pwr.vcore ++ it s.pwr.tj ++ it s.pwr.holdMonMv ++ it (annealCode s)))
    s)

end Sys2Proof.Machine
end

