-- ==== Sys2Proof/Machine/Security.lean ====
section
/-! DEFINITION. Lifecycle fuses, debug challenge and unlock, security status (R431 to R443, R447). -/

namespace Sys2Proof.Machine

/-- A fuse bit to program. -/
inductive Fuse where
  | owner (i : Nat) | seal_ (i : Nat) | retire_ (i : Nat) | rb (i : Nat)
deriving DecidableEq, Repr

/-- One fuse bit programmed: it only goes from 0 to 1 (R431). -/
def blow (s : State) (f : Fuse) : State :=
  let c := s.sec
  { s with sec := match f with
      | .owner i => { c with ownerHash := c.ownerHash ||| BitVec.ofNat 384 (2 ^ i) }
      | .seal_ i => { c with sealBits := c.sealBits ||| BitVec.ofNat 16 (2 ^ i) }
      | .retire_ i => { c with retireBits := c.retireBits ||| BitVec.ofNat 16 (2 ^ i) }
      | .rb i => { c with rb := c.rb ||| BitVec.ofNat 64 (2 ^ i) } }

/-- Bits are programmed one at a time; an interruption after `stop` bits ends the action with FUSE_INTERRUPTED, otherwise
it completes and raises LIFECYCLE_CHANGED (R435). -/
def programFuses (s : State) (action : Nat) (bits : List Fuse) (stop : Option Nat) : Reply :=
  let n := match stop with | some k => k | none => bits.length
  let s1 := (bits.take n).foldl blow s
  if n < bits.length then .done s1 stFuseInterrupted []
  else okWith (raise s1 0x0B01 (it action ++ it (lifecycle s1) ++ it (rbCount s1))) []

/-- The format of LIFECYCLE_SET (R433): KEY_ADDR is 0 except for SEAL. -/
def lifecycleFormatOk (e : Entry) : Bool :=
  let a := fld (pw e 0) 0 2
  let addr := pq e 2
  rsvOk e [0xFF000003, 0, allBits, allBits] && fld (pw e 0) 24 8 == 0x5A && a != 3 &&
  (if a == 0 then addr % 8 == 0 else addr == 0)

/-- The checks common to every LIFECYCLE_SET (R433). -/
def lifecycleChecks (s : State) (e : Entry) : List (Bool × Nat) :=
  [(!lifecycleFormatOk e, stFormat), (s.pwr.state != .parked, stState)]

/-- Bits of a word that are set in it and clear in the fuses, lowest first. -/
def missingBits {n : Nat} (want have_ : BitVec n) : List Nat :=
  (List.range n).filter fun i => want.getLsbD i && !have_.getLsbD i

/-- SEAL: LIFECYCLE_SET action 0 (and the invalid action 3) programs the owner hash, then the SEAL bits still clear; the
debug level falls at the commit point (R434). -/
def execSeal (e : Entry) (stopAfter : Option Nat) (s : State) : Host.Outcome State Fault Refusal :=
  if fld (pw e 0) 0 2 = 0 ∨ fld (pw e 0) 0 2 = 3 then
    .next (command [0x0907] e (fun _ s =>
      checked s (lifecycleChecks s e) fun s =>
        if hostReadEnd s (pq e 2) 96 ≠ .ok then reject s stHostReadError
        else
          let h := sha384 (hostBytes s (pq e 2) 96)
          checked s [(lifecycle s == 2 || (lifecycle s == 1 && h != s.sec.ownerHash), stState),
                     (s.sec.ownerHash &&& ~~~h != 0, stFuseConflict)] fun s =>
            let bits := (missingBits h s.sec.ownerHash).map Fuse.owner ++
              (missingBits (BitVec.ofNat 16 0xFFFF) s.sec.sealBits).map Fuse.seal_
            programFuses (setDebug s .closed 3) 0 bits stopAfter) s)
  else .next s

/-- RETIRE: action 1, in OPEN, or in SEALED at debug level FULL (R434). -/
def execRetire (e : Entry) (stopAfter : Option Nat) (s : State) : Host.Outcome State Fault Refusal :=
  if fld (pw e 0) 0 2 = 1 then
    .next (command [0x0907] e (fun _ s =>
      let ok := lifecycle s == 0 || (lifecycle s == 1 && s.sec.debug == .full)
      checked s (lifecycleChecks s e ++ [(!ok, stState)]) fun s =>
        programFuses (setDebug s .closed 3) 1
          ((missingBits (BitVec.ofNat 16 0xFFFF) s.sec.retireBits).map Fuse.retire_) stopAfter) s)
  else .next s

/-- ROLLBACK_ADVANCE: action 2 sets RB bits until the count equals the running image's ROLLBACK (R434). -/
def execRollbackAdvance (e : Entry) (stopAfter : Option Nat) (s : State) : Host.Outcome State Fault Refusal :=
  if fld (pw e 0) 0 2 = 2 then
    .next (command [0x0907] e (fun _ s =>
      checked s (lifecycleChecks s e ++ [(lifecycle s == 2, stState),
          (decide (s.boot.imgRollback ≤ rbCount s), stAlreadyDone)]) fun s =>
        programFuses s 2 ((List.range (s.boot.imgRollback - rbCount s)).map fun i => Fuse.rb (rbCount s + i)) stopAfter) s)
  else .next s

/-- The 48 bytes of the n-th nonce (R442). -/
def nonceBytes (n : Nat) : List Byte := beBytes 48 (Config.nonce n).toNat

/-- DEBUG_CHALLENGE (R442): a fresh nonce replaces any challenge outstanding. -/
def execDebugChallenge (e : Entry) (s : State) : Host.Outcome State Fault Refusal :=
  .next (command [0x0908] e (fun _ s =>
    checked s [(!rsvOk e [], stFormat), (s.pwr.state == .sleep, stState)] fun s =>
      let n := s.sec.nonces
      let res := (List.range 12).map fun i => BitVec.ofNat 32 (leNat (((nonceBytes n).drop (4 * i)).take 4))
      okWith { s with sec := { s.sec with nonces := n + 1, challenge := some (n, s.time.clk) } } res) s)

/-- CHALLENGE_LAPSE (R442). -/
def execChallengeLapse (s : State) : Host.Outcome State Fault Refusal :=
  .next { s with sec := { s.sec with challenge := none } }

/-- A debug level by its code. -/
def debugOf : Nat → DebugLevel
  | 0 => .closed | 1 => .observe | _ => .full

/-- A failed raise: counted, reported, and its challenge spent (R442, R443). -/
def unlockFail (s : State) (lvl st : Nat) : Reply :=
  let s1 := { s with sec := { s.sec with fails := min 3 (s.sec.fails + 1), challenge := none } }
  .done (raise (count s1 (cnum 11 0)) 0x0B03 (it lvl ++ it st)) st []

/-- The bytes a response signs: NONCE, UID, LEVEL, lifecycle (R443). -/
def unlockMessage (s : State) (n lvl : Nat) : List Byte :=
  nonceBytes n ++ leBytes 16 Config.uid.toNat ++ [BitVec.ofNat 8 lvl, BitVec.ofNat 8 (lifecycle s)]

/-- The key hash R432 names for a raise: the owner's in SEALED, the service key's in OPEN. -/
def unlockKeyHash (s : State) : BitVec 384 := if lifecycle s = 1 then s.sec.ownerHash else Config.keyHash 2

/-- A raise checked against the outstanding challenge `n` (R443). -/
def unlockChecked (s : State) (e : Entry) (n lvl : Nat) : Reply :=
  if hostReadEnd s (pq e 2) 192 ≠ .ok then reject s stHostReadError
  else
    let key := hostBytes s (pq e 2) 96
    if sha384 key ≠ unlockKeyHash s then unlockFail s lvl stLevelDenied
    else if !ecdsaVerify key (sha384 (unlockMessage s n lvl)) (hostBytes s (pq e 2 + 96) 96) then
      unlockFail s lvl stBadResponse
    else
      okWith (setDebug { s with sec := { s.sec with fails := 0, challenge := none } } (debugOf lvl) 0) []

/-- A raise, decided by the first case of R443 that applies. -/
def unlockRaise (r : InFlight) (s : State) (e : Entry) (lvl : Nat) : Reply :=
  if s.pwr.state = .sleep ∨ lifecycle s = 2 then reject s stState
  else if 3 ≤ s.sec.fails then reject s stDebugLocked
  else if lifecycle s = 0 ∧ lvl = 1 then okWith (setDebug { s with sec := { s.sec with fails := 0 } } .observe 0) []
  else match s.sec.challenge with
    | none => reject s stChallengeStale
    | some (n, _) => if r.seen ≠ s.sec.nonces then reject s stChallengeStale else unlockChecked s e n lvl

/-- DEBUG_UNLOCK (R443). -/
def execDebugUnlock (e : Entry) (s : State) : Host.Outcome State Fault Refusal :=
  .next (command [0x0909] e (fun r s =>
    let lvl := fld (pw e 0) 0 2
    checked s [(!rsvOk e [3, 0, allBits, allBits] || lvl == 3 || pq e 2 % 8 != 0, stFormat)] fun s =>
      if lvl ≤ debugCode s.sec.debug then okWith (setDebug s (debugOf lvl) 0) [] else unlockRaise r s e lvl) s)

/-- SEC_STATUS (R447). -/
def execSecStatus (e : Entry) (s : State) : Host.Outcome State Fault Refusal :=
  .next (command [0x090B] e (fun _ s =>
    if !rsvOk e [] then reject s stFormat
    else
      let b := fun (c : Bool) (v : Nat) => if c then v else 0
      let d4 := lifecycle s * 2 ^ 30 + debugCode s.sec.debug * 2 ^ 28 + b (s.sec.ownerHash != 0) (2 ^ 27)
        + b s.sec.challenge.isSome (2 ^ 26) + s.sec.fails * 2 ^ 24 + rbCount s * 2 ^ 16 + s.boot.imgRollback * 2 ^ 8
        + s.boot.keySlot
      okWith s ([BitVec.ofNat 32 d4, BitVec.ofNat 32 s.sec.authMask.toNat, BitVec.ofNat 32 (s.sec.authMask.toNat / 2 ^ 32)] ++
        (List.range 4).map fun i => BitVec.ofNat 32 (Config.uid.toNat / 2 ^ (32 * i)))) s)

end Sys2Proof.Machine
end

