-- ==== Sys2Proof/Machine/Snapshot.lean ====
section
/-! DEFINITION. The quench snapshot: what every block latches (R453, R455). -/

namespace Sys2Proof.Machine

/-- A flag as a qword. -/
def fq (b : Bool) : Qword := if b then 1 else 0

/-- A number as a qword. -/
def nq (n : Nat) : Qword := BitVec.ofNat 64 n

/-- ENC and FTB (R455). -/
def snapFtb (s : State) : List Qword :=
  let f := s.ftb
  let lev := (List.range 12).foldl (fun a k => match s.encs[k]? with
    | some e => a + (if e.a then 1 else 0) * 2 ^ (3 * k) + (if e.b then 2 else 0) * 2 ^ (3 * k) + (if e.i then 4 else 0) * 2 ^ (3 * k)
    | none => a) 0
  [sq f.lamI, nq f.lamF, sq (estimate s), fq f.reversed, sq f.pmax, nq f.g] ++ (s.encs.map fun e => sq e.pos) ++
  [nq lev, nq f.gears.length] ++ f.gears.flatMap fun g => [sq g.pos, nq g.ratio]

/-- A slice's record in progress: the next of its module-planes in the order of R86. -/
def sliceRecord (s : State) (m : Nat) : Option (Nat × Int) :=
  ((pimsInUse s m).map fun q => (q, nextRecord s m q)).find? fun x =>
    decide (minI64 < handedLine s (mp m x.1)) && sliceTurn s m x.1 x.2

/-- Its web line; the least for none (log 111). -/
def sliceLine (s : State) (m : Nat) : Int := match sliceRecord s m with | some x => x.2 | none => minI64

/-- The line ticks a slice works ahead: from the line counter to the slice deadline of its record in progress, of the 32 it may be
ahead at most. -/
def sliceAhead (s : State) (m : Nat) : Int :=
  match sliceRecord s m with
  | some x => clampI (sliceDeadlineOf s (planeOf m x.1) x.2 - lineCounter s) 0 32
  | none => 0

/-- The pages listed, those that have ended after the others. -/
def pageEntries (s : State) : List Page :=
  let ended := fun (p : Page) => p.state == .done || p.state == .aborted
  (s.pages.list.filter fun p => !ended p) ++ s.pages.list.filter ended

/-- LNE (R455): the slices, LNE_PACE_MIN, and 256 page entries. -/
def snapLne (s : State) : List Qword :=
  ((List.range 40).flatMap fun m => [nq (s.slices.pace.getD m 0), sq (sliceLine s m), sq (sliceAhead s m)]) ++
  [nq s.obs.paceMin] ++
  (List.range 256).flatMap fun i => match (pageEntries s)[i]? with
    | some p => [halves p.id.toNat (pageCode p.state), sq (p.n0.getD 0)]
    | none => [0, 0]

/-- The REFILL last stamped for a module; 0 before any. -/
def lastStamp (s : State) (m : Nat) : Nat :=
  match (s.csc.stamped.filter fun x => x.2.2 == m).getLast? with | some x => x.2.1 | none => 0

/-- The rho last used, a servitor's the one its gaffer sent; 0 before any (R125). -/
def lastRho (s : State) : Nat :=
  match (if servitor s then s.csc.rho else s.csc.heldRho).getLast? with | some x => x.2 | none => 0

/-- CSC (R455). -/
def snapCsc (s : State) : List Qword :=
  let pend := match s.map.pending with | some n => s.map.gens.find? (fun (g : Gen) => g.number == n) | none => none
  let marks := fun (i : Nat) => (List.range 64).foldl (fun a b => if s.csc.marks.contains (64 * i + b) then a + 2 ^ b else a) 0
  [nq (genInForce s (lineCounter s)), nq (match pend with | some g => g.number | none => 0),
   sq (match pend with | some g => g.boundary.getD minI64 | none => 0), nq (lastRho s)] ++
  ((List.range 40).map fun m => nq (lastStamp s m)) ++ (List.range 3).map fun i => nq (marks i)

/-- DXL (R455). A lane's LOS level holds while it has no signal (DOWN, DETECT), its LOL level until it is locked. -/
def snapDxl (s : State) : List Qword :=
  ((List.range 172).flatMap fun i =>
    let l := laneAt s i
    let c := laneCode l.state
    [nq c, nq (l.logical.getD 15), fq (decide (c ≤ 1)), fq (decide (c < 4))]) ++
  ((List.range 40).flatMap fun g =>
    let x := groupAt s g
    [nq x.latency, nq x.accEpoch.toNat] ++ ((List.range 4).map fun q => nq (mapGet 0 s.dxl.lastHeld (mp g q))) ++
    [nq (s.dxl.replay.filter fun r => r.m == g).length]) ++
  [nq s.cease.seq, fq s.cease.inForce] ++ s.asy.cams.map fun c => fq c.aligned.isSome

/-- ASY (R455). -/
def snapAsy (s : State) : List Qword :=
  let due := s.asy.due.foldl (fun a p => a + 2 ^ p) 0
  let b := fun (x : Bool) (v : Nat) => if x then v else 0
  [nq due, nq (b s.asy.censusHold 4 + b s.asy.curveLock 2 + b s.asy.mapLock 1), nq s.tables.curveGen] ++
  s.asy.cams.map fun c => nq (c.lastTrig.getD 0)

/-- PAR (R455). -/
def snapPar (s : State) : List Qword :=
  [nq (pairCode s.par.state), nq s.par.epoch, fq s.pins.roleSel, fq s.par.linkRun, sq (deltaT s)]

/-- MEM (R455). -/
def snapMem (s : State) : List Qword :=
  ((List.range 12).flatMap fun ch =>
    let owed := ((s.mem.ranks.filter fun x => x.ch == ch).map (·.owed)).sum
    let states := (List.range 4).foldl (fun a r => match rankAt s ch r with
      | some x => a + rankCode x.state * 16 ^ r
      | none => a + 15 * 16 ^ r) 0
    [nq (s.mem.reads.filter fun q => q.place.channel == ch).length, nq (queuedOn s ch).length, nq owed, nq states]) ++
  [nq (match s.mem.burnish with | some b => b.pagesDone | none => 0)]

/-- MOT and CTL (R455). -/
def snapMot (s : State) : List Qword :=
  ((List.range 8).flatMap (axisRecord s)) ++ (List.range 32).flatMap (loopRecord s)

/-- TIM (R455). -/
def snapTim (s : State) : List Qword :=
  [nq s.time.sec, nq s.time.nsec, nq s.time.frac, sq s.time.adj, nq (servoCode s.ptp.servo), sq s.ptp.lastOffset]

/-- PWR (R455). -/
def snapPwr (s : State) : List Qword :=
  [nq (powerCode s.pwr.state), nq s.pwr.vcore, sq s.pwr.tj, nq s.pwr.holdMonMv, nq (annealCode s)]

/-- MBX (R455). -/
def snapMbx (s : State) : List Qword := [nq s.mbx.sqHead, nq s.mbx.sqTail, nq s.mbx.inFlight.length, nq s.mbx.cqHead]

/-- A block area's dwords with the dword numbers of the window they stand at. -/
def areaCells (off : Nat) (ws : List Qword) : List (Nat × Dword) :=
  let ds := qdws ws
  (List.range ds.length).map fun i => (off / 4 + i, ds.getD i 0)

/-- The dwords of the snapshot past the header (R455). -/
def snapshotCells (s : State) : List (Nat × Dword) :=
  areaCells 0x80018 [sq (lineCounter s), sq (masterPos s)] ++ areaCells 0x80100 (snapFtb s) ++ areaCells 0x80400 (snapLne s) ++
  areaCells 0x82000 (snapCsc s) ++ areaCells 0x84000 (snapDxl s) ++ areaCells 0x90000 (snapAsy s) ++
  areaCells 0x91000 (snapPar s) ++ areaCells 0x92000 (snapMem s) ++ areaCells 0x93000 (snapMot s) ++
  areaCells 0x94000 (snapTim s) ++ areaCells 0x94100 (snapPwr s) ++ areaCells 0x94200 (snapMbx s) ++
  (s.obs.counters.map fun c => (0xA0000 / 4 + c.1, BitVec.ofNat 32 c.2)) ++
  [(0xA0000 / 4 + paceMinNum, BitVec.ofNat 32 s.obs.paceMin)]

/-- QUENCH_LATCH (R452, R453, R458): at t_q + 100 ns every block latches; VALID reads 1, and QUENCH is logged, with every source of
its TIME tick (DEDUCED, log 194). That event is never a trigger. -/
def execQuenchLatch (s : State) : Host.Outcome State Fault Refusal :=
  if s.quench.latchDue then
    let q := { s.quench with latchDue := false, valid := true, window := mapSetAll 0 [] (snapshotCells s) }
    let s1 := logEvent { s with quench := q } quenchCode (it q.sources ++ it q.qseq ++ itq (lineCounter s))
    .next (satTrigger s s1)
  else .next s

end Sys2Proof.Machine
end

