-- ==== Sys2Proof/Machine/Dispatch.lean ====
section
/-! DEFINITION. One arm per command: the meaning each command of the table has. -/

namespace Sys2Proof.Machine

/-- The effect of one command on everything but the queue. -/
def exec (i : Instr) (s : State) : Host.Outcome State Fault Refusal :=
  match i with
  | .powerOnReset => Sys2Proof.Machine.execPowerOnReset s
  | .resetN => Sys2Proof.Machine.execResetN s
  | .endpointReset => Sys2Proof.Machine.execEndpointReset s
  | .chipReset value => Sys2Proof.Machine.execChipReset value s
  | .bootGo value image => Sys2Proof.Machine.execBootGo value image s
  | .bootVerifyDone => Sys2Proof.Machine.execBootVerifyDone s
  | .bootStartDone => Sys2Proof.Machine.execBootStartDone s
  | .mbxEnable => Sys2Proof.Machine.execMbxEnable s
  | .mbxDisable => Sys2Proof.Machine.execMbxDisable s
  | .doorbell tail ring stores => Sys2Proof.Machine.execDoorbell tail ring stores s
  | .timNsecRead => Sys2Proof.Machine.execTimNsecRead s
  | .registerWrite offset value => Sys2Proof.Machine.execRegisterWrite offset value s
  | .commandFetch => Sys2Proof.Machine.execCommandFetch s
  | .unknownOpcode e => Sys2Proof.Machine.execUnknownOpcode e s
  | .jobOpen e => Sys2Proof.Machine.execJobOpen e s
  | .jobClose e => Sys2Proof.Machine.execJobClose e s
  | .pageLoad e => Sys2Proof.Machine.execPageLoad e s
  | .pageCommit e => Sys2Proof.Machine.execPageCommit e s
  | .pageAbort e => Sys2Proof.Machine.execPageAbort e s
  | .pageStatus e => Sys2Proof.Machine.execPageStatus e s
  | .doffsetSet e => Sys2Proof.Machine.execDoffsetSet e s
  | .xshiftSet e => Sys2Proof.Machine.execXshiftSet e s
  | .webConfig e => Sys2Proof.Machine.execWebConfig e s
  | .encConfig e => Sys2Proof.Machine.execEncConfig e s
  | .gearSet e => Sys2Proof.Machine.execGearSet e s
  | .lineReference e => Sys2Proof.Machine.execLineReference e s
  | .paceSet e => Sys2Proof.Machine.execPaceSet e s
  | .cueConfig e => Sys2Proof.Machine.execCueConfig e s
  | .cueRead e => Sys2Proof.Machine.execCueRead e s
  | .pulseConfig e => Sys2Proof.Machine.execPulseConfig e s
  | .fireTrim e => Sys2Proof.Machine.execFireTrim e s
  | .linkEqLoad e => Sys2Proof.Machine.execLinkEqLoad e s
  | .ceaseClear e => Sys2Proof.Machine.execCeaseClear e s
  | .webStatus e => Sys2Proof.Machine.execWebStatus e s
  | .linkStatus e => Sys2Proof.Machine.execLinkStatus e s
  | .mapPush e => Sys2Proof.Machine.execMapPush e s
  | .curveLoad e => Sys2Proof.Machine.execCurveLoad e s
  | .screenLoad e => Sys2Proof.Machine.execScreenLoad e s
  | .stitchLoad e => Sys2Proof.Machine.execStitchLoad e s
  | .mapRead e => Sys2Proof.Machine.execMapRead e s
  | .assaySetup e => Sys2Proof.Machine.execAssaySetup e s
  | .assayStop e => Sys2Proof.Machine.execAssayStop e s
  | .assayLock e => Sys2Proof.Machine.execAssayLock e s
  | .censusRequest e => Sys2Proof.Machine.execCensusRequest e s
  | .assayResults e => Sys2Proof.Machine.execAssayResults e s
  | .assayPixels e => Sys2Proof.Machine.execAssayPixels e s
  | .memConfig e found => Sys2Proof.Machine.execMemConfig e found s
  | .memRegions e => Sys2Proof.Machine.execMemRegions e s
  | .burnishRun e => Sys2Proof.Machine.execBurnishRun e s
  | .burnishStop e => Sys2Proof.Machine.execBurnishStop e s
  | .memMigrate e => Sys2Proof.Machine.execMemMigrate e s
  | .memRetire turn => Sys2Proof.Machine.execMemRetire turn s
  | .culletRead e => Sys2Proof.Machine.execCulletRead e s
  | .memStatus e => Sys2Proof.Machine.execMemStatus e s
  | .axisConfig e => Sys2Proof.Machine.execAxisConfig e s
  | .axisMove e => Sys2Proof.Machine.execAxisMove e s
  | .axisStop e => Sys2Proof.Machine.execAxisStop e s
  | .axisLimits e => Sys2Proof.Machine.execAxisLimits e s
  | .axisHome e => Sys2Proof.Machine.execAxisHome e s
  | .tableLoad e => Sys2Proof.Machine.execTableLoad e s
  | .tableRun e => Sys2Proof.Machine.execTableRun e s
  | .axisScale e => Sys2Proof.Machine.execAxisScale e s
  | .axisStatus e => Sys2Proof.Machine.execAxisStatus e s
  | .cspiConfig e => Sys2Proof.Machine.execCspiConfig e s
  | .loopConfig e => Sys2Proof.Machine.execLoopConfig e s
  | .loopMode e => Sys2Proof.Machine.execLoopMode e s
  | .loopTune e => Sys2Proof.Machine.execLoopTune e s
  | .loopSetpoint e => Sys2Proof.Machine.execLoopSetpoint e s
  | .loopStatus e => Sys2Proof.Machine.execLoopStatus e s
  | .netConfig e => Sys2Proof.Machine.execNetConfig e s
  | .ptpConfig e => Sys2Proof.Machine.execPtpConfig e s
  | .servoConfig e => Sys2Proof.Machine.execServoConfig e s
  | .timeSet e => Sys2Proof.Machine.execTimeSet e s
  | .timeStep e => Sys2Proof.Machine.execTimeStep e s
  | .timeAdj e => Sys2Proof.Machine.execTimeAdj e s
  | .timeRead e => Sys2Proof.Machine.execTimeRead e s
  | .ptpStatus e => Sys2Proof.Machine.execPtpStatus e s
  | .netStatus e => Sys2Proof.Machine.execNetStatus e s
  | .pairConfig e => Sys2Proof.Machine.execPairConfig e s
  | .roleFound e => Sys2Proof.Machine.execRoleFound e s
  | .pairRejoin e partnerVersion => Sys2Proof.Machine.execPairRejoin e partnerVersion s
  | .rejoinAuto partnerVersion => Sys2Proof.Machine.execRejoinAuto partnerVersion s
  | .pairStatus e => Sys2Proof.Machine.execPairStatus e s
  | .powerState e => Sys2Proof.Machine.execPowerState e s
  | .vcoreSet turn => Sys2Proof.Machine.execVcoreSet turn s
  | .annealIfDue e => Sys2Proof.Machine.execAnnealIfDue e s
  | .annealForce e => Sys2Proof.Machine.execAnnealForce e s
  | .annealInhibit e => Sys2Proof.Machine.execAnnealInhibit e s
  | .keepApplyRecord e sfdp => Sys2Proof.Machine.execKeepApplyRecord e sfdp s
  | .keepReadImage e => Sys2Proof.Machine.execKeepReadImage e s
  | .keepClearSlots e sfdp => Sys2Proof.Machine.execKeepClearSlots e sfdp s
  | .powerStatus e => Sys2Proof.Machine.execPowerStatus e s
  | .ceaseIssue e => Sys2Proof.Machine.execCeaseIssue e s
  | .seal e stopAfter => Sys2Proof.Machine.execSeal e stopAfter s
  | .retire e stopAfter => Sys2Proof.Machine.execRetire e stopAfter s
  | .rollbackAdvance e stopAfter => Sys2Proof.Machine.execRollbackAdvance e stopAfter s
  | .debugChallenge e => Sys2Proof.Machine.execDebugChallenge e s
  | .debugUnlock e => Sys2Proof.Machine.execDebugUnlock e s
  | .moduleAuth e => Sys2Proof.Machine.execModuleAuth e s
  | .secStatus e => Sys2Proof.Machine.execSecStatus e s
  | .quenchArm e => Sys2Proof.Machine.execQuenchArm e s
  | .quenchDisarm e => Sys2Proof.Machine.execQuenchDisarm e s
  | .quenchFire e => Sys2Proof.Machine.execQuenchFire e s
  | .quenchRead e => Sys2Proof.Machine.execQuenchRead e s
  | .eventRead e => Sys2Proof.Machine.execEventRead e s
  | .eventMask e => Sys2Proof.Machine.execEventMask e s
  | .counterRead e => Sys2Proof.Machine.execCounterRead e s
  | .counterClear e => Sys2Proof.Machine.execCounterClear e s
  | .telemetryRead e rails => Sys2Proof.Machine.execTelemetryRead e rails s
  | .dmaReadCompletion addr len outcome => Sys2Proof.Machine.execDmaReadCompletion addr len outcome s
  | .blockStore => Sys2Proof.Machine.execBlockStore s
  | .encCount ch a b edge => Sys2Proof.Machine.execEncCount ch a b edge s
  | .indexRise ch edge => Sys2Proof.Machine.execIndexRise ch edge s
  | .lineTick t => Sys2Proof.Machine.execLineTick t s
  | .heldTickIssue t => Sys2Proof.Machine.execHeldTickIssue t s
  | .pacingTick t => Sys2Proof.Machine.execPacingTick t s
  | .webStill t => Sys2Proof.Machine.execWebStill t s
  | .rateReading t => Sys2Proof.Machine.execRateReading t s
  | .paceReading pace => Sys2Proof.Machine.execPaceReading pace s
  | .cueCapture ch rising edge => Sys2Proof.Machine.execCueCapture ch rising edge s
  | .recordComplete m q n => Sys2Proof.Machine.execRecordComplete m q n s
  | .sliceDeadline m q n => Sys2Proof.Machine.execSliceDeadline m q n s
  | .refillFix => Sys2Proof.Machine.execRefillFix s
  | .schedLate m q n => Sys2Proof.Machine.execSchedLate m q n s
  | .recordRelease m => Sys2Proof.Machine.execRecordRelease m s
  | .overspeed => Sys2Proof.Machine.execOverspeed s
  | .mapApplied => Sys2Proof.Machine.execMapApplied s
  | .generationForm => Sys2Proof.Machine.execGenerationForm s
  | .healthPulse => Sys2Proof.Machine.execHealthPulse s
  | .sentinelLapse which => Sys2Proof.Machine.execSentinelLapse which s
  | .roleSelRise => Sys2Proof.Machine.execRoleSelRise s
  | .roleSelFall => Sys2Proof.Machine.execRoleSelFall s
  | .ceaseN => Sys2Proof.Machine.execCeaseN s
  | .ceaseNRelease => Sys2Proof.Machine.execCeaseNRelease s
  | .ceaseUnconfirmed => Sys2Proof.Machine.execCeaseUnconfirmed s
  | .supplySag => Sys2Proof.Machine.execSupplySag s
  | .saveDone written => Sys2Proof.Machine.execSaveDone written s
  | .quenchPin => Sys2Proof.Machine.execQuenchPin s
  | .quenchLatch => Sys2Proof.Machine.execQuenchLatch s
  | .laneDetect lane => Sys2Proof.Machine.execLaneDetect lane s
  | .polarityCount lane ones => Sys2Proof.Machine.execPolarityCount lane ones s
  | .slipTrial lane trial => Sys2Proof.Machine.execSlipTrial lane trial s
  | .markLock lane logical => Sys2Proof.Machine.execMarkLock lane logical s
  | .groupBringup link => Sys2Proof.Machine.execGroupBringup link s
  | .spareAbsent g => Sys2Proof.Machine.execSpareAbsent g s
  | .los lane => Sys2Proof.Machine.execLos lane s
  | .lol lane markMissing => Sys2Proof.Machine.execLol lane markMissing s
  | .restripeReq g llane cause => Sys2Proof.Machine.execRestripeReq g llane cause s
  | .restripe g llane phys sfn slot => Sys2Proof.Machine.execRestripe g llane phys sfn slot s
  | .restripeSwitch g upstream => Sys2Proof.Machine.execRestripeSwitch g upstream s
  | .mark g body => Sys2Proof.Machine.execMark g body s
  | .held g q rseq nLo => Sys2Proof.Machine.execHeld g q rseq nLo s
  | .resend g q rseq => Sys2Proof.Machine.execResend g q rseq s
  | .status g body => Sys2Proof.Machine.execStatus g body s
  | .mapack g ok unprompted gen => Sys2Proof.Machine.execMapack g ok unprompted gen s
  | .mcrcTimeout g => Sys2Proof.Machine.execMcrcTimeout g s
  | .ehr g cause addr => Sys2Proof.Machine.execEhr g cause addr s
  | .tmdata g offset data => Sys2Proof.Machine.execTmdata g offset data s
  | .temp g sensor value => Sys2Proof.Machine.execTemp g sensor value s
  | .echoRsp g token turn roundTrip => Sys2Proof.Machine.execEchoRsp g token turn roundTrip s
  | .latencyMeasure g => Sys2Proof.Machine.execLatencyMeasure g s
  | .fault g q kind count => Sys2Proof.Machine.execFault g q kind count s
  | .ceased g cseq => Sys2Proof.Machine.execCeased g cseq s
  | .scan k trig pix0 npix deep => Sys2Proof.Machine.execScan k trig pix0 npix deep s
  | .scanend k trig crc words => Sys2Proof.Machine.execScanend k trig crc words s
  | .censusDone plane => Sys2Proof.Machine.execCensusDone plane s
  | .assayMap => Sys2Proof.Machine.execAssayMap s
  | .assayCurves => Sys2Proof.Machine.execAssayCurves s
  | .gen msg => Sys2Proof.Machine.execGen msg s
  | .curves msg => Sys2Proof.Machine.execCurves msg s
  | .page msg => Sys2Proof.Machine.execPage msg s
  | .pageend msg => Sys2Proof.Machine.execPageend msg s
  | .posref msg edgeNear countsSince => Sys2Proof.Machine.execPosref msg edgeNear countsSince s
  | .motion msg => Sys2Proof.Machine.execMotion msg s
  | .tsync msg t4 => Sys2Proof.Machine.execTsync msg t4 s
  | .digest msg => Sys2Proof.Machine.execDigest msg s
  | .block msg => Sys2Proof.Machine.execBlock msg s
  | .locks msg => Sys2Proof.Machine.execLocks msg s
  | .prho tickLo rho => Sys2Proof.Machine.execPrho tickLo rho s
  | .poos m q cause nLo => Sys2Proof.Machine.execPoos m q cause nLo s
  | .ptsync token => Sys2Proof.Machine.execPtsync token s
  | .ptsyncSend => Sys2Proof.Machine.execPtsyncSend s
  | .posrefSend => Sys2Proof.Machine.execPosrefSend s
  | .motionSend => Sys2Proof.Machine.execMotionSend s
  | .locksSend => Sys2Proof.Machine.execLocksSend s
  | .partnerMark role epoch => Sys2Proof.Machine.execPartnerMark role epoch s
  | .partnerDown => Sys2Proof.Machine.execPartnerDown s
  | .partnerUp => Sys2Proof.Machine.execPartnerUp s
  | .memRead turn => Sys2Proof.Machine.execMemRead turn s
  | .writeDrain ch arrived => Sys2Proof.Machine.execWriteDrain ch arrived s
  | .refreshDue ch rank arrived => Sys2Proof.Machine.execRefreshDue ch rank arrived s
  | .dramTempRead ch rank above85 => Sys2Proof.Machine.execDramTempRead ch rank above85 s
  | .burnishDone => Sys2Proof.Machine.execBurnishDone s
  | .migrationStart ch rank => Sys2Proof.Machine.execMigrationStart ch rank s
  | .rankMigrated ch => Sys2Proof.Machine.execRankMigrated ch s
  | .fwReload addr => Sys2Proof.Machine.execFwReload addr s
  | .planningStep => Sys2Proof.Machine.execPlanningStep s
  | .switchSample levels => Sys2Proof.Machine.execSwitchSample levels s
  | .stall ax => Sys2Proof.Machine.execStall ax s
  | .holdCurrent ax => Sys2Proof.Machine.execHoldCurrent ax s
  | .loopSample late => Sys2Proof.Machine.execLoopSample late s
  | .cspiTransfer dev frame => Sys2Proof.Machine.execCspiTransfer dev frame s
  | .ainConversion ain code => Sys2Proof.Machine.execAinConversion ain code s
  | .timeTick => Sys2Proof.Machine.execTimeTick s
  | .sync port src twoStep origin rx correction => Sys2Proof.Machine.execSync port src twoStep origin rx correction s
  | .followUp port src origin correction => Sys2Proof.Machine.execFollowUp port src origin correction s
  | .delayReq port src rx correction => Sys2Proof.Machine.execDelayReq port src rx correction s
  | .delayResp port src rx correction => Sys2Proof.Machine.execDelayResp port src rx correction s
  | .announce port src quality utcOffset => Sys2Proof.Machine.execAnnounce port src quality utcOffset s
  | .arpRequest port target => Sys2Proof.Machine.execArpRequest port target s
  | .frameForward port bytes frame inMac outMac correction => Sys2Proof.Machine.execFrameForward port bytes frame inMac outMac correction s
  | .syncSend => Sys2Proof.Machine.execSyncSend s
  | .announceSend => Sys2Proof.Machine.execAnnounceSend s
  | .delayReqSend txMac => Sys2Proof.Machine.execDelayReqSend txMac s
  | .syncTimeout => Sys2Proof.Machine.execSyncTimeout s
  | .announceTimeout => Sys2Proof.Machine.execAnnounceTimeout s
  | .netLink port up => Sys2Proof.Machine.execNetLink port up s
  | .rateWindow => Sys2Proof.Machine.execRateWindow s
  | .challengeLapse => Sys2Proof.Machine.execChallengeLapse s
  | .temperatureSample temps => Sys2Proof.Machine.execTemperatureSample temps s
  | .annealStart => Sys2Proof.Machine.execAnnealStart s
  | .annealDone pass => Sys2Proof.Machine.execAnnealDone pass s
  | .ainRecalibrate idx => Sys2Proof.Machine.execAinRecalibrate idx s
  | .calibRecompute => Sys2Proof.Machine.execCalibRecompute s
  | .jtagInstruction code => Sys2Proof.Machine.execJtagInstruction code s
  | .dbgAccessRead reg => Sys2Proof.Machine.execDbgAccessRead reg s
  | .dbgAccessWrite reg => Sys2Proof.Machine.execDbgAccessWrite reg s
  | .chkFail lane => Sys2Proof.Machine.execChkFail lane s
  | .stuffingViolation lane => Sys2Proof.Machine.execStuffingViolation lane s
  | .cmdError ch rank recurs => Sys2Proof.Machine.execCmdError ch rank recurs s
  | .frameDiscarded port => Sys2Proof.Machine.execFrameDiscarded port s
  | .refTimeout => Sys2Proof.Machine.execRefTimeout s
  | .powerLoss => Sys2Proof.Machine.execPowerLoss s
  | .voutSettled readback => Sys2Proof.Machine.execVoutSettled readback s

end Sys2Proof.Machine
end

