-- ==== Sys2Proof/Safety.lean ====
section
/-! DEFINITION. The terms in which statements about the block are made: a command's turn, what every step keeps, and
what only ever grows. -/

namespace Sys2Proof.Machine

/-- The mailbox command of entry `e`, in flight as `r`, has reached its commit point and passes the checks every command
makes (R389, R393, R414, R266, R384, R272); `op` is its opcode. -/
abbrev Turn (op : Nat) (e : Entry) (s : State) (r : InFlight) : Prop :=
  opcodeOf e = op ∧ commitRecord s e = some r ∧ commonCheck s r = none

/-- The block goes on from `s` by the command `c`, and the state it reaches has the property `P`. -/
def Answers (c : Instr) (s : State) (P : State → Prop) : Prop := ∃ t, exec c s = .next t ∧ P t

/-- The block's host memory is in its canonical form. -/
abbrev State.hostCanonical (s : State) : Prop := mapWf 0 s.host.bytes = true

/-- The values a waiting TIME_SET sets are the counter's (R364). -/
def TimeChange.legal : TimeChange → Bool
  | .set sec nsec => decide (sec < 2 ^ 48 ∧ nsec < 1000000000)
  | .step _ => true

/-- SEC, NSEC, FRAC and the rate adjustment hold values R364 gives them, and so do the SEC and NSEC that a committed
TIME_SET sets at the next tick boundary (R404). -/
abbrev State.timeLegal (s : State) : Prop :=
  s.time.sec < 2 ^ 48 ∧ s.time.nsec < 1000000000 ∧ s.time.frac < 2 ^ 32 ∧ -8000000 ≤ s.time.adj ∧ s.time.adj ≤ 8000000 ∧
  ∀ c ∈ s.time.due, c.legal = true

/-- The keys of a sparse map rise strictly. -/
abbrev keysRise {α : Type} (m : Sparse α) : Prop := (m.map Prod.fst).Pairwise (· < ·)

/-- The lists of the clusters' next-free ticks hold each cluster row and each module-plane once, in order (R129). -/
abbrev State.bookingsInOrder (s : State) : Prop := keysRise s.csc.nf ∧ keysRise s.csc.nfBase

/-- The mailbox within its bounds: ring indices of 256 entries, and at most 64 commands in flight (R380, R387). -/
abbrev State.mailboxBounded (s : State) : Prop :=
  s.mbx.sqTail < 256 ∧ s.mbx.sqHead < 256 ∧ s.mbx.cqIndex < 256 ∧ s.mbx.inFlight.length ≤ 64

/-- The fixed numbers of the spec's like things: 12 encoder channels, 4 cues, 4 pulse outputs, 172 lanes in 45 groups, 4
cameras, 8 axes, 32 loops, 2 ports; and a log of at most 65,536 unread entries (R148, R167, R170, R177, R320, R346, R361, R460). -/
abbrev State.sized (s : State) : Prop :=
  s.encs.length = 12 ∧ s.cues.length = 4 ∧ s.pulses.length = 4 ∧ s.dxl.lanes.length = 172 ∧ s.dxl.groups.length = 45 ∧
  s.asy.cams.length = 4 ∧ s.mot.axes.length = 8 ∧ s.mot.loops.length = 32 ∧ s.ports.length = 2 ∧ s.obs.log.length ≤ 65536

/-- No fuse bit that is 1 in `s` is 0 in `t` (R431). -/
def FusesGrow (s t : State) : Prop :=
  s.sec.ownerHash &&& t.sec.ownerHash = s.sec.ownerHash ∧ s.sec.sealBits &&& t.sec.sealBits = s.sec.sealBits ∧
  s.sec.retireBits &&& t.sec.retireBits = s.sec.retireBits ∧ s.sec.rb &&& t.sec.rb = s.sec.rb

/-- The cells of a completion entry written at dword-aligned `base`: address `base + i` holds byte `i` of `ds`. -/
def HoldsAt (t : State) (base : Nat) (ds : List Dword) : Prop :=
  ∀ i, i < (dwBytes ds).length → hostByte t ((base + i) % 2 ^ 64) = (dwBytes ds).getD i 0

/-- Each of the commands, where it answers a next state `t` from `s`, leaves `f t`: `s` but for what `f` takes from `t`. -/
def ChangesOnly (cs : List Instr) (s : State) (f : State → State) : Prop := ∀ c ∈ cs, ∀ t, exec c s = .next t → t = f t

/-- The opcode and the entry of a mailbox command. Where the table divides one opcode into rows by a field of the payload,
only the row the entry selects. -/
def mailboxOf : Instr → Option (Nat × Entry)
  | .jobOpen e => some (0x0101, e)
  | .jobClose e => some (0x0102, e)
  | .pageLoad e => some (0x0103, e)
  | .pageCommit e => some (0x0104, e)
  | .pageAbort e => some (0x0105, e)
  | .pageStatus e => some (0x0106, e)
  | .doffsetSet e => some (0x0107, e)
  | .xshiftSet e => some (0x0108, e)
  | .webConfig e => some (0x0109, e)
  | .encConfig e => some (0x010A, e)
  | .gearSet e => some (0x010B, e)
  | .lineReference e => some (0x010C, e)
  | .paceSet e => some (0x010D, e)
  | .cueConfig e => some (0x010E, e)
  | .cueRead e => some (0x010F, e)
  | .pulseConfig e => some (0x0110, e)
  | .fireTrim e => some (0x0111, e)
  | .linkEqLoad e => some (0x0112, e)
  | .ceaseClear e => some (0x0113, e)
  | .webStatus e => some (0x0114, e)
  | .linkStatus e => some (0x0115, e)
  | .mapPush e => some (0x0201, e)
  | .curveLoad e => some (0x0202, e)
  | .screenLoad e => some (0x0203, e)
  | .stitchLoad e => some (0x0204, e)
  | .mapRead e => some (0x0205, e)
  | .assaySetup e => some (0x0301, e)
  | .assayStop e => some (0x0302, e)
  | .assayLock e => some (0x0303, e)
  | .censusRequest e => some (0x0304, e)
  | .assayResults e => some (0x0305, e)
  | .assayPixels e => some (0x0306, e)
  | .memConfig e _ => some (0x0401, e)
  | .memRegions e => some (0x0402, e)
  | .burnishRun e => some (0x0403, e)
  | .burnishStop e => some (0x0404, e)
  | .memMigrate e => some (0x0405, e)
  | .memRetire turn => some (0x0406, turn.entry)
  | .culletRead e => some (0x0407, e)
  | .memStatus e => some (0x0408, e)
  | .axisConfig e => some (0x0501, e)
  | .axisMove e => some (0x0502, e)
  | .axisStop e => some (0x0503, e)
  | .axisLimits e => some (0x0504, e)
  | .axisHome e => some (0x0505, e)
  | .tableLoad e => some (0x0506, e)
  | .tableRun e => some (0x0507, e)
  | .axisScale e => some (0x0508, e)
  | .axisStatus e => some (0x0509, e)
  | .cspiConfig e => some (0x0601, e)
  | .loopConfig e => some (0x0602, e)
  | .loopMode e => some (0x0603, e)
  | .loopTune e => some (0x0604, e)
  | .loopSetpoint e => some (0x0605, e)
  | .loopStatus e => some (0x0606, e)
  | .netConfig e => some (0x0701, e)
  | .ptpConfig e => some (0x0702, e)
  | .servoConfig e => some (0x0703, e)
  | .timeSet e => if bitOf (pw e 0) 0 then none else some (0x0704, e)
  | .timeStep e => if bitOf (pw e 0) 0 then some (0x0704, e) else none
  | .timeAdj e => some (0x0705, e)
  | .timeRead e => some (0x0706, e)
  | .ptpStatus e => some (0x0707, e)
  | .netStatus e => some (0x0708, e)
  | .pairConfig e => some (0x0801, e)
  | .roleFound e => some (0x0802, e)
  | .pairRejoin e _ => some (0x0803, e)
  | .pairStatus e => some (0x0804, e)
  | .powerState e => some (0x0901, e)
  | .vcoreSet turn => some (0x0902, turn.entry)
  | .annealIfDue e => if fld (pw e 0) 0 2 = 0 ∨ fld (pw e 0) 0 2 = 3 then some (0x0903, e) else none
  | .annealForce e => if fld (pw e 0) 0 2 = 1 then some (0x0903, e) else none
  | .annealInhibit e => if fld (pw e 0) 0 2 = 2 then some (0x0903, e) else none
  | .keepApplyRecord e _ => if fld (pw e 0) 0 2 = 0 ∨ fld (pw e 0) 0 2 = 3 then some (0x0904, e) else none
  | .keepReadImage e => if fld (pw e 0) 0 2 = 1 then some (0x0904, e) else none
  | .keepClearSlots e _ => if fld (pw e 0) 0 2 = 2 then some (0x0904, e) else none
  | .powerStatus e => some (0x0905, e)
  | .ceaseIssue e => some (0x0906, e)
  | .seal e _ => if fld (pw e 0) 0 2 = 0 ∨ fld (pw e 0) 0 2 = 3 then some (0x0907, e) else none
  | .retire e _ => if fld (pw e 0) 0 2 = 1 then some (0x0907, e) else none
  | .rollbackAdvance e _ => if fld (pw e 0) 0 2 = 2 then some (0x0907, e) else none
  | .debugChallenge e => some (0x0908, e)
  | .debugUnlock e => some (0x0909, e)
  | .moduleAuth e => some (0x090A, e)
  | .secStatus e => some (0x090B, e)
  | .quenchArm e => if bitOf (pw e 0) 0 then none else some (0x0A01, e)
  | .quenchDisarm e => if bitOf (pw e 0) 0 then some (0x0A01, e) else none
  | .quenchFire e => some (0x0A02, e)
  | .quenchRead e => some (0x0A03, e)
  | .eventRead e => some (0x0A04, e)
  | .eventMask e => some (0x0A05, e)
  | .counterRead e => some (0x0A06, e)
  | .counterClear e => some (0x0A07, e)
  | .telemetryRead e _ => some (0x0A08, e)
  | _ => none

/-- Address `a` lies in the `n` bytes from `base`, addresses wrapping at 64 bits. -/
abbrev inSpan (base n a : Nat) : Prop := (a + 2 ^ 64 - base % 2 ^ 64) % 2 ^ 64 < n

/-- Where a command writes its buffer in host memory, and how many bytes: (0, 0) for one that has no buffer. The lengths for
LINK_STATUS, MEM_STATUS and TELEMETRY_READ are those of the layouts that the model chose (logs 55, 91, 13 and 114). -/
def bufferOf (s : State) : Instr → Nat × Nat
  | .cueRead e => (pq e 2, 32 * ((s.cues.getD (fld (pw e 0) 0 2) CueCh.reset).queue.take (pw e 1).toNat).length)
  | .linkStatus e => (pq e 0, 1440)
  | .mapRead e => (pq e 2, 4 * moduleClusters)
  | .assayResults e => (pq e 2, 199680)
  | .assayPixels e => (pq e 2, match s.asy.setup with
      | some a => 8 * (usedPixels (camCfg a (fld (pw e 0) 0 2))).length
      | none => 0)
  | .culletRead e => (pq e 2, 32 * ((s.mem.cullets.drop s.mem.culletRead).take (fld (pw e 0) 0 7)).length)
  | .memStatus e => (pq e 2, 272)
  | .axisStatus e => (pq e 2, 64)
  | .keepReadImage e => (pq e 2, 131072)
  | .quenchRead e => (pq e 2, 524288)
  | .eventRead e => (pq e 2, 64 * (s.obs.log.take (pw e 0).toNat).length)
  | .counterRead e => (pq e 2, 4 * (pw e 1).toNat)
  | .telemetryRead e _ => (pq e 2, 2824)
  | .burnishDone => match s.mem.burnish with
      | some b => (b.summary, 4 * (burnishSummary s b).length)
      | none => (0, 0)
  | _ => (0, 0)

/-- The commands that may complete a command other than their own entry. -/
def completesOthers : Instr → Bool
  | .pageLoad _ | .pageAbort _ | .pairConfig _ | .roleFound _ | .pairRejoin _ _ | .powerState _ => true
  | _ => false

/-- `s` with all that completing a command may touch taken from `t`: the mailbox's list in flight and completion ring, host
memory, what is sent. -/
def completed (s t : State) : State :=
  { s with mbx := { s.mbx with inFlight := t.mbx.inFlight, cqIndex := t.mbx.cqIndex, cqUnread := t.mbx.cqUnread
                               phase := t.mbx.phase, pba := t.mbx.pba }
           host := { s.host with bytes := t.host.bytes }
           out := t.out }

/-- `s` with all that counting and raising an event may touch taken from `t`: the log and the counters, a quench that the
event triggers, the CEASE that quench may send, the pending bit of a vector, what is sent. -/
def reported (s t : State) : State :=
  { s with obs := { s.obs with log := t.obs.log, seq := t.obs.seq, lostNext := t.obs.lostNext, window := t.obs.window
                               signalDue := t.obs.signalDue, signalAt := t.obs.signalAt, counters := t.obs.counters
                               saturated := t.obs.saturated, freshAt := t.obs.freshAt, fresh := t.obs.fresh }
           quench := { s.quench with armed := t.quench.armed, valid := t.quench.valid, sources := t.quench.sources
                                     ceaseSent := t.quench.ceaseSent, qseq := t.quench.qseq, tqSec := t.quench.tqSec
                                     tqNsec := t.quench.tqNsec, evCode := t.quench.evCode, evSeq := t.quench.evSeq
                                     latchDue := t.quench.latchDue, tqClk := t.quench.tqClk }
           cease := t.cease
           pins := { s.pins with ceaseAck := t.pins.ceaseAck }
           mbx := { s.mbx with pba := t.mbx.pba }
           out := t.out }

end Sys2Proof.Machine
end

