-- ==== Sys2Proof/Certificates/Slice0/Obligations.lean ====
section
/-! DEFINITION. The statements for the provers. -/

open Sys2Proof Sys2Proof.Machine

/-- Resets and boot: POWER_ON_RESET, RESET_N, POWER_LOSS, CHIP_RESET, ENDPOINT_RESET, BOOT_GO, BOOT_VERIFY_DONE,
BOOT_START_DONE (R7, R377, R379, R381, R382, R383, R409, R431, R438, R470, R472, R479). Clauses that rest on choices
of the model, which no rule makes: what a chip reset keeps (log 6) and the reset values no rule gives (log 8);
CHIP_RESET in OFF (log 7); the link ENDPOINT_RESET comes up with (log 182). -/
def Obligations.ResetAndBoot : Prop :=
  ∀ s : State,
    let afresh := fun (held : Bool) (t : State) =>
      t = { State.reset with
        pending := s.pending, host := s.host, out := s.out, free := s.free
        sec := { State.reset.sec with ownerHash := s.sec.ownerHash, sealBits := s.sec.sealBits, retireBits := s.sec.retireBits
                                      rb := s.sec.rb, nonces := s.sec.nonces }
        pwr := { State.reset.pwr with keepDev := s.pwr.keepDev, temps := s.pwr.temps, tj := s.pwr.tj, holdMonMv := s.pwr.holdMonMv }
        pins := { State.reset.pins with ceaseN := s.pins.ceaseN, ceaseAck := !held && s.pins.ceaseN, roleSel := s.pins.roleSel
                                        axSwitch := s.pins.axSwitch, resetHeld := held, driven := !held }
        mbx := { State.reset.mbx with pcieWidth := s.mbx.pcieWidth, pcieMts := s.mbx.pcieMts, maxPayload := s.mbx.maxPayload
                                      maxRead := s.mbx.maxRead } } ∧
      t.boot.state = .waitImage ∧ t.par.state = .syncing ∧ t.pwr.state = .parked ∧ t.job = none ∧ t.mbx.inFlight = [] ∧
      t.mem.ready = false ∧ t.time.sec = 0 ∧ t.time.nsec = 0 ∧ t.time.frac = 0
    Answers .powerOnReset s (afresh false) ∧ Answers .resetN s (afresh s.pins.resetHeld) ∧ Answers .powerLoss s (afresh true) ∧
    (∀ v : Dword, fld v 0 8 = 0xA5 → s.pwr.state ≠ .off → s.pins.resetHeld = false → Answers (.chipReset v) s (afresh false)) ∧
    (∀ v : Dword, fld v 0 8 ≠ 0xA5 ∨ s.pwr.state = .off ∨ s.pins.resetHeld = true → exec (.chipReset v) s = .next s) ∧
    Answers .endpointReset s (fun t =>
      t.mbx.enable = false ∧ (∀ r ∈ t.mbx.inFlight, r.discard = true) ∧
      t.mbx.inFlight.map (fun r => r.entry) = s.mbx.inFlight.map (fun r => r.entry) ∧ t = { s with mbx := t.mbx, free := t.free } ∧
      t.mbx.pcieWidth ∈ [4, 8, 16] ∧ t.mbx.pcieMts ∈ [2500, 5000, 8000, 16000, 32000] ∧
      t.mbx.maxPayload ∈ [128, 256, 512] ∧ t.mbx.maxRead ∈ [128, 256, 512, 1024, 2048, 4096]) ∧
    (∀ (v : Dword) (image : List Byte), acceptsImage s = true → bitOf v 31 = true →
      Answers (.bootGo v image) s (fun t => t.boot.state = .verifying ∧ t.boot.cause = 0 ∧
        t.boot.image = image ++ s.boot.image.drop image.length ∧ t.boot.imageLen = fld v 0 24)) ∧
    (s.boot.state = .verifying → Answers .bootVerifyDone s (fun t =>
      (verifyCause s = none → t.boot.state = .starting ∧ t.boot.cause = 0) ∧
      (∀ c : Nat, verifyCause s = some c → t.boot.state = .refused ∧ t.boot.cause = c))) ∧
    (s.boot.state = .starting →
      Answers .bootStartDone s (fun t => t.boot.state = .running ∧ t.boot.cause = 0 ∧ t.pwr.state = .parked ∧
        t.boot.fwVersion = imageDw s 2))

/-- The mailbox and the direct registers: MBX_ENABLE, MBX_DISABLE, DOORBELL, TIM_NSEC_READ, REGISTER_WRITE,
COMMAND_FETCH, UNKNOWN_OPCODE, HEALTH_PULSE (R260, R266, R380, R381, R382, R385, R386, R387, R388, R393). Clauses that
rest on choices of the model, which no rule makes: a register that responds once Finbuly has run goes on responding in
RELOAD_REQUIRED (log 170); a latch of FAILED comes before the unknown opcode (log 11); which vectors are programmed
(log 9). -/
def Obligations.MailboxRings : Prop :=
  ∀ s : State,
    (bootRunning s = true → s.mbx.inFlight = [] →
      Answers .mbxEnable s (fun t => t.mbx.enable = true ∧ t.mbx.sqTail = 0 ∧ t.mbx.sqHead = 0 ∧ t.mbx.cqHead = 0 ∧
        t.mbx.phase = true ∧ t.mbx.inFlight = [] ∧ t = { s with mbx := t.mbx })) ∧
    (hasRun s = true →
      exec .mbxDisable s = .next { s with mbx := { s.mbx with enable := false } }) ∧
    (∀ (tail : Dword) (ring : List RingStore) (stores : List Host.Cell), bootRunning s = true → s.mbx.sqTail < 256 →
      Answers (.doorbell tail ring stores) s (fun t =>
        t.mbx.sqTail = tail.toNat % 256 ∧
        t = { s with mbx := { s.mbx with sqTail := t.mbx.sqTail, ring := t.mbx.ring },
                     host := { s.host with bytes := mapSetAll 0 s.host.bytes stores } } ∧
        (∀ (i : Nat) (w : RingStore), i < 256 →
          (i + 256 - s.mbx.sqTail) % 256 < (tail.toNat % 256 + 256 - s.mbx.sqTail) % 256 →
          ring.reverse.find? (fun x => x.index % 256 == i) = some w →
          { index := i, entry := w.entry, latch := s.par.state, epoch := BitVec.ofNat 32 s.par.epoch,
            seen := s.sec.nonces } ∈ t.mbx.ring))) ∧
    (hasRun s = true →
      exec .timNsecRead s = .next { s with time := { s.time with latched := s.time.sec } }) ∧
    (∀ v : Dword, s.pins.resetHeld = false →
      exec (.registerWrite 0x14 v) s = .next { s with mbx := { s.mbx with scratch := v } } ∧
      (hasRun s = true →
        exec (.registerWrite 0x10C v) s = .next { s with mbx := { s.mbx with
          cqHead := v.toNat % 256, cqUnread := s.mbx.cqUnread - (v.toNat % 256 + 256 - s.mbx.cqHead) % 256 } } ∧
        exec (.registerWrite 0x118 v) s = .next { s with mbx := { s.mbx with
          cqBase := BitVec.ofNat 64 (s.mbx.cqBase.toNat / 2 ^ 32 * 2 ^ 32 + v.toNat / 64 * 64) } } ∧
        exec (.registerWrite 0x11C v) s = .next { s with mbx := { s.mbx with
          cqBase := BitVec.ofNat 64 (v.toNat * 2 ^ 32 + s.mbx.cqBase.toNat % 2 ^ 32) } })) ∧
    (∀ (k : Nat) (v : Dword), s.pins.resetHeld = false → k < 128 →
      Answers (.registerWrite (0x2000 + 4 * k) v) s (fun t => t.mbx.msix = mapSet 0 s.mbx.msix k v ∧
        t = { s with mbx := { s.mbx with msix := t.mbx.msix, pba := t.mbx.pba }, out := t.out } ∧
        (s.mbx.pba.getLsbD (k / 4) = false → t.mbx.pba = s.mbx.pba ∧ t.out = s.out))) ∧
    (∀ x : RingSlot, mayFetch s = true → s.mbx.ring.find? (fun y => y.index == s.mbx.sqHead) = some x →
      exec .commandFetch s = .next { s with mbx := { s.mbx with
        sqHead := (s.mbx.sqHead + 1) % 256
        inFlight := s.mbx.inFlight ++ [{ entry := x.entry, latch := x.latch, epoch := x.epoch, seen := x.seen,
                                         committed := false, discard := false, note := [] }] } }) ∧
    (∀ (e : Entry) (r : InFlight), assigned (opcodeOf e) = false → commitRecord s e = some r →
      exec (.unknownOpcode e) s = .next (finish s r (if r.latch = .failed then stState else stUnknownOpcode) [])) ∧
    (s.par.state ≠ .failed → s.pwr.state ≠ .save → s.pwr.state ≠ .off → s.pins.resetHeld = false →
      exec .healthPulse s = .next { s with pins := { s.pins with healthHigh := true },
                                           out := .health s.pins.healthReady :: s.out })

/-- QUENCH_ARM/DISARM/FIRE/READ/PIN, EVENT_READ/MASK, COUNTER_READ/CLEAR, TELEMETRY_READ and RATE_WINDOW answer the
stated next state (R6, R451, R452, R454, R456, R460, R461, R463, R465). Clauses that rest on choices of the model,
which no rule makes: a time is range checked only with TIME_EN (log 115); the TIME tick as the cycle of R6 and of R452
(log 175); the layout of the window (log 111) and of telemetry (logs 13, 114); counter numbers (logs 14, 130) and
COUNTER_CLEAR with none (log 113); RATE_WINDOW as the passing of 1 s (log 131). -/
def Obligations.QuenchAndObservation : Prop :=
  ∀ (e : Entry) (s : State) (r : InFlight),
    (Turn 0x0A01 e s r → bitOf (pw e 0) 0 = false → armFormatOk e = true →
      (bitOf (pw e 0) 30 = true → laterThanNow s (armTime e).1 (armTime e).2 = true) →
      (bitOf (pw e 0) 29 = true → hostReadEnd s (pq e 4) 512 = .ok) →
      exec (.quenchArm e) s = .next (finish { s with quench := { s.quench with
        armed := true, pinEn := bitOf (pw e 0) 31, timeEn := bitOf (pw e 0) 30, eventEn := bitOf (pw e 0) 29,
        ceaseOn := bitOf (pw e 0) 28, cmpSec := (armTime e).1, cmpNsec := (armTime e).2,
        evMap := if bitOf (pw e 0) 29 then bitmapCodes (hostBytes s (pq e 4) 512) else [] } } r stOk [])) ∧
    (Turn 0x0A01 e s r → bitOf (pw e 0) 0 = true → armFormatOk e = true →
      exec (.quenchDisarm e) s = .next (finish { s with quench := { s.quench with
        armed := false, pinEn := false, timeEn := false, eventEn := false, ceaseOn := false, cmpSec := (armTime e).1,
        cmpNsec := (armTime e).2, evMap := [] } } r stOk [])) ∧
    (Turn 0x0A02 e s r → rsvOk e [] = true → s.quench.armed = true ∨ joinsQuench s = true →
      exec (.quenchFire e) s = .next (finish (fireQuench s 1 0 0) r stOk [])) ∧
    (Turn 0x0A03 e s r → rsvOk e [0, 0, allBits, allBits] = true → s.quench.valid = true → s.quench.armed = false →
      exec (.quenchRead e) s = .next (finish (hostPutDws s (pq e 2)
        ((List.range 131072).map fun i => qchRead s (0x80000 + 4 * i))) r stOk [BitVec.ofNat 32 s.quench.qseq])) ∧
    (Turn 0x0A04 e s r → rsvOk e [allBits, 0, allBits, allBits] = true → 1 ≤ (pw e 0).toNat → (pw e 0).toNat ≤ 1024 →
      exec (.eventRead e) s = .next (finish { s with
          obs := { s.obs with log := s.obs.log.drop (pw e 0).toNat,
                              nRead := s.obs.nRead + min (pw e 0).toNat s.obs.log.length },
          host := (hostPutDws s (pq e 2) ((s.obs.log.take (pw e 0).toNat).flatMap eventDws)).host } r stOk
        [BitVec.ofNat 32 (min (pw e 0).toNat s.obs.log.length), BitVec.ofNat 32 (s.obs.log.length - (pw e 0).toNat)])) ∧
    (Turn 0x0A05 e s r → rsvOk e [0, 0, allBits, allBits] = true → pq e 2 % 64 = 0 →
      hostReadEnd s (pq e 2) 1024 = .ok →
      ∃ off on : List Nat, exec (.eventMask e) s = .next (finish { s with obs := { s.obs with logOff := off, signalOn := on } } r
          stOk []) ∧
        (∀ c, c < 4096 → (c ∈ off ↔ (hostByte s ((pq e 2 + c / 8) % 2 ^ 64)).getLsbD (c % 8) = false) ∧
          (c ∈ on ↔ (hostByte s ((pq e 2 + 512 + c / 8) % 2 ^ 64)).getLsbD (c % 8) = true))) ∧
    (Turn 0x0A06 e s r → rsvOk e [allBits, allBits, allBits, allBits] = true → 1 ≤ (pw e 1).toNat →
      (pw e 1).toNat ≤ 4096 → countersIn (pw e 0).toNat (pw e 1).toNat ≠ [] →
      exec (.counterRead e) s = .next (finish { s with
          obs := { s.obs with paceMin :=
            if (pw e 0).toNat ≤ paceMinNum ∧ paceMinNum < (pw e 0).toNat + (pw e 1).toNat then 0xFFFF else s.obs.paceMin },
          host := (hostPutDws s (pq e 2) ((List.range (pw e 1).toNat).map fun i =>
            if counterWidth ((pw e 0).toNat + i) = 0 then 0
            else BitVec.ofNat 32 (counterValue s ((pw e 0).toNat + i)))).host } r stOk [])) ∧
    (Turn 0x0A07 e s r → rsvOk e [allBits, allBits] = true → 1 ≤ (pw e 1).toNat → (pw e 1).toNat ≤ 53248 →
      ∃ o : Obs, exec (.counterClear e) s = .next (finish { s with obs := o } r stOk []) ∧ o.log = s.obs.log ∧
        (∀ kv ∈ o.counters, kv.1 < (pw e 0).toNat ∨ (pw e 0).toNat + (pw e 1).toNat ≤ kv.1 ∨
          (kv.2 = 1 ∧ kv.1 ∈ freshCounters s)) ∧
        (∀ kv ∈ s.obs.counters, kv.1 ∈ freshCounters s → (pw e 0).toNat ≤ kv.1 → kv.1 < (pw e 0).toNat + (pw e 1).toNat →
          (kv.1, 1) ∈ o.counters) ∧
        (∀ kv ∈ s.obs.counters, kv.1 < (pw e 0).toNat ∨ (pw e 0).toNat + (pw e 1).toNat ≤ kv.1 → kv ∈ o.counters) ∧
        (∀ k ∈ o.saturated, k < (pw e 0).toNat ∨ (pw e 0).toNat + (pw e 1).toNat ≤ k)) ∧
    (∀ rails : List Dword, Turn 0x0A08 e s r → rsvOk e [0, 0, allBits, allBits] = true →
      exec (.telemetryRead e rails) s = .next (finish (hostPutDws s (pq e 2) (telemetryDws s rails)) r stOk [])) ∧
    exec .rateWindow s = .next { s with obs := { s.obs with window := [] }, mem := { s.mem with ueRate := 0 } } ∧
    (s.quench.pinEn = true → exec .quenchPin s = .next (fireQuench s 8 0 0))

/-- POWER_STATE makes each transition of the table whose conditions hold; SUPPLY_SAG and SAVE_DONE take the chip
through SAVE (R405, R407, R408, R409, R413, R414, R416, R418, R439). Clauses that rest on choices of the model, which
no rule makes: a transition out of SLEEP completes while its anneal runs (log 168); which move raises what, and
POWER_STATE OFF runs until SAVE_DONE (log 125); how the keep device is held (log 166). -/
def Obligations.PowerTransitions : Prop :=
  ∀ (e : Entry) (s : State) (r : InFlight),
    let goes := fun (p : PowerState) => Answers (.powerState e) s (fun t => ∃ u : State, t = finish u r stOk [] ∧ u.pwr.state = p)
    (Turn 0x0901 e s r → rsvOk e [0xE0000000] = true → powerTarget (fld (pw e 0) 29 3) = some s.pwr.state →
      exec (.powerState e) s = .next (finish s r stOk [])) ∧
    (Turn 0x0901 e s r → rsvOk e [0xE0000000] = true → s.pwr.state = .ready → fld (pw e 0) 29 3 = 0 → goes .print) ∧
    (Turn 0x0901 e s r → rsvOk e [0xE0000000] = true → s.pwr.state = .print → fld (pw e 0) 29 3 = 1 →
      anyActive s = false → goes .ready) ∧
    (Turn 0x0901 e s r → rsvOk e [0xE0000000] = true → s.pwr.state = .ready → fld (pw e 0) 29 3 = 2 →
      s.job = none → dropsLeft s = false → goes .parked) ∧
    (Turn 0x0901 e s r → rsvOk e [0xE0000000] = true → s.pwr.state = .parked → fld (pw e 0) 29 3 = 1 →
      s.mem.ready = true → goes .ready) ∧
    (Turn 0x0901 e s r → rsvOk e [0xE0000000] = true → s.pwr.state = .parked → fld (pw e 0) 29 3 = 3 →
      motionQuiet s = true → pairedGaffer s = false → goes .sleep) ∧
    (Turn 0x0901 e s r → rsvOk e [0xE0000000] = true → s.pwr.state = .sleep → fld (pw e 0) 29 3 = 2 → goes .parked) ∧
    (Turn 0x0901 e s r → rsvOk e [0xE0000000] = true → s.pwr.state = .ready ∨ s.pwr.state = .parked ∨ s.pwr.state = .sleep →
      fld (pw e 0) 29 3 = 5 → dropsLeft s = false → pairedGaffer s = false →
      Answers (.powerState e) s (fun t => ∃ u : State, t = commitRunning u r [opcodeOf r.entry] ∧ u.pwr.state = .save ∧
        u.pwr.offAfter = true ∧ u.pwr.saving = true ∧ u.pwr.saveCause = 2 ∧ u.pwr.saveFrom = s.pwr.state)) ∧
    (s.pwr.state ≠ .save → s.pwr.state ≠ .off →
      Answers .supplySag s (fun t => t.pwr.state = .save ∧ t.pwr.saving = true ∧ t.pwr.saveCause = 1 ∧ t.pwr.saveGroups = runGroups s ∧
        t.pwr.saveFrom = s.pwr.state ∧ t.pwr.saveSec = s.time.sec ∧ t.pwr.saveNsec = s.time.nsec ∧ t.par.state = .failed ∧
        t.pins.healthHigh = false ∧ (∀ a ∈ t.mot.axes, a.homed = false ∧ a.vel = 0))) ∧
    (∀ written : Bool, s.pwr.saving = true →
      Answers (.saveDone written) s (fun t => t.pwr.saving = false ∧
        (s.pwr.offAfter = true → t.pwr.state = .off ∧ t.pwr.supplyEn = false) ∧
        (s.pwr.offAfter = false → t.pwr.state = s.pwr.state) ∧
        (s.pwr.keepEn = true → written = true → newestSlot s = some false →
          keepSlot t false = keepSlot s false ∧ keepSlot t true = keepImage s (keepBody s).1 (keepBody s).2) ∧
        (s.pwr.keepEn = true → written = true → newestSlot s ≠ some false →
          keepSlot t true = keepSlot s true ∧ keepSlot t false = keepImage s (keepBody s).1 (keepBody s).2) ∧
        (s.pwr.keepEn = true → written = true → ∃ later : List Sent, t.out = later ++ (imageWrites s.pwr.keepCfg (saveSlot s)
          (keepImage s (keepBody s).1 (keepBody s).2)).reverse ++ s.out) ∧
        (s.pwr.keepEn = false ∨ written = false →
          t.pwr.keepDev = s.pwr.keepDev)))

/-- Core voltage, keep device, anneal and temperature: VCORE_SET to TEMPERATURE_SAMPLE and POWER_STATUS complete with
their effect (R343, R397, R410, R412, R417, R418, R422, R423, R424, R426, R427, R484). Clauses that rest on choices of
the model, which no rule makes: PMBus command codes and the linear VOUT_MODE format (log 167); the SFDP read and how
the keep device is held (log 166); the layout of POWER_STATUS (log 13) and its anneal codes (log 22); a word of
VOUT_COMMAND that is free where VOUT_MODE is not linear (log 167). -/
def Obligations.PowerAndAnneal : Prop :=
  ∀ (e : Entry) (s : State) (r : InFlight),
    (Turn 0x0902 e s r → rsvOk e [0xFFFF] = true → 650 ≤ fld (pw e 0) 0 16 → fld (pw e 0) 0 16 ≤ 850 →
      fld (pw e 0) 0 16 % 5 = 0 → (∀ j, s.job = some j → j.vcore ≤ fld (pw e 0) 0 16) →
      (exec (.vcoreSet ⟨e, none⟩) s = .next (finish { s with out := .pmbusRead s.pwr.pmbAddr pmbVoutMode :: s.out } r
        stPmbusError [])) ∧
      (∀ m : BitVec 8, exec (.vcoreSet ⟨e, some m⟩) s = .next (commitRunning { s with
        pwr := { s.pwr with vcoreTarget := fld (pw e 0) 0 16 }
        free := if m.toNat / 32 = 0 then s.free else s.free + 1
        out := .pmbusRead s.pwr.pmbAddr pmbReadVout :: .pmbus s.pwr.pmbAddr (voutWord s m (fld (pw e 0) 0 16)).2 ::
          .pmbusRead s.pwr.pmbAddr pmbVoutMode :: s.out } r [fld (pw e 0) 0 16])) ∧
      (∀ x : BitVec 8, x.toNat < 16 →
        (voutWord s x (fld (pw e 0) 0 16)).2 = (fld (pw e 0) 0 16 + 500 * 2 ^ x.toNat) / (1000 * 2 ^ x.toNat))) ∧
    (∀ mv v : Nat, runningCmd s 0x0902 = some r → r.note = [v] → mv ≤ v + 10 → v ≤ mv + 10 →
      exec (.voutSettled (some mv)) s = .next (finish { s with
        pwr := { s.pwr with vcore := v, vcoreSet := true, vcoreAt := some s.time.clk },
        anneal := { s.anneal with due := s.anneal.due || decide (v + 20 < s.pwr.vcore ∨ s.pwr.vcore + 20 < v) } } r stOk [])) ∧
    (Turn 0x0904 e s r → fld (pw e 0) 0 2 = 0 → keepPayloadOk e = true → hostReadEnd s (pq e 2) 32 = .ok →
      powerRecordOk (hostDws s (pq e 2) 8) = true →
      Answers (.keepApplyRecord e sfdpSignature) s (fun t => ∃ p : Pwr,
        t = finish { s with pwr := p, out := keepRead (hostDws s (pq e 2) 8) true :: keepRead (hostDws s (pq e 2) 8) false ::
          sfdpRead :: s.out } r stOk [] ∧ p.keepCfg = hostDws s (pq e 2) 8 ∧
        p.keepEn = bitOf (rdw (hostDws s (pq e 2) 8) 0) 23 ∧ p.holdThr = fld (rdw (hostDws s (pq e 2) 8) 3) 21 11 ∧
        p.pmbAddr = fld (rdw (hostDws s (pq e 2) 8) 3) 14 7 ∧ p.annealDt = fld (rdw (hostDws s (pq e 2) 8) 3) 8 6 ∧
        p.state = s.pwr.state ∧ p.keepDev = s.pwr.keepDev)) ∧
    (∀ one : Bool, Turn 0x0904 e s r → fld (pw e 0) 0 2 = 1 → keepPayloadOk e = true → newestSlot s = some one →
      exec (.keepReadImage e) s = .next (finish (hostPutDws { s with out := keepRead s.pwr.keepCfg one :: s.out } (pq e 2)
        ((List.range 32768).map fun i => rdw (keepSlot s one) i)) r stOk [])) ∧
    (Turn 0x0904 e s r → fld (pw e 0) 0 2 = 2 → keepPayloadOk e = true →
      Answers (.keepClearSlots e sfdpSignature) s (fun t => ∃ (p : Pwr) (sent : List Sent),
        t = finish { s with pwr := p, out := sent ++ s.out } r stOk [] ∧
        sent.reverse = sfdpRead :: (keepBurst s.pwr.keepCfg (slotBase s.pwr.keepCfg false) [0] ++
          keepBurst s.pwr.keepCfg (slotBase s.pwr.keepCfg true) [0]) ∧
        (∀ one : Bool, rdw (keepSlot t one) 0 = 0 ∧ (keepSlot t one).drop 1 = (keepSlot s one).drop 1) ∧ newestSlot t = none)) ∧
    (Turn 0x0903 e s r → fld (pw e 0) 0 2 = 0 → rsvOk e [3] = true → anyActive s = false → dropsLeft s = false →
      exec (.annealIfDue e) s = .next (finish { s with anneal := { s.anneal with
        inhibited := false, granted := s.anneal.granted || annealDue s } } r stOk [])) ∧
    (Turn 0x0903 e s r → fld (pw e 0) 0 2 = 1 → rsvOk e [3] = true → anyActive s = false → dropsLeft s = false →
      exec (.annealForce e) s = .next (finish { s with anneal := { s.anneal with
        inhibited := false, granted := true } } r stOk [])) ∧
    (Turn 0x0903 e s r → fld (pw e 0) 0 2 = 2 → rsvOk e [3] = true →
      exec (.annealInhibit e) s = .next (finish { s with anneal := { s.anneal with
        inhibited := true } } r stOk [])) ∧
    (s.anneal.running = false → annealState s = true → s.anneal.granted = true ∨ annealMayStart s (lineCounter s) = true →
      exec .annealStart s = .next { s with
        anneal := { s.anneal with running := true, granted := false, windowEnd := some (lineCounter s + annealWindow s) }
        ftb := { s.ftb with projected := [] } }) ∧
    (s.anneal.running = true →
      Answers (.annealDone true) s (fun t => t.anneal.running = false ∧ t.anneal.due = false ∧ t.anneal.failRuns = 0 ∧
        t.anneal.sets = storeSet s.anneal.sets { tj := s.pwr.tj, tag := s.anneal.taken } ∧ t.anneal.ainCal = some 0) ∧
      Answers (.annealDone false) s (fun t => t.anneal.running = false ∧ t.anneal.due = true ∧
        t.anneal.failRuns = s.anneal.failRuns + 1 ∧ t.anneal.sets = s.anneal.sets)) ∧
    (∀ i : Nat, s.anneal.ainCal = some i →
      Answers (.ainRecalibrate i) s (fun t => t.mot.ainHold = some (i, s.time.clk + 8000) ∧
        (i < 3 → t.anneal.ainCal = some (i + 1)) ∧ (3 ≤ i → t.anneal.ainCal = none))) ∧
    exec .calibRecompute s = .next { s with anneal := { s.anneal with inUse := setsInUse s } } ∧
    (∀ (x : Int) (rest : List Int), Answers (.temperatureSample (x :: rest)) s (fun t => t.pwr.temps = x :: rest ∧
      t.pwr.tj = rest.foldl max x ∧ (7040 ≤ rest.foldl max x → t.pwr.thermAlert = true) ∧
      (rest.foldl max x < 6720 → t.pwr.thermAlert = false))) ∧
    (Turn 0x0905 e s r → rsvOk e [] = true → ∃ res : List Dword, exec (.powerStatus e) s = .next (finish s r stOk res) ∧
      res.take 2 = [BitVec.ofNat 32 (powerCode s.pwr.state), BitVec.ofNat 32 s.pwr.vcore])

/-- Lifecycle and debug commands: SEAL, RETIRE, ROLLBACK_ADVANCE, DEBUG_CHALLENGE, CHALLENGE_LAPSE, DEBUG_UNLOCK,
SEC_STATUS complete with their effect (R432, R433, R434, R435, R439, R442, R443, R447). -/
def Obligations.LifecycleAndDebug : Prop :=
  ∀ (e : Entry) (s : State) (r : InFlight),
    let done := fun (c : Instr) (P : State → Prop) => Answers c s (fun t => ∃ u : State, t = finish u r stOk [] ∧ P u)
    (Turn 0x0907 e s r → lifecycleFormatOk e = true → fld (pw e 0) 0 2 = 0 → s.pwr.state = .parked →
      hostReadEnd s (pq e 2) 96 = .ok → lifecycle s = 0 →
      s.sec.ownerHash &&& ~~~(sha384 (hostBytes s (pq e 2) 96)) = 0 →
      done (.seal e none) (fun u => u.sec.ownerHash = sha384 (hostBytes s (pq e 2) 96) ∧ u.sec.sealBits = 0xFFFF ∧
        u.sec.retireBits = s.sec.retireBits ∧ u.sec.rb = s.sec.rb ∧ u.sec.debug = .closed)) ∧
    (Turn 0x0907 e s r → lifecycleFormatOk e = true → fld (pw e 0) 0 2 = 1 → s.pwr.state = .parked →
      lifecycle s = 0 ∨ (lifecycle s = 1 ∧ s.sec.debug = .full) →
      done (.retire e none) (fun u => u.sec.retireBits = 0xFFFF ∧ u.sec.sealBits = s.sec.sealBits ∧
        u.sec.ownerHash = s.sec.ownerHash ∧ u.sec.rb = s.sec.rb ∧ u.sec.debug = .closed)) ∧
    (Turn 0x0907 e s r → lifecycleFormatOk e = true → fld (pw e 0) 0 2 = 2 → s.pwr.state = .parked → lifecycle s ≠ 2 →
      rbCount s < s.boot.imgRollback →
      done (.rollbackAdvance e none) (fun u => u.sec.retireBits = s.sec.retireBits ∧ u.sec.sealBits = s.sec.sealBits ∧
        u.sec.ownerHash = s.sec.ownerHash ∧ ∀ i, i < 64 → (u.sec.rb.getLsbD i = true ↔
          s.sec.rb.getLsbD i = true ∨ (rbCount s ≤ i ∧ i < s.boot.imgRollback)))) ∧
    (∀ k : Nat, Turn 0x0907 e s r → lifecycleFormatOk e = true → fld (pw e 0) 0 2 = 2 → s.pwr.state = .parked →
      lifecycle s ≠ 2 → rbCount s + k < s.boot.imgRollback →
      Answers (.rollbackAdvance e (some k)) s (fun t => ∃ u : State, t = finish u r stFuseInterrupted [] ∧
        ∀ i, i < 64 → (u.sec.rb.getLsbD i = true ↔
          s.sec.rb.getLsbD i = true ∨ (rbCount s ≤ i ∧ i < rbCount s + k)))) ∧
    (Turn 0x0908 e s r → rsvOk e [] = true → s.pwr.state ≠ .sleep →
      Answers (.debugChallenge e) s (fun t => ∃ res : List Dword, res.length = 12 ∧
        t = finish { s with sec := { s.sec with nonces := s.sec.nonces + 1,
                                                challenge := some (s.sec.nonces, s.time.clk) } } r stOk res)) ∧
    exec .challengeLapse s = .next { s with sec := { s.sec with challenge := none } } ∧
    (Turn 0x0909 e s r → rsvOk e [3, 0, allBits, allBits] = true → fld (pw e 0) 0 2 ≠ 3 → pq e 2 % 8 = 0 →
      fld (pw e 0) 0 2 ≤ debugCode s.sec.debug →
      done (.debugUnlock e) (fun u => debugCode u.sec.debug = fld (pw e 0) 0 2 ∧ u.sec.challenge = s.sec.challenge)) ∧
    (Turn 0x0909 e s r → rsvOk e [3, 0, allBits, allBits] = true → fld (pw e 0) 0 2 = 1 → pq e 2 % 8 = 0 →
      s.sec.debug = .closed → lifecycle s = 0 → s.pwr.state ≠ .sleep → s.sec.fails < 3 →
      done (.debugUnlock e) (fun u => u.sec.debug = .observe ∧ u.sec.fails = 0)) ∧
    (Turn 0x090B e s r → rsvOk e [] = true →
      ∃ res : List Dword, res.length = 7 ∧ exec (.secStatus e) s = .next (finish s r stOk res))

/-- The debug port: JTAG_INSTRUCTION, DBG_ACCESS_READ, DBG_ACCESS_WRITE, and QUENCH_LATCH (R439, R440, R441, R444,
R449, R452, R453, R458). Clauses that rest on choices of the model, which no rule makes: what an unlisted instruction
does and a misaligned ADDR (log 109); how long an access takes (log 169); the latch of a read (log 110); the layout of
the snapshot (log 111); QUENCH is logged as the snapshot is latched (log 194). -/
def Obligations.DebugPort : Prop :=
  ∀ s : State,
    (∀ code : BitVec 8, dbgMode s ≠ .n → jtagCodes.contains code.toNat = true → jtagPermitted (dbgMode s) code.toNat = true →
      exec (.jtagInstruction code) s = .next { s with sec := { s.sec with jtag := code } }) ∧
    (∀ code : BitVec 8, dbgMode s ≠ .n → jtagCodes.contains code.toNat = false ∨ jtagPermitted (dbgMode s) code.toNat = false →
      exec (.jtagInstruction code) s = .next (count { s with sec := { s.sec with jtag := 0xFF } } (cnum 11 2))) ∧
    (∀ reg : BitVec 96, dbgMode s ≠ .n → s.sec.jtag = 0x10 → s.time.clk < s.sec.dbgUntil →
      let u : State := { s with sec := { s.sec with dbgResult := 2 }
                                out := .tdo 96 (s.sec.dbgResult * 2 ^ 94 + s.sec.dbgData.toNat) :: s.out }
      (fld reg 94 2 = 1 → exec (.dbgAccessRead reg) s = .next u) ∧ (fld reg 94 2 = 2 → exec (.dbgAccessWrite reg) s = .next u)) ∧
    (∀ reg : BitVec 96, dbgMode s = .o ∨ dbgMode s = .f → s.sec.jtag = 0x10 → s.sec.dbgUntil ≤ s.time.clk →
      fld reg 94 2 = 1 → fld reg 92 2 = 0 →
      Answers (.dbgAccessRead reg) s (fun t => t.sec.dbgData = bar0Read s (dbgAddr reg) ∧ t.sec.dbgResult = 0 ∧
        t.sec.halted = s.sec.halted)) ∧
    (∀ reg : BitVec 96, dbgMode s = .t ∨ dbgMode s = .b → s.sec.jtag = 0x10 → s.sec.dbgUntil ≤ s.time.clk →
      fld reg 94 2 = 1 →
      Answers (.dbgAccessRead reg) s (fun t => t.sec.dbgResult = 1 ∧ t.sec.dbgData = s.sec.dbgData)) ∧
    (∀ reg : BitVec 96, dbgMode s = .f → s.sec.jtag = 0x10 → s.sec.dbgUntil ≤ s.time.clk →
      fld reg 94 2 = 2 → fld reg 92 2 = 3 → dbgAddr reg = 0 →
      Answers (.dbgAccessWrite reg) s (fun t => t.sec.halted = reg.getLsbD 0 ∧ t.sec.dbgResult = 0 ∧
        t = { s with sec := t.sec, free := t.free, out := t.out })) ∧
    (∀ reg : BitVec 96, dbgMode s = .f → s.sec.jtag = 0x10 → s.sec.dbgUntil ≤ s.time.clk →
      fld reg 94 2 = 2 → fld reg 92 2 = 0 → dbgAddr reg = 0x14 →
      Answers (.dbgAccessWrite reg) s (fun t => t.mbx.scratch = BitVec.ofNat 32 (fld reg 0 32) ∧ t.sec.dbgResult = 0)) ∧
    (∀ reg : BitVec 96, dbgMode s = .o → s.sec.jtag = 0x10 → s.sec.dbgUntil ≤ s.time.clk →
      fld reg 94 2 = 2 →
      Answers (.dbgAccessWrite reg) s (fun t => t.sec.dbgResult = 1 ∧ t.sec.halted = s.sec.halted)) ∧
    (∀ reg : BitVec 96, Answers (.dbgAccessWrite reg) s (fun t =>
      let own : Sec := { s.sec with dbgResult := t.sec.dbgResult, dbgUntil := t.sec.dbgUntil, outside := t.sec.outside
                                    halted := t.sec.halted }
      (fld reg 92 2 ≠ 0 →
        t = { reported s t with sec := own, mem := { s.mem with debugged := t.mem.debugged }, free := t.free }) ∧
      (fld reg 92 2 = 0 → dbgAddr reg ≠ 0x18 →
        t = { reported s t with sec := own, boot := t.boot, mbx := t.mbx, free := t.free }))) ∧
    (s.quench.latchDue = true → s.quench.armed = false →
      Answers .quenchLatch s (fun t =>
        t = { reported s t with quench := { s.quench with latchDue := false, valid := true
                                                          window := mapSetAll 0 [] (snapshotCells s) } } ∧
        (s.obs.logOff.contains quenchCode = false → s.obs.log.length < 65536 → mapGet 0 s.obs.window quenchCode < 10000 →
          ∃ ev : Event, t.obs.log = s.obs.log ++ [ev] ∧ ev.code = quenchCode ∧
            ev.payload = it s.quench.sources ++ it s.quench.qseq ++ itq (lineCounter s))))

/-- TIME_TICK, TIME_SET, TIME_STEP, TIME_ADJ and TIME_READ answer the stated next state (R364, R365, R366, R404, R408,
R451). Clauses that rest on choices of the model, which no rule makes: the layout of TIME_READ's result (log 13); a
TIME_SET that has committed waits in SLEEP (log 188); the row TIME_TICK as one tick (log 131). -/
def Obligations.TimeCommands : Prop :=
  ∀ (e : Entry) (s : State) (r : InFlight),
    let sum := 2 ^ 32 * s.time.nsec + s.time.frac + timeInc s.time.adj
    (s.pwr.state ≠ .sleep → s.time.due = [] → Answers .timeTick s (fun t =>
      (sum < 1000000000 * 2 ^ 32 → t.time.sec = s.time.sec ∧ t.time.nsec = sum / 2 ^ 32 % 2 ^ 32 ∧ t.time.frac = sum % 2 ^ 32) ∧
      (1000000000 * 2 ^ 32 ≤ sum → t.time.sec = (s.time.sec + 1) % 2 ^ 48 ∧
        t.time.nsec = (sum - 1000000000 * 2 ^ 32) / 2 ^ 32 % 2 ^ 32 ∧ t.time.frac = (sum - 1000000000 * 2 ^ 32) % 2 ^ 32) ∧
      t.time.adj = s.time.adj ∧ t.time.clk = s.time.clk + 1 ∧ t.time.due = [] ∧ t.time.marks = s.time.marks ∧
      t = { reported s t with time := t.time, ports := t.ports })) ∧
    (∀ sec nsec : Nat, s.pwr.state ≠ .sleep → s.time.due = [.set sec nsec] → Answers .timeTick s (fun t =>
      t.time.sec = sec ∧ t.time.nsec = nsec ∧ t.time.frac = 0 ∧ t.time.adj = s.time.adj ∧ t.time.clk = s.time.clk + 1 ∧
      t.time.due = [] ∧ (∀ x, runningCmd s 0x0704 = some x → t.mbx.inFlight = s.mbx.inFlight.erase x))) ∧
    (∀ d : Int, s.pwr.state ≠ .sleep → s.time.due = [.step d] → sum < 1000000000 * 2 ^ 32 → Answers .timeTick s (fun t =>
      ((t.time.sec * 1000000000 + t.time.nsec : Nat) : Int) % (2 ^ 48 * 1000000000) =
        ((s.time.sec * 1000000000 + sum / 2 ^ 32 % 2 ^ 32 : Nat) + d) % (2 ^ 48 * 1000000000) ∧
      t.time.nsec < 1000000000 ∧ t.time.sec < 2 ^ 48 ∧ t.time.frac = sum % 2 ^ 32 ∧ t.time.adj = s.time.adj ∧
      t.time.due = [] ∧ (∀ x, runningCmd s 0x0704 = some x → t.mbx.inFlight = s.mbx.inFlight.erase x))) ∧
    (s.pwr.state = .sleep → exec .timeTick s = .next s) ∧
    (Turn 0x0704 e s r → bitOf (pw e 0) 0 = false → rsvOk e [1, 0xFFFF, allBits, allBits] = true →
      (pw e 3).toNat ≤ 999999999 → servoActive s = false →
      exec (.timeSet e) s = .next (commitRunning { s with time := { s.time with
        due := s.time.due ++ [.set (fld (pw e 1) 0 16 * 2 ^ 32 + (pw e 2).toNat) (pw e 3).toNat] } } r [])) ∧
    (Turn 0x0704 e s r → bitOf (pw e 0) 0 = true → rsvOk e [1, 0, 0, 0, allBits, allBits] = true →
      (pqS e 4).natAbs < 2 ^ 62 → servoActive s = false →
      exec (.timeStep e) s = .next (commitRunning { s with time := { s.time with
        due := s.time.due ++ [.step (pqS e 4)] } } r [])) ∧
    (Turn 0x0705 e s r → rsvOk e [allBits] = true → (signed 32 (pw e 0).toNat).natAbs ≤ 8000000 → servoActive s = false →
      ∃ marks : List TimeMark, exec (.timeAdj e) s = .next (finish { s with time := { s.time with
        adj := signed 32 (pw e 0).toNat, marks := marks } } r stOk []) ∧
      { clk := s.time.clk, sec := s.time.sec, nsec := s.time.nsec, frac := s.time.frac, adj := s.time.adj } ∈ marks) ∧
    (Turn 0x0706 e s r → rsvOk e [] = true → exec (.timeRead e) s = .next (finish s r stOk
      [BitVec.ofInt 32 ((s.time.sec / 2 ^ 32 : Nat) : Int), BitVec.ofInt 32 s.time.sec, BitVec.ofInt 32 s.time.nsec,
       BitVec.ofInt 32 s.time.frac, BitVec.ofInt 32 s.time.adj, BitVec.ofInt 32 (servoCode s.ptp.servo)]))

/-- Ethernet ports: NET_CONFIG, NET_STATUS, NET_LINK, FRAME_DISCARDED, ARP_REQUEST, FRAME_FORWARD (R361, R362, R363,
R367, R370, R374, R376). Clauses that rest on choices of the model, which no rule makes: the layout of NET_STATUS (log
13); FORMAT before BUSY in NET_CONFIG (log 33); what corrects the stamps of a forwarded frame (log 34). -/
def Obligations.EthernetPorts : Prop :=
  ∀ (e : Entry) (s : State) (r : InFlight),
    (Turn 0x0701 e s r → rsvOk e [0xF000FFFF, allBits, allBits, allBits] = true →
      (s.ptp.role = 0 ∨ s.ptp.port ≠ fld (pw e 0) 31 1) → s.ports.length = 2 →
      Answers (.netConfig e) s (fun t => ∃ ps : List Port, t = finish { s with ports := ps } r stOk [] ∧
        ∀ p, p < 2 → if p = fld (pw e 0) 31 1 then
          ps.getD p Port.reset = { portAt s p with
            configured := true, enable := bitOf (pw e 0) 30, fast := bitOf (pw e 0) 29, fwd := bitOf (pw e 0) 28,
            mac := fld (pw e 0) 0 16 * 2 ^ 32 + (pw e 1).toNat, ipv4 := (pw e 2).toNat,
            boardTx := signed 16 (fld (pw e 3) 16 16), boardRx := signed 16 (fld (pw e 3) 0 16) }
          else ps.getD p Port.reset = portAt s p)) ∧
    (Turn 0x0708 e s r → rsvOk e [] = true → ∃ res : List Dword, res.length = 6 ∧
      exec (.netStatus e) s = .next (finish s r stOk res)) ∧
    (∀ (port : Nat) (up : Bool), port < 2 → s.ports.length = 2 → (portAt s port).up ≠ up →
      Answers (.netLink port up) s (fun t => (portAt t port).up = up ∧ portAt t (1 - port) = portAt s (1 - port))) ∧
    (∀ port : Nat, port < 2 → exec (.frameDiscarded port) s = .next (count s (cnum 9 (4 + port)))) ∧
    (∀ (port : Nat) (target : Dword), portOn s port = true → (portAt s port).ipv4 ≠ 0 → target.toNat = (portAt s port).ipv4 →
      exec (.arpRequest port target) s = .next { s with
        out := .eth port 4 [(portAt s port).mac, (portAt s port).ipv4] :: s.out }) ∧
    (∀ (port bytes : Nat) (frame : Frame) (inMac outMac correction : Ns16), port < 2 → lengthOk bytes = false →
      exec (.frameForward port bytes frame inMac outMac correction) s = .next (count s (cnum 9 (4 + port)))) ∧
    (∀ (port bytes : Nat) (frame : Frame) (inMac outMac correction : Ns16), port < 2 → portOn s port = true →
      portOn s (1 - port) = true → (portAt s port).fwd = true → (portAt s (1 - port)).fwd = true → 64 ≤ bytes →
      bytes ≤ 2000 →
      (takenIn (portAt s port) frame = true → ptpMulticast frame = false →
        exec (.frameForward port bytes frame inMac outMac correction) s = .next s) ∧
      (takenIn (portAt s port) frame = false ∨ ptpMulticast frame = true →
        (isEvent frame = true → Answers (.frameForward port bytes frame inMac outMac correction) s (fun t =>
          let c := min (correction + residence s port (1 - port) inMac outMac) (2 ^ 63 - 1)
          t = count { s with out := .eth (1 - port) 5 (if frame.etherType = 0x0800 then [c, 0] else [c]) :: s.out } (cnum 9 3))) ∧
        (isPtp frame = true → isEvent frame = false →
          exec (.frameForward port bytes frame inMac outMac correction) s = .next { s with out := .eth (1 - port) 5 [] :: s.out }) ∧
        (isPtp frame = false → queuedBytes (portAt s (1 - port)) + 16 * bytes ≤ 262144 * 16 →
          Answers (.frameForward port bytes frame inMac outMac correction) s (fun t => t = { s with ports := t.ports } ∧
            (s.ports.length = 2 → portAt t (1 - port) = { portAt s (1 - port) with
              queue := (portAt s (1 - port)).queue ++ [bytes] }))) ∧
        (isPtp frame = false → 262144 * 16 < queuedBytes (portAt s (1 - port)) + 16 * bytes →
          exec (.frameForward port bytes frame inMac outMac correction) s = .next (count s (cnum 9 (6 + (1 - port)))))))

/-- PTP: PTP_CONFIG, SERVO_CONFIG, PTP_STATUS, SYNC, FOLLOW_UP, DELAY_*, ANNOUNCE and the sends and timeouts complete
with their effect (R9, R362, R367, R368, R369, R371, R372, R373, R374). Clauses that rest on choices of the model,
which no rule makes: how masters are compared and what the chip announces (log 28), and when a master counts (log 29);
roundings of the servo and the path delay before an exchange (log 30); the layout (log 13) and the port state (log
189) of PTP_STATUS; which stamps a latency corrects (log 34). -/
def Obligations.PtpCommands : Prop :=
  ∀ (e : Entry) (s : State) (r : InFlight),
    let slew := fun (o : Int) (t : State) =>
      let integ := clampI (wrapS 64 (s.ptp.integ - wrapS 64 (s.ptp.ki * o) / 65536)) (-8000000) 8000000
      t.ptp.lastOffset = o ∧ t.ptp.integ = integ ∧
      t.time = { s.time with marks := t.time.marks
                             adj := clampI (wrapS 64 (integ - wrapS 64 (s.ptp.kp * o) / 65536)) (-8000000) 8000000 }
    (Turn 0x0702 e s r → ptpFormatOk e = true →
      Answers (.ptpConfig e) s (fun t => ∃ u : State, t = finish u r stOk [] ∧ u.ptp.servo = .free ∧
        u.ptp.role = fld (pw e 0) 30 2 ∧ u.ptp.port = fld (pw e 0) 29 1 ∧ u.ptp.domain = fld (pw e 0) 16 8 ∧
        u.ptp.logSync = signed 8 (fld (pw e 1) 24 8) ∧ u.ptp.asym = signed 32 (pw e 2).toNat ∧ u.ptp.parent = none ∧
        u.ptp.kp = s.ptp.kp ∧ u.ptp.ki = s.ptp.ki ∧ u.time = s.time)) ∧
    (Turn 0x0703 e s r → rsvOk e [allBits, allBits, allBits, allBits] = true → 1000 ≤ (pw e 2).toNat →
      (pw e 2).toNat ≤ 10000000 → 10 ≤ (pw e 3).toNat → (pw e 3).toNat ≤ 10000 →
      exec (.servoConfig e) s = .next (finish { s with ptp := { s.ptp with
          kp := (pw e 0).toNat, ki := (pw e 1).toNat, stepThr := (pw e 2).toNat, lockThr := (pw e 3).toNat } } r stOk [])) ∧
    (Turn 0x0707 e s r → rsvOk e [] = true → ∃ res : List Dword, res.length = 12 ∧
      exec (.ptpStatus e) s = .next (finish s r stOk res)) ∧
    (∀ (port : Nat) (p : PtpFrom) (origin rx corr : Ns16), slaveOf s port p = true →
      exec (.sync port p true origin rx corr) s = .next { s with ptpx := { s.ptpx with
        pendingSync := some (nearest100 (ingress100 s port rx), corr) } } ∧
      (s.ptp.servo = .locked → Answers (.sync port p false origin rx corr) s
        (slew (wrapS 64 ((nearest100 (ingress100 s port rx) - (origin + corr + s.ptp.asym * 256) - s.ptp.pathDelay) / 65536))))) ∧
    (∀ (port : Nat) (p : PtpFrom) (origin corr t2 c : Ns16), slaveOf s port p = true → s.ptpx.pendingSync = some (t2, c) →
      s.ptp.servo = .locked → Answers (.followUp port p origin corr) s (fun t => t.ptpx.pendingSync = none ∧
        slew (wrapS 64 ((t2 - (origin + c + corr + s.ptp.asym * 256) - s.ptp.pathDelay) / 65536)) t)) ∧
    (∀ txMac : Ns16, s.ptp.role = 1 → ptpOn s = true → s.ptp.parent.isSome = true →
      Answers (.delayReqSend txMac) s (fun t => t.ptpx.delayTx = some (nearest100 (egress100 s s.ptp.port txMac)) ∧
        t.out = .eth s.ptp.port 1 (ptpHead s ++ [(s.ptpx.seqDelay : Int), -(s.ptp.asym * 256)]) :: s.out)) ∧
    (∀ (port : Nat) (p : PtpFrom) (rx corr t3 : Ns16), slaveOf s port p = true → s.ptpx.delayTx = some t3 →
      exec (.delayResp port p rx corr) s = .next { s with
        ptp := { s.ptp with pathDelay := ((s.ptpx.syncRx - s.ptpx.syncOrigin) + (rx - t3) - corr) / 2 },
        ptpx := { s.ptpx with delayTx := none } }) ∧
    (∀ (src : PtpFrom) (q : Quality) (utc : Int), s.ptp.role = 1 → hears s s.ptp.port src = true →
      bestForeign ((s.ptpx.foreign.filter fun x => x.1 != src.id) ++ [(src.id, q)]) = some (src.id, q) →
      Answers (.announce s.ptp.port src q utc) s (fun t => t.ptp.parent = some src.id ∧ t.ptp.grandmaster = some q ∧
        t.ptp.utcOffset = utc ∧ (s.ptp.parent = some src.id → t.ptp.servo = s.ptp.servo) ∧
        (s.ptp.parent ≠ some src.id → s.ptp.parent.isSome = true ∨ s.ptp.servo ≠ .free → t.ptp.servo = .acquiring))) ∧
    (s.ptp.role = 1 → s.ptp.parent.isSome = true → s.ptp.servo ≠ .holdover →
      Answers .syncTimeout s (fun t => t.ptp.servo = .holdover ∧ t.time.adj = clampI s.ptp.integ (-8000000) 8000000)) ∧
    (∀ p : PortId, s.ptp.role = 1 → s.ptp.parent = some p → bestForeign (s.ptpx.foreign.filter fun x => x.1 != p) = none →
      s.ptp.servo ≠ .holdover →
      Answers .announceTimeout s (fun t => t.ptp.parent = none ∧ t.ptp.servo = .holdover ∧
        t.time.adj = clampI s.ptp.integ (-8000000) 8000000)) ∧
    (∀ (src : PtpFrom) (rx corr : Ns16), masterActive s = true → hears s s.ptp.port src = true →
      let x : Sent := .eth s.ptp.port 2 (ptpHead s ++ [nearest100 (ingress100 s s.ptp.port rx), corr, src.id.clock, src.id.port])
      exec (.delayReq s.ptp.port src rx corr) s = .next { s with out := x :: s.out }) ∧
    (masterActive s = true →
      Answers .syncSend s (fun t => (∃ sec ns sub : Int, t.out = .eth s.ptp.port 0 (ptpHead s ++ [(s.ptpx.seqSync : Int), sec, ns, sub]) :: s.out ∧
          0 ≤ ns ∧ ns < 1000000000 ∧ 0 ≤ sub ∧ sub < 65536 ∧
          (sec * 1000000000 + ns) * 65536 + sub = nearest100 (egress100 s s.ptp.port (counterNs16 s))) ∧
        t = { s with ptpx := t.ptpx, out := t.out }) ∧
      Answers .announceSend s (fun t => t.ptpx.seqAnnounce = (s.ptpx.seqAnnounce + 1) % 2 ^ 16 ∧
        t = { s with ptpx := t.ptpx, out := t.out } ∧ t.out.length = s.out.length + 1))

/-- Web and encoder commands: WEB_CONFIG, ENC_CONFIG, GEAR_SET, LINE_REFERENCE, PACE_SET, CUE_CONFIG, CUE_READ,
PULSE_CONFIG, FIRE_TRIM, WEB_STATUS (R152, R156, R158, R159, R168, R169, R171, R172, R174, R395, R404). Clauses that
rest on choices of the model, which no rule makes: every instant is a pacing step in pacing mode (log 139); a
LINE_REFERENCE in force at once, what it does to records (log 118) and to a cue mask (log 142); a WEB_CONFIG that
keeps the web check's window (log 115); GEAR_SET's order of checks (log 117); PULSE_CONFIG starts its count anew (log
173); the layout of WEB_STATUS (log 13). -/
def Obligations.WebConfiguration : Prop :=
  ∀ (e : Entry) (s : State) (r : InFlight),
    let done := fun (c : Instr) (P : State → Prop) => Answers c s (fun t => ∃ u : State, t = finish u r stOk [] ∧ P u)
    (Turn 0x0109 e s r → webFormatOk e = true → anyActive s = false ∨
        ((webCfgOf s e).pacing = s.webCfg.pacing ∧ (webCfgOf s e).stillTime = s.webCfg.stillTime ∧
         (webCfgOf s e).spdAvg = s.webCfg.spdAvg ∧ (webCfgOf s e).jitterAllow = s.webCfg.jitterAllow) →
      done (.webConfig e) (fun u => u.webCfg = webCfgOf s e ∧ u.ftb.hwm = s.ftb.hwm ∧
        (bitOf (pw e 0) 31 ≠ s.webCfg.pacing → u.ftb.speed = 0 ∧ u.ftb.projected = [] ∧ u.ftb.rateTarget = 0))) ∧
    (Turn 0x010A e s r → rsvOk e [0xF00FF00F] = true → fld (pw e 0) 28 4 < s.encs.length → s.encs.length = 12 →
      done (.encConfig e) (fun u => ∀ k, k < 12 → u.encs.getD k Enc.reset = if k = fld (pw e 0) 28 4 then
        { s.encs.getD k Enc.reset with
          filt := fld (pw e 0) 12 8, indexZero := bitOf (pw e 0) 3, indexQual := bitOf (pw e 0) 2,
          invert := bitOf (pw e 0) 1, enable := bitOf (pw e 0) 0 }
        else s.encs.getD k Enc.reset)) ∧
    (let n := fld (pw e 0) 0 2 + 1
     let es := (List.range n).map fun i => gearEntry s (pq e 2 + 16 * i)
     let pos := es.filter fun x => !x.2.2
     let gears := pos.foldl (fun l x => insertGear { pos := x.1, ratio := x.2.1 } l)
       (s.ftb.gears.filter fun g => !(pos.any fun x => x.1 == g.pos))
     Turn 0x010B e s r → rsvOk e [3, 0, allBits, allBits] = true → pq e 2 % 16 = 0 → hostReadEnd s (pq e 2) (16 * n) = .ok →
      (List.range n).all (fun i => gearEntryOk s (pq e 2 + 16 * i)) = true → ascending (pos.map fun x => x.1) = true →
      (∀ x ∈ pos, masterPos s < x.1) → gears.length ≤ 4 → s.webCfg.pacing = false →
      done (.gearSet e) (fun u => u.ftb.gears = gears ∧ u.ftb.lamI = s.ftb.lamI ∧
        (servitor s = true ∨ es.all (fun x => !x.2.2) = true → u.ftb.g = s.ftb.g) ∧
        (servitor s = false → ∀ x, (es.filter fun y => y.2.2).getLast? = some x → u.ftb.g = x.2.1))) ∧
    (Turn 0x010C e s r → rsvOk e [3, 0, allBits, allBits, allBits, 0, allBits, allBits] = true → anyActive s = false →
      (fld (pw e 0) 0 2 = 0 → done (.lineReference e) (fun u => u.ftb.lamI = pqS e 2 ∧ u.ftb.lamF = (pw e 4).toNat ∧
        lineCounter u = pqS e 2 ∧ u.ftb.reversed = false ∧ u.ftb.speed = 0 ∧ u.ftb.lineRef = none)) ∧
      (fld (pw e 0) 0 2 = 2 ∨ (fld (pw e 0) 0 2 = 1 ∧ masterPos s < pqS e 6) →
        let x : LineRef := { onIndex := fld (pw e 0) 0 2 == 2, pos := pqS e 6, lamI := pqS e 2, lamF := (pw e 4).toNat }
        exec (.lineReference e) s = .next (finish { s with ftb := { s.ftb with lineRef := some x } } r stOk []))) ∧
    (Turn 0x010D e s r → rsvOk e [allBits] = true → (pw e 0).toNat ≤ 819200000 → s.webCfg.pacing = true →
      (servitor s = true → exec (.paceSet e) s = .next (finish s r stOk [])) ∧
      (servitor s = false → done (.paceSet e) (fun u => u.ftb.rateTarget = (pw e 0).toNat ∧ u.ftb.hwm = s.ftb.hwm ∧
        u.webCfg = s.webCfg))) ∧
    (Turn 0x010E e s r → rsvOk e [0xF8FFFFFF] = true → s.cues.length = 4 →
      done (.cueConfig e) (fun u => ∀ k, k < 4 → u.cues.getD k CueCh.reset = if k = fld (pw e 0) 30 2 then
        { s.cues.getD k CueCh.reset with
          edge := fld (pw e 0) 28 2, event := bitOf (pw e 0) 27, filt := fld (pw e 0) 16 8, maskLines := fld (pw e 0) 0 16 }
        else s.cues.getD k CueCh.reset)) ∧
    (Turn 0x010F e s r → rsvOk e [3, allBits, allBits, allBits] = true → 1 ≤ (pw e 1).toNat → (pw e 1).toNat ≤ 16 →
      s.cues.length = 4 →
      let q := (s.cues.getD (fld (pw e 0) 0 2) CueCh.reset).queue
      Answers (.cueRead e) s (fun t => ∃ u : State, t = finish u r stOk [BitVec.ofNat 32 (q.take (pw e 1).toNat).length] ∧
        (u.cues.getD (fld (pw e 0) 0 2) CueCh.reset).queue = q.drop (pw e 1).toNat ∧
        u.host = (hostPutDws s (pq e 2) ((q.take (pw e 1).toNat).flatMap cueDws)).host)) ∧
    (Turn 0x0110 e s r → rsvOk e [0xF800FFFF, allBits] = true → 2 ≤ fld (pw e 1) 8 8 →
      (bitOf (pw e 0) 27 = true ∨ fld (pw e 1) 16 16 ≤ fld (pw e 0) 0 16) → s.pulses.length = 4 →
      done (.pulseConfig e) (fun u =>
        let p := u.pulses.getD (fld (pw e 0) 30 2) Pulse.reset
        p.enable = bitOf (pw e 0) 29 ∧ p.pol = bitOf (pw e 0) 28 ∧ p.src = bitOf (pw e 0) 27 ∧
        p.div = fld (pw e 0) 0 16 + 1 ∧ p.phase = fld (pw e 1) 16 16 ∧ p.width = fld (pw e 1) 8 8 ∧
        p.delay = fld (pw e 1) 0 8 ∧ p.count = 0)) ∧
    (Turn 0x0111 e s r → rsvOk e [0xFC0000FF, 0, allBits, allBits] = true → fld (pw e 0) 26 6 ≤ 39 →
      (s.job = none → done (.fireTrim e) (fun u =>
        u.web.trims.base = mapSet 0 s.web.trims.base (fld (pw e 0) 26 6) (signed 8 (fld (pw e 0) 0 8)) ∧
        u.web.trims.changes = s.web.trims.changes.filter fun c => c.1 != fld (pw e 0) 26 6)) ∧
      (s.job ≠ none → phasesFull s ((pimsInUse s (fld (pw e 0) 26 6)).map fun q => (fld (pw e 0) 26 6, q)) (pqS e 2) = false →
        done (.fireTrim e) (fun u => u.web.trims =
          timedPut s.web.trims (fld (pw e 0) 26 6) (pqS e 2) (signed 8 (fld (pw e 0) 0 8))))) ∧
    (Turn 0x0114 e s r → rsvOk e [] = true → ∃ res : List Dword, exec (.webStatus e) s = .next (finish s r stOk res) ∧
      res.take 2 = dwordsOf (unsignedOf 64 (lamNow s (nowUnits s) / 2 ^ 32)))

/-- Web events: ENC_COUNT, INDEX_RISE, LINE_TICK, HELD_TICK_ISSUE, PACING_TICK, WEB_STILL, RATE_READING, CUE_CAPTURE
(R150, R151, R153, R160, R161, R162, R165, R166, R167, R169, R174). Clauses that rest on choices of the model, which
no rule makes: the unit of instants (log 18); which level of an index is seen (log 116); a projected instant is
rounded down (log 171); when the queue limit is checked (log 119); the rounding of the 10 us rate and the pacing step
(log 139); the cue's projection at a negative rate (log 141) and its stamp (log 143); what has no effect leaves the
state as it is (log 2). -/
def Obligations.WebEvents : Prop :=
  ∀ s : State, awake s = true →
    (∀ (ch : Nat) (a b : Bool) (t held : Nat) (e : Enc), s.encs[ch]? = some e → held ≤ e.filt →
      exec (.encCount ch a b ⟨t, held⟩) s = .next s ∧ exec (.indexRise ch ⟨t, held⟩) s = .next s) ∧
    (∀ (ch : Nat) (a b : Bool) (t held : Nat) (e : Enc), s.encs[ch]? = some e → e.enable = true → e.filt < held →
      let step := (grayIndex a b + 4 - grayIndex e.a e.b) % 4
      (step = 1 ∨ step = 3 → Answers (.encCount ch a b ⟨t, held⟩) s (fun u =>
        (u.encs.getD ch Enc.reset).pos = wrapS 64 (if (step == 1) = e.invert then e.pos - 1 else e.pos + 1) ∧
        (u.encs.getD ch Enc.reset).a = a ∧ (u.encs.getD ch Enc.reset).b = b)) ∧
      (step = 2 → Answers (.encCount ch a b ⟨t, held⟩) s (fun u =>
        (u.encs.getD ch Enc.reset).pos = e.pos ∧ u.ftb = s.ftb ∧ u.mot = s.mot))) ∧
    (∀ (ch t held : Nat) (e : Enc), s.encs[ch]? = some e → e.enable = true → e.filt < held → (e.indexQual = true → e.a = true ∧ e.b = true) →
      s.ftb.lineRef = none →
      Answers (.indexRise ch ⟨t, held⟩) s (fun u => (u.encs.getD ch Enc.reset).index = e.pos ∧
        (u.encs.getD ch Enc.reset).pos = if e.indexZero = true ∧ 2 ≤ ch then 0 else e.pos)) ∧
    (∀ (t at_ : Nat) (n : Int) (rest : List (Int × Nat)), s.ftb.projected = (n, at_) :: rest → at_ ≤ t →
      Answers (.lineTick t) s (fun u => lineCounter u = wrapS 64 n ∧ u.ftb.projected = rest ∧
        (s.ftb.heldTicks = [] → (∀ l, s.ftb.lastTick = some l → l + 32000 ≤ at_) →
          u.ftb.lastTick = some at_ ∧ u.ftb.heldTicks = []) ∧
        (s.ftb.heldTicks ≠ [] ∨ (∃ l, s.ftb.lastTick = some l ∧ at_ < l + 32000) →
          u.ftb.heldTicks = s.ftb.heldTicks ++ [wrapS 64 n] ∧ u.ftb.lastTick = s.ftb.lastTick))) ∧
    (∀ (t l : Nat) (n : Int) (rest : List Int), s.ftb.heldTicks = n :: rest → s.ftb.lastTick = some l → l + 32000 ≤ t →
      rest.length < 64 →
      Answers (.heldTickIssue t) s (fun u => u.ftb.heldTicks = rest ∧ u.ftb.lastTick = some (l + 32000) ∧
        lineCounter u = lineCounter s)) ∧
    (∀ t : Nat, s.webCfg.pacing = true → mayTick s = true → s.ftb.paceAt ≤ t →
      0 < linesPast (wrapS 64 ((pacingAt s t).1 / 2 ^ 32)) s.ftb.hwm →
      Answers (.pacingTick t) s (fun u => lineCounter u = wrapS 64 (lineCounter s + 1) ∧
        u.ftb.lamI = wrapS 64 ((pacingAt s t).1 / 2 ^ 32))) ∧
    (∀ t l : Nat, s.webCfg.pacing = false → s.ftb.lastEdge = some l → l + s.webCfg.stillTime * msUnits ≤ t →
      Answers (.webStill t) s (fun u => u.ftb.speed = 0 ∧ u.ftb.intervals = [] ∧ u.ftb.lastEdge = none ∧
        u.ftb.lamI = s.ftb.lamI ∧ u.ftb.lamF = s.ftb.lamF)) ∧
    (∀ t : Nat, Answers (.rateReading t) s (fun u => u.ftb.lam10I = wrapS 64 (lamNow s t / 2 ^ 32) ∧
      u.ftb.lam10F = (lamNow s t % 2 ^ 32).toNat ∧
      u.ftb.rho10 = Int.tdiv (wrapS 96 (lamNow s t - (s.ftb.lam10I * 2 ^ 32 + s.ftb.lam10F)) * 102400000) (2 ^ 32))) ∧
    (∀ (ch t held : Nat) (rising : Bool) (c : CueCh), s.cues[ch]? = some c →
      (held ≤ c.filt ∨ edgeSelected c.edge rising = false ∨ (∃ m, c.maskFrom = some m ∧ lamAt s t < m + c.maskLines * 2 ^ 32)) →
      exec (.cueCapture ch rising ⟨t, held⟩) s = .next s) ∧
    (∀ (ch t held : Nat) (rising : Bool) (c : CueCh), s.cues[ch]? = some c → edgeSelected c.edge rising = true →
      c.filt < held → (∀ m, c.maskFrom = some m → m + c.maskLines * 2 ^ 32 ≤ lamAt s t) →
      Answers (.cueCapture ch rising ⟨t, held⟩) s (fun u => ∃ c' : CueCh, u.cues[ch]? = some c' ∧ c'.seq = (c.seq + 1) % 2 ^ 16 ∧
        (c.maskLines = 0 → c'.maskFrom = none) ∧ (c.maskLines ≠ 0 → c'.maskFrom = some (lamAt s t)) ∧
        (c.queue.length < 16 → c'.lostNext = false ∧ ∃ x : Cue, c'.queue = c.queue ++ [x] ∧ x.seq = c.seq ∧ x.ch = ch ∧
          x.line = wrapS 64 (lamAt s t / 2 ^ 32) ∧ x.nsec = (stampTime s t).2 ∧ x.master = masterPos s ∧ x.rev = s.ftb.reversed ∧ x.lost = c.lostNext) ∧
        (16 ≤ c.queue.length → c'.queue = c.queue ∧ c'.lostNext = true)))

/-- Job and offset commands: JOB_OPEN, JOB_CLOSE, DOFFSET_SET, XSHIFT_SET (R44, R45, R46, R79, R172, R268, R395,
R398). -/
def Obligations.JobAndOffsets : Prop :=
  ∀ (e : Entry) (s : State) (r : InFlight),
    (let d := hostDws s (pq e 0) 32
     let geo := hostDws s (rq d 8) 32
     let j := jobOf s d geo
     let mods := modulesInUse { s with job := some j }
     Turn 0x0101 e s r → rsvOk e [allBits, allBits] = true → pq e 0 % 64 = 0 → hostReadEnd s (pq e 0) 128 = .ok →
      jobRecordOk s d = true → hostReadEnd s (rq d 8) 128 = .ok → geoRecordOk geo = true → anyActive s = false →
      screensLoaded s j = true → (∀ m ∈ mods, (groupAt s m).run = true ∧ holdDepth j ≤ bufLines s m) → modulesFit s j = true →
      (∀ i, i < 4 → j.lDecl ≤ (jobLmax s j (vtFactor s.pwr.vcore j.tDecl)).getD i 0) →
      Answers (.jobOpen e) s (fun t => ∃ (u : State) (res : List Dword), t = finish u r stOk res ∧ u.job = some j ∧
        u.web = jobWeb s j geo ∧ res.take 2 = it j.jobId.toNat ++ it (holdDepth j) ∧ u.slices.recs = [])) ∧
    (Turn 0x0102 e s r → rsvOk e [] = true → s.job ≠ none → anyActive s = false →
      Answers (.jobClose e) s (fun t => ∃ u : State, t = finish u r stOk [] ∧ u.job = none ∧ u.asy.setup = none ∧
        (∀ p ∈ u.pages.list, p.state ≠ .loaded) ∧ u.web = s.web ∧ u.tables = s.tables)) ∧
    (let p := fld (pw e 0) 28 4
     let n := pqS e 2
     Turn 0x0107 e s r → rsvOk e [allBits, 0, allBits, allBits] = true → s.job ≠ none → p ∈ planesInUse s →
      changeFloor s [p] ≤ n → phasesFull s (carriers p) n = false → offsetStepOk s p n (fld (pw e 0) 0 28) = true →
      offsetSeen s p (fld (pw e 0) 0 28) = true →
      Answers (.doffsetSet e) s (fun t => ∃ u : State, t = finish u r stOk [] ∧
        u.web = { s.web with dOff := timedPut s.web.dOff p n (fld (pw e 0) 0 28) } ∧ u.job = s.job)) ∧
    (let p := fld (pw e 0) 28 4
     let n := pqS e 2
     Turn 0x0108 e s r → rsvOk e [0xF00003FF, 0, allBits, allBits] = true → s.job ≠ none → p ∈ planesInUse s →
      changeFloor s [p] ≤ n →
      Answers (.xshiftSet e) s (fun t => ∃ u : State, t = finish u r stOk [] ∧
        u.web = { s.web with xShift := timedPut s.web.xShift p n (signed 10 (fld (pw e 0) 0 10)) } ∧ u.job = s.job))

/-- Loading a page: PAGE_LOAD, DMA_READ_COMPLETION, BLOCK_STORE (R53, R54, R57, R58, R59, R60, R61, R64, R65, R79).
Clauses that rest on choices of the model, which no rule makes: how a row's requests are cut and how completions
arrive (logs 19, 133); which free chunk a chain takes (log 20) and the order of raw blocks in it (log 135); an
unaligned descriptor address (log 132); an older page of the id (log 134); a page whose descriptors or row tables
cannot be read (log 190). -/
def Obligations.PageLoading : Prop :=
  (∀ (e : Entry) (s : State) (r : InFlight),
    let h := hostDws s (pq e 0) 16
    let n := fld (rdw h 0) 0 6
    let d := hostDws s (pq e 0) (16 + 8 * n)
    let layers := (List.range n).map (layerOf d)
    Turn 0x0103 e s r → rsvOk e [allBits, allBits] = true → pq e 0 % 64 = 0 → s.pages.load = none → s.job ≠ none →
      (s.pages.list.filter holdsPlace).length < 256 → hostReadEnd s (pq e 0) 64 = .ok → headerOk h = true →
      (∀ p ∈ s.pages.list, p.id = rdw h 1 → holdsPlace p = false) → badLayer s (pq e 0) d n = none →
      failedRead s (pq e 0) d n = none →
      Answers (.pageLoad e) s (fun t => ∃ p ∈ t.pages.list, p.id = rdw h 1 ∧ p.lines = fld (rdw h 2) 0 24 ∧
        p.ncol64 = fld (rdw h 3) 16 12 ∧ p.col64 = fld (rdw h 3) 0 12 ∧ p.startMode = fld (rdw h 4) 0 2 ∧ p.startArg = (rdw h 5).toNat ∧
        p.startLine = signed 64 (rq h 6) ∧ p.cueCh = fld (rdw h 4) 8 2 ∧ p.layers = layers ∧
        (n = 0 → p.state = .loaded ∧ t.pages.load = none) ∧
        (∀ l, layers.head? = some l → l.rows ≠ 0 → (rowEntry s l 0).2 ≠ 0 → p.state = .loading ∧
          ∃ ld : Load, t.pages.load = some ld ∧ ld.pageId = p.id ∧ ld.entry = e ∧
            ld.tables = layers.map fun l => (List.range l.rows).map (rowEntry s l)))) ∧
  (∀ (addr len : Nat) (s : State) (ld : Load), s.pages.load = some ld → 0 < len → len ≤ 512 →
    (∀ o, o ≠ DmaEnd.ok →
      exec (.dmaReadCompletion addr len o) s = .next (failLoad s ld stHostReadError (itq addr))) ∧
    Answers (.dmaReadCompletion addr len .ok) s (fun t => ∀ ld', t.pages.load = some ld' →
      ld'.have_ = ld.have_ ++ [(addr, len)] ∧ ld'.pageId = ld.pageId ∧
      ld'.arrived = mapSetAll 0 ld.arrived (((List.range len).filter fun i =>
        !ld.have_.any fun x => decide (x.1 ≤ addr + i ∧ addr + i < x.1 + x.2)).map fun i =>
          (addr + i, hostByte s ((addr + i) % 2 ^ 64))))) ∧
  (∀ (s : State) (ld : Load) (p : Page) (l : Layer), s.pages.load = some ld → pageOf s ld.pageId = some p →
    p.layers[ld.layerIx]? = some l → ld.rowBegun = true → ld.row < l.rows →
    let re := (ld.tables.getD ld.layerIx []).getD ld.row (0, 0)
    let bm := arrivedBytes ld re.1 (bitmapBytes p l)
    let rule := storeRule (sampleBits l) l.effort (slotOf s l) (arrivedBytes ld (re.1 + ld.pos) (re.2 - ld.pos))
    (∀ st, rule = .fails st → exec .blockStore s = .next (failBlock s ld st)) ∧
    (∀ (bs : List Byte) (used c : Nat), rule = .coded bs used → nextCol bm (blockCols p l) (ld.col + 1) = some c →
      exec .blockStore s = .next (setLoad
        (setPage s ld.pageId fun q => addSlot q l ld (fillSlot (slotOf s l) bs))
        { ld with pos := ld.pos + used, col := c })) ∧
    (∀ (raw : List Nat) (used : Nat), rule = .spill raw used → takeUnits s p (l.layer == 0) = none →
      exec .blockStore s = .next (failLoad s ld stSpillFull [])) ∧
    (∀ (raw chain : List Nat) (used c unit : Nat) (u : State), rule = .spill raw used →
      nextCol bm (blockCols p l) (ld.col + 1) = some c → takeUnits s p (l.layer == 0) = some (u, chain, unit) →
      exec .blockStore s = .next (setLoad
        (setPage u ld.pageId fun q => addSpill q l ld (slotOf s l) raw chain unit)
        { ld with pos := ld.pos + used, col := c }) ∧
      chain.getLast? = some (unit / 64) ∧ unit % 64 + 64 / chunkBlocks (l.layer == 0) ≤ 64))

/-- Admitting and ending a page: PAGE_COMMIT, PAGE_ABORT, PAGE_STATUS (R51, R52, R78, R79, R80, R243, R273, R395,
R399, R400). Clauses that rest on choices of the model, which no rule makes: lines before the chain and a LOADED page
at JOB_CLOSE (log 121); what a rejected commit reports and when a page takes its band (log 123); F_page as reported
(log 25); the layout of PAGE_STATUS (logs 13, 122); when a servitor waits for the gaffer's PAGE (log 84). -/
def Obligations.PageAdmission : Prop :=
  ∀ (e : Entry) (s : State) (r : InFlight) (p : Page), rsvOk e [allBits] = true → pageOf s (pw e 0) = some p →
    (Turn 0x0104 e s r → p.state = .loaded → s.pwr.state = .print → (s.pwr.stale = false ∨ s.par.enabled = true) →
      reserveFail s p = none →
      (servitor s = false → s.ftb.lineRef = none →
        (p.startMode = 2 → firstUnresolved s = none ∧ ePrev s < p.startLine ∧ earliestStart s ≤ p.startLine) →
        Answers (.pageCommit e) s (fun t => ∃ (u : State) (q : Page) (res : List Dword), t = finish u r stOk res ∧
          pageOf u p.id = some q ∧ q.state = .admitted ∧ q.adm = s.pages.nextAdm ∧ u.pages.nextAdm = s.pages.nextAdm + 1 ∧
          q.thin = !e5 s ∧ q.lines = p.lines ∧
          (p.startMode = 2 → q.n0 = some (wrapS 64 p.startLine)) ∧
          (p.startMode < 2 → firstUnresolved s = none → q.n0 = some (wrapS 64 (chainedStart s p).1)) ∧
          (p.startMode = 3 → q.n0 = p.n0))) ∧
      (servitor s = true → ∀ m, s.par.pageMsgs.find? (fun m => m.1 == p.id) = some m → m.2.1 ≠ 2 →
        Answers (.pageCommit e) s (fun t => ∃ (u : State) (q : Page) (res : List Dword), t = finish u r stOk res ∧
          pageOf u p.id = some q ∧ q.state = .admitted ∧ q.adm = s.pages.nextAdm ∧ q.thin = m.2.2.1 ∧
          (m.2.1 = 1 → q.n0 = some (wrapS 64 m.2.2.2.2.1)) ∧ u.par.pageMsgs = s.par.pageMsgs.erase m))) ∧
    (Turn 0x0105 e s r → servitor s = false →
      (p.state = .loaded ∨ p.state = .admitted →
        Answers (.pageAbort e) s (fun t => ∃ (u : State) (q : Page), t = finish u r stOk (abortResult p []) ∧
          pageOf u p.id = some q ∧ q.state = .aborted ∧ q.holds = false ∧ q.blocks = [])) ∧
      (p.state = .printing →
        Answers (.pageAbort e) s (fun t => ∃ (u : State) (q : Page), t = finish u r stOk (abortResult p (cutLines s p)) ∧
          pageOf u p.id = some q ∧ q.state = .aborted ∧ q.cut = true ∧ q.cuts = cutLines s p))) ∧
    (Turn 0x0106 e s r → ∃ res : List Dword, exec (.pageStatus e) s = .next (finish s r stOk res) ∧
      res.take 3 = it (pageCode p.state) ++ itq (p.n0.getD 0))

/-- Table loads: CURVE_LOAD, SCREEN_LOAD, STITCH_LOAD (R97, R99, R101, R102, R103, R104, R105, R106, R252, R396, R402,
R403). Clauses that rest on choices of the model, which no rule makes: naming one mask twice (log 48); a host record's
RSV bits (log 124); when the curve generation advances (log 45). -/
def Obligations.TableLoads : Prop :=
  ∀ (e : Entry) (s : State) (r : InFlight),
    (let nc := fld (pw e 0) 16 16
     let ne := (pw e 1).toNat
     let planes := (List.range 16).filter fun p => (fld (pw e 0) 0 16).testBit p
     let cr := curveRecords s (pq e 2) nc
     let el := entryList s (pq e 4) ne
     let tabs := (List.range planes.length).map fun i => (planes.getD i 0, hostWords s (pq e 6 + 332800 * i) 166400)
     let entries := (el.map fun x => (entryKey x.1 x.2.1, x.2.2)) ++
       tabs.flatMap fun t => (List.range 166400).map fun i => (entryKey t.1 i, t.2.getD i 0)
     let x : CurveUpd := { line := pqS e 8, curves := cr, entries := entries, assay := false, out := false }
     Turn 0x0202 e s r → rsvOk e (List.replicate 10 allBits) = true → nc ≤ 4096 → ne ≤ 2662400 →
      (nc ≠ 0 ∨ ne ≠ 0 ∨ fld (pw e 0) 0 16 ≠ 0) → pq e 2 % 8 = 0 → pq e 4 % 8 = 0 → pq e 6 % 8 = 0 →
      tableRead s [(pq e 2, 520 * nc), (pq e 4, 8 * ne), (pq e 6, 332800 * planes.length)] = none →
      (∀ y ∈ el, y.2.1 < 166400 ∧ y.1 ∉ planes) → (cr.map Prod.fst).Nodup →
      (el.map fun y => entryKey y.1 y.2.1).Nodup →
      (∀ c ∈ cr, assayOwnsCurve s c.1 = false) → (∀ p ∈ el.map (·.1) ++ planes, assayOwnsPlane s p = false) →
      (s.job ≠ none → changeFloor s (updPlanes s x) ≤ pqS e 8 ∧ (s.tables.curveUpds.filter (updPending s)).length < 8) →
      indexPoisoned s entries (pqS e 8) = false →
      Answers (.curveLoad e) s (fun t => ∃ u : State, t = finish u r stOk (it u.tables.curveGen) ∧
        u.tables.curveGen = (s.tables.curveGen + 1) % 2 ^ 16 ∧
        (s.job ≠ none → u.tables.curveUpds = (foldDropped s).tables.curveUpds ++ [x]) ∧
        (s.job = none → u.tables.curves = mapSetAll unitCurve (foldDropped s).tables.curves x.curves ∧
          u.tables.entries = mapSetAll 0 (foldDropped s).tables.entries x.entries))) ∧
    (let slot := fld (pw e 0) 27 5
     let load := bitOf (pw e 0) 26
     let bind_ := bitOf (pw e 0) 25
     let planes := (List.range 16).filter fun p => (fld (pw e 0) 0 16).testBit p
     let n := pqS e 4
     let tile := (List.range 65536).map fun i => BitVec.ofNat 64 (leNat (hostBytes s (pq e 2 + 8 * i) 8))
     Turn 0x0203 e s r → rsvOk e [0xFE00FFFF, 0, allBits, allBits, allBits, allBits] = true → (load = true ∨ bind_ = true) →
      (bind_ = false → fld (pw e 0) 0 16 = 0) → pq e 2 % 64 = 0 →
      (load = true → hostReadEnd s (pq e 2) 524288 = .ok ∧ tile.all cellOk = true ∧ slotInUse s slot = false) →
      (load = false → tileOf s slot ≠ []) →
      (bind_ = true → changeFloor s planes ≤ n ∧ ∃ j, s.job = some j ∧ ∀ p ∈ planes, (∃ c, j.planes[p]? = some c ∧
        c.inUse = true ∧ c.format ≠ 2) ∧ ((bindingsPending s p).filter fun c => c.1 != n).length < 4) →
      Answers (.screenLoad e) s (fun t => ∃ u : State, t = finish u r stOk [] ∧
        u.tables.screens = (if load then mapSet [] s.tables.screens slot tile else s.tables.screens) ∧
        u.web.screens = (if bind_ then planes.foldl (fun w p => timedPut w p n slot) s.web.screens else s.web.screens))) ∧
    (let k := (pw e 0).toNat
     let n := pqS e 4
     let rs := stitchRecords s (pq e 2) k
     let nums := rs.map fun x => 4 * x.1 + x.2.1
     Turn 0x0204 e s r → rsvOk e [allBits, 0, allBits, allBits, allBits, allBits] = true → 1 ≤ k → k ≤ 144 →
      tableRead s [(pq e 2, 520 * k)] = none → (∀ x ∈ rs, x.1 < 36) →
      (s.job ≠ none → changeFloor s (rs.flatMap fun x => jointPlanes x.1).dedup ≤ n ∧ ∀ m ∈ nums,
        (s.tables.maskUpds.filter fun u => u.mask == m && maskPending s u && u.line != n).length < 4) →
      Answers (.stitchLoad e) s (fun t => ∃ u : State, t = finish u r stOk [] ∧
        (s.job = none → u.tables.masks = rs.foldl (fun w x => mapSet middleCut w (4 * x.1 + x.2.1) x.2.2)
          (foldDropped s).tables.masks) ∧
        (s.job ≠ none → u.tables.masks = (foldDropped s).tables.masks ∧ ∀ y ∈ u.tables.maskUpds,
          y ∈ (foldDropped s).tables.maskUpds ∨
          (y.line = n ∧ ∃ x ∈ rs, y.mask = 4 * x.1 + x.2.1 ∧ y.rows = x.2.2))))

/-- Slices and REFILL: SLICE_DEADLINE, RECORD_COMPLETE, SCHED_LATE, PACE_READING, REFILL_FIX (R85, R86, R87, R88, R89,
R108, R120, R124, R128, R134, R215, R245). Clauses that rest on choices of the model, which no rule makes: the
deadline of a job's first record (log 41); a complete record that is not yet released (log 42); when a slice may begin
a record (log 43); a module that is not joined (log 44); the density stripe on a BYPASS plane (log 46); the readings
as one command (log 131). -/
def Obligations.Slices : Prop :=
  (∀ (m q : Nat) (n : Int) (s : State), planeRuns s m q = true → produces s n = true →
    sliceDeadlineOf s (planeOf m q) n ≤ lineCounter s →
    (recAt s m q n = none → sliceTurn s m q n = true → (groupAt s m).joined = true →
      Answers (.sliceDeadline m q n) s (fun t => ∃ x, recAt t m q n = some x ∧ x.levels = [] ∧
        x.kind = (if (mapWaits s m n).isSome then .late else deadlineKind s m q n))) ∧
    (∀ x, recAt s m q n = some x → x.kind = .print → x.assigned = true → (groupAt s m).joined = true →
      Answers (.sliceDeadline m q n) s (fun t => ∃ y, recAt t m q n = some y ∧ y.kind = .late ∧ y.levels = [])) ∧
    ((groupAt s m).joined = false → sliceTurn s m q n = true →
      Answers (.sliceDeadline m q n) s (fun t => recAt t m q n = none))) ∧
  (∀ (m q : Nat) (n n0 : Int) (s : State) (p : Page), planeRuns s m q = true → produces s n = true →
    sliceTurn s m q n = true → sliceDeadlineOf s (planeOf m q) n - 32 ≤ lineCounter s →
    lineCounter s ≤ sliceDeadlineOf s (planeOf m q) n → pageAt s n = some p → p.n0 = some n0 → printsLine p (planeOf m q) n = true →
    let src := (sourceAt p n0 (planeOf m q) n).1
    let s1 := match src with
      | .page y => settleRecord s p m (planeOf m q) n0 y (timedAt s.web.xShift (planeOf m q) n)
      | _ => s
    Answers (.recordComplete m q n) s (fun t => ∃ x ∈ t.slices.recs, x.m = m ∧ x.q = q ∧ x.n = n ∧ x.kind = .print ∧
      x.page = some p.adm ∧ x.directRow = (sourceAt p n0 (planeOf m q) n).2 ∧
      ∀ c l, (c, l) ∈ x.levels ↔ c < pcols ∧ l ≠ 0 ∧
        l = (columnPixel s1 ((pageOf s1 p.id).getD p) (poisonAt s1 n) m q n src c).level)) ∧
  (∀ (m q : Nat) (n : Int) (s : State) (x : Rec), recAt s m q n = some x → x.kind = .print → x.assigned = false →
    deliveryDeadline s (planeOf m q) n ≤ lineCounter s →
    Answers (.schedLate m q n) s (fun t => ∃ y, recAt t m q n = some y ∧ y.kind = .late ∧ y.levels = [] ∧ y.assigned = true)) ∧
  (∀ (pace : List Nat) (s : State), s.anneal.running = false → awake s = true →
    let ps := (List.range 40).map fun m => min 0xFFFF (pace.getD m 0)
    Answers (.paceReading pace) s (fun t => t.slices.pace = ps ∧ t.obs.paceMin = ps.foldl min s.obs.paceMin)) ∧
  (∀ s : State, s.par.state ≠ .failed → (∀ f, s.csc.fixedTo = some f → f < lineCounter s + 8) →
    Answers .refillFix s (fun t => t.csc.fixedTo = some (lineCounter s + 8) ∧
      (lineCounter s + 8, rhoNow s) ∈ t.csc.heldRho ∧ lineCounter t = lineCounter s))

/-- Release and overspeed: RECORD_RELEASE, OVERSPEED (R79, R133, R145, R197, R199, R201, R304). -/
def Obligations.Releases : Prop :=
  (∀ (m : Nat) (s : State) (r0 x : Rec), s.slices.recs.find? (fun r => r.m == m) = some r0 →
    let late := r0.kind == .print && r0.assigned && mapPoisoned s (mp m r0.q) r0.n
    let s1 := planPlane (if late then makeLate s m r0.q r0.n else s) (mp m r0.q)
    s1.slices.recs.find? (fun r => r.m == m) = some x → mayRelease s1 x = true →
    Answers (.recordRelease m) s (fun t => ∃ y : Rec, t.dxl.replay = s.dxl.replay ++ [y] ∧ y.m = x.m ∧ y.q = x.q ∧
      y.n = x.n ∧ y.kind = x.kind ∧ y.rseq = mapGet 0 s.dxl.rseq (mp x.m x.q) ∧
      y.levels = (x.levels.filter fun l => x.picks.any fun p => p.1 == l.1) ∧
      t.slices.recs = s1.slices.recs.filter (fun z => !(z.m == x.m && z.q == x.q && z.n == x.n)) ∧
      (late = true → x.m = r0.m ∧ x.q = r0.q ∧ x.n = r0.n → y.kind = .late))) ∧
  (∀ s : State, 1000 ≤ s.csc.overRun → servitor s = false →
    Answers .overspeed s (fun t => t.csc.overRun = 0 ∧ ∀ p ∈ t.pages.list, p.state ≠ .printing))

/-- Health-map generations: MAP_PUSH, MAP_READ, MAP_APPLIED, GENERATION_FORM (R115, R116, R117, R118, R119, R122,
R123, R303, R304, R396, R401). Clauses that rest on choices of the model, which no rule makes: the order of MAP_PUSH's
checks (log 50) and MAP_PUSH before generation 1 (log 138); a generation's messages and MAP_APPLIED without a boundary
(log 51); new poison under a repair (log 52); the bytes marked poisoned (log 159); the line MAP_READ takes as in force
(log 120). -/
def Obligations.MapGenerations : Prop :=
  (∀ (e : Entry) (s : State) (r : InFlight),
    let full := bitOf (pw e 0) 31
    let n := (pw e 1).toNat
    let img := fullImage s (pq e 2)
    let ds := deltaEntries s (pq e 2) n
    let changes := if full then imageCodes img else ds.map fun d => (d.1.getD 0, d.2)
    let all := changes ++ reportChanges s
    let g := newGen s full (mapSetAll 0 (settledCodes s) all) (if full then [] else mapSetAll 4 [] all) (pqS e 4)
    Turn 0x0201 e s r → rsvOk e [0x80000000, allBits, allBits, allBits, allBits, allBits] = true → pq e 2 % 64 = 0 →
      (full = true → n = 0 ∧ hostReadEnd s (pq e 2) 10649600 = .ok ∧ imageBad (settledCodes s) img = false) →
      (full = false → 1 ≤ n ∧ n ≤ 31948800 ∧ hostReadEnd s (pq e 2) (8 * n) = .ok ∧ deltaBad ds = false ∧
        copyPoisoned s changes = false) →
      s.par.state ≠ .shadow → s.map.gens ≠ [] → s.map.pending = none →
      (∀ b, g.boundary = some b → earliestBoundary s (genSpan g) ≤ b) →
      Answers (.mapPush e) s (fun t => ∃ u : State, t = finish u r stOk (pushResult g) ∧ u.map.pending = some (nextGen s) ∧
        u.map.gens = s.map.gens ++ [g] ∧ u.map.reports = [])) ∧
  (∀ (e : Entry) (s : State) (r : InFlight),
    let pend := bitOf (pw e 0) 31
    let m := fld (pw e 0) 0 6
    let g := if pend then s.map.gens.find? (fun x => s.map.pending == some x.number) else settledGen s
    Turn 0x0205 e s r → rsvOk e [0x8000003F, 0, allBits, allBits] = true → m < 40 → (pend = true → s.map.pending ≠ none) →
      let hit := s.map.poisoned.filter fun x => x.1 / 4 == m
      let t := hostPutDws s (pq e 2) (moduleImage (g.elim [] Gen.codes) m)
      (pend = true ∨ hit = [] → exec (.mapRead e) s = .next (finish t r stOk [])) ∧
      (pend = false → hit ≠ [] → exec (.mapRead e) s = .next (finish (emitAll t
        (hit.map fun x => .epWrite (pq e 2 + 4 * (x.1 % 4 * 16640 + x.2)) 4)) r stPoisonedData []))) ∧
  (∀ (s : State) (k : Nat) (g : Gen), s.map.pending = some k → s.map.gens.find? (fun x => x.number == k) = some g →
    genApplied s g = true →
    Answers .mapApplied s (fun t => t.map.pending = none ∧ t.map.gens.length = s.map.gens.length)) ∧
  (∀ s : State, forms s = true → s.map.pending = none →
    let first := s.map.gens.isEmpty
    let codes := settledCodes s
    let all := waitingChanges s
    (first = true → joinedModules s ≠ []) → (first = false → realChanges codes all ≠ []) →
    Answers .generationForm s (fun t => t.map.pending = some (nextGen s) ∧ t.map.reports = [] ∧ t.map.joins = [] ∧
      ∃ g : Gen, t.map.gens = s.map.gens ++ [g] ∧ g.number = nextGen s ∧ g.full = first ∧ g.codes = mapSetAll 0 codes all))

/-- Lane events: LANE_DETECT, POLARITY_COUNT, SLIP_TRIAL, MARK_LOCK, LOS, LOL, CHK_FAIL, STUFFING_VIOLATION (R183,
R188, R209, R212, R213, R215, R225, R229, R269). Clauses that rest on choices of the model, which no rule makes: lanes
before their group is enabled (log 53) and after three failed searches (log 54); when the bounds are tested (log 152)
and the bound of LOCK before a rate is known (log 177); what a group that leaves RUN loses (log 56). -/
def Obligations.LaneEvents : Prop :=
  ∀ (lane : Nat) (s : State) (x : Lane), lane < 172 → s.dxl.lanes[lane]? = some x →
    let g := laneGroup lane
    (lanesRun s g = true → x.state = .detect ∨ (x.state = .down ∧ x.searches < 3) →
      Answers (.laneDetect lane) s (fun t => (laneAt t lane).state = .polarity ∧ t.dxl.groups = s.dxl.groups ∧
        ∀ l, l ≠ lane → t.dxl.lanes[l]? = s.dxl.lanes[l]?)) ∧
    (∀ ones, x.state = .polarity → s.time.clk ≤ x.since + polarityBound →
      (60 * 4096 < 100 * ones → Answers (.polarityCount lane ones) s (fun t =>
        (laneAt t lane).state = .slip ∧ (laneAt t lane).trials = 0)) ∧
      (100 * ones < 40 * 4096 → Answers (.polarityCount lane ones) s (fun t =>
        (laneAt t lane).state = .polarity ∧ (laneAt t lane).inverted = true))) ∧
    (∀ train1, x.state = .slip →
      Answers (.slipTrial lane ⟨true, train1⟩) s (fun t => (laneAt t lane).state = .lock ∧
        (laneAt t lane).searches = x.searches ∧ (laneAt t lane).farLocked = train1) ∧
      (x.trials < 65 → Answers (.slipTrial lane ⟨false, train1⟩) s (fun t =>
        (laneAt t lane).state = .slip ∧ (laneAt t lane).trials = x.trials + 1))) ∧
    (x.state = .lock → Answers (.slipTrial lane ⟨true, true⟩) s (fun t => (laneAt t lane).state = .lock ∧
      (laneAt t lane).farLocked = true)) ∧
    (∀ c : Instr, (∃ b, c = .slipTrial lane ⟨false, b⟩ ∧ x.state = .slip ∧ 65 ≤ x.trials) ∨
      (∃ ones, c = .polarityCount lane ones ∧ x.state = .polarity ∧ x.since + polarityBound < s.time.clk) ∨
      (∃ l, c = .markLock lane l ∧ x.state = .lock ∧ x.since + lockBound s lane < s.time.clk) →
      (x.searches < 2 → Answers c s (fun t => (laneAt t lane).state = .detect ∧
        (laneAt t lane).searches = x.searches + 1)) ∧
      (2 ≤ x.searches → Answers c s (fun t => (laneAt t lane).state = .down ∧ (laneAt t lane).searches = 3))) ∧
    (∀ logical, x.state = .lock → s.time.clk ≤ x.since + lockBound s lane →
      ((groupAt s g).run = false → (groupAt s g).step = 0 → Answers (.markLock lane logical) s (fun t =>
        (laneAt t lane).state = .ordered ∧ (laneAt t lane).logical = some (logical % 4) ∧
        (laneAt t lane).searches = 0)) ∧
      (∀ y, s.dxl.groups[g]? = some y → y.run = true → (g < 40 ∨ g = 44) → Answers (.markLock lane logical) s (fun t =>
        (laneAt t lane).state = .run ∧ (laneAt t lane).logical = some 3 ∧ (groupAt t g).spare = true))) ∧
    (∀ y, s.dxl.groups[g]? = some y → x.state = .run →
      (∀ (c : Instr) (st : LaneState), (c = .los lane ∧ st = .down) ∨ ((∃ b, c = .lol lane b) ∧ st = .detect) →
        (g < 40 ∨ g = 44 → (x.logical = none ∨ x.logical = some 3) →
          Answers c s (fun t => (laneAt t lane).state = st ∧ (groupAt t g).spare = false ∧ (groupAt t g).run = y.run)) ∧
        (∀ ll, g < 40 ∨ g = 44 → x.logical = some ll → ll ≠ 3 → y.spare = true →
          Answers c s (fun t => (laneAt t lane).state = st ∧ (groupAt t g).spare = false ∧ (groupAt t g).run = y.run ∧
            (groupAt t g).restripe = some (ll, 4, 0, 0))) ∧
        (∀ ll, g < 40 ∨ g = 44 → x.logical = some ll → ll ≠ 3 → y.spare = false →
          Answers c s (fun t => (groupAt t g).run = false ∧ (groupAt t g).joined = false)) ∧
        (40 ≤ g → g < 44 → Answers c s (fun t => (groupAt t g).run = false)))) ∧
    (∀ c, c = .chkFail lane ∨ c = .stuffingViolation lane →
      Answers c s (fun t => t.dxl = s.dxl ∧ t.map = s.map ∧
        (168 ≤ lane → servitor s = true → ∀ k, k < 160 → k ∈ t.csc.marks ∧ k ∈ t.csc.refillMarks) ∧
        (lane < 168 ∨ servitor s = false → t.csc = s.csc)))

/-- Group events: GROUP_BRINGUP, SPARE_ABSENT, TMDATA, MAPACK, MCRC_TIMEOUT, ECHO_RSP, LATENCY_MEASURE, RESTRIPE_REQ,
RESTRIPE, RESTRIPE_SWITCH (R178, R194, R206, R210, R211, R213, R222, R223, R225, R228). Clauses that rest on choices
of the model, which no rule makes: the rate a bring-up brings (log 144) and the one before it (log 57); the codes of a
group's step (log 55); how half the round trip is rounded (log 145); a touchmark out of form (log 179) and a camera
pair's lane order (log 180); a re-stripe's switch slot is free (log 5). -/
def Obligations.GroupEvents : Prop :=
  ∀ (g : Nat) (s : State) (x : Group), g < 45 → s.dxl.groups[g]? = some x →
    (let ls := orderedLanes s g
     lanesRun s g = true → x.run = false → x.step = 0 → (if 40 ≤ g ∧ g < 44 then 2 else 3) ≤ ls.length →
      ((claimed s ls).Nodup → ∀ rate, Answers (.groupBringup ⟨g, rate⟩) s (fun t =>
        (g < 44 → (groupAt t g).rate = rate % 4) ∧
        (g < 40 → (groupAt t g).step = 1 ∧ (groupAt t g).run = false ∧ (groupAt t g).fresh.asked = 33 ∧
          (groupAt t g).fresh.got = 0) ∧
        (40 ≤ g → (groupAt t g).run = true ∧ (groupAt t g).spare = (ls.length == 4)))) ∧
      (¬ (claimed s ls).Nodup → ∀ rate, Answers (.groupBringup ⟨g, rate⟩) s (fun t => (groupAt t g).run = false ∧
        ∀ l ∈ groupLanes g, ∀ y, t.dxl.lanes[l]? = some y → y.state = .detect))) ∧
    (g < 40 ∨ g = 44 → x.run = true ∨ x.step ≠ 0 → (orderedLanes s g).length = 3 →
      Answers (.spareAbsent g) s (fun t => (groupAt t g).spare = false ∧ (groupAt t g).run = x.run)) ∧
    (∀ (off : Nat) (d : Dword), g < 40 → off ≠ 0xFFFF → off = x.fresh.got → off < x.fresh.asked →
      let f := { x.fresh with dwords := mapSet 0 x.fresh.dwords off d, got := off + 1,
                              total := if off = 1 then fld d 0 16 else x.fresh.total }
      (x.step = 1 ∨ x.auth = true → off + 1 < x.fresh.asked →
        Answers (.tmdata g off d) s (fun t => (groupAt t g).fresh = f ∧ (groupAt t g).step = x.step)) ∧
      (x.step = 1 → x.auth = false → off + 1 = x.fresh.asked → off + 1 = f.total → touchOk f = true →
        bitOf (fdw f 5) (12 + x.rate) = true →
        Answers (.tmdata g off d) s (fun t => (groupAt t g).touch = { f with valid := true } ∧ (groupAt t g).step = 2 ∧
          (groupAt t g).echoToken = (s.dxl.tokens + 1) % 2 ^ 16))) ∧
    (∀ d : Dword, ∀ n, g < 40 → x.step = 3 → x.unprompted = some n →
      Answers (.tmdata g 0xFFFF d) s (fun t => (groupAt t g).unprompted = none ∧
        ((∃ y ∈ s.map.gens, y.number = n ∧ crc32d (moduleImage y.codes g) = d.toNat) → (g, n) ∈ t.map.acked))) ∧
    (∀ gen : Dword, g < 40 → x.step = 3 →
      (gen.toNat ≠ 0 → ∀ ok, Answers (.mapack g ok true gen) s (fun t => (groupAt t g).unprompted = some gen.toNat)) ∧
      (∀ c, (∃ ok, c = Instr.mapack g ok true gen ∧ gen.toNat = 0) ∨ (c = .mcrcTimeout g ∧ x.unprompted ≠ none) →
        Answers c s (fun t => (∀ a ∈ t.map.acked, a.1 ≠ g) ∧
          (s.map.gens = [] → (groupAt t g).joined = true ∧ (groupAt t g).run = true ∧ (groupAt t g).step = 0) ∧
          (s.map.gens ≠ [] → (groupAt t g).step = 4)))) ∧
    (∀ (gen : Dword) (k : Gen), g < 40 → s.map.gens.find? (fun y => y.number == gen.toNat) = some k →
      x.run = true ∨ x.step = 4 →
      Answers (.mapack g true false gen) s (fun t => (g, gen.toNat) ∈ t.map.acked) ∧
      exec (.mapack g false false gen) s = .next (sendGenTo s k true g)) ∧
    (∀ turn trip : Nat, g < 40 → x.run = true ∨ x.step = 2 →
      let l := (trip - turn) / 2
      Answers (.echoRsp g x.echoToken turn trip) s (fun t => (groupAt t g).latency = l ∧ (groupAt t g).run = x.run ∧
        Sent.ctrl g (ctrlWord 0x48 [(40, l % 2 ^ 16)]) ∈ t.out ∧
        (x.run = false → (groupAt t g).step = if l ≤ 3200 then 3 else 9))) ∧
    (g < 40 → x.run = true → Answers (.latencyMeasure g) s (fun t => t.dxl.tokens = (s.dxl.tokens + 1) % 2 ^ 16 ∧
      (groupAt t g).echoToken = (s.dxl.tokens + 1) % 2 ^ 16)) ∧
    (∀ ll cause : Nat, g < 40 ∨ g = 44 → x.run = true → ll < 3 → 1 ≤ cause → cause ≤ 3 →
      Answers (.restripeReq g ll cause) s (fun t => (groupAt t g).restripeTx = some (ll, txLane s g 3 % 4) ∧
        t.free = s.free + 1)) ∧
    (∀ ll phys sfn slot : Nat, g < 40 ∨ g = 44 → x.run = true → ll < 3 → phys < 4 →
      Answers (.restripe g ll phys sfn slot) s (fun t => (groupAt t g).restripe = some (ll, phys, sfn % 64, slot % 1024))) ∧
    (∀ ll phys a b y, x.restripe = some (ll, phys, a, b) → phys < 4 → s.dxl.lanes[(groupLanes g).headD 0 + phys]? = some y →
      Answers (.restripeSwitch g true) s (fun t => (groupAt t g).restripe = none ∧
        (laneAt t ((groupLanes g).headD 0 + phys)).logical = some ll)) ∧
    (∀ ll phys y, x.restripeTx = some (ll, phys) → s.dxl.lanes[(groupLanes g).headD 0 + phys]? = some y →
      Answers (.restripeSwitch g false) s (fun t => (groupAt t g).restripeTx = none ∧
        (laneAt t ((groupLanes g).headD 0 + phys)).txLogical = ll))

/-- Words from modules: MARK, STATUS, HELD, RESEND, EHR, TEMP, FAULT (R123, R132, R191, R201, R202, R203, R207, R217,
R264, R265, R271). Clauses that rest on choices of the model, which no rule makes: which counter a FAULT kind takes
(log 151). -/
def Obligations.ModuleWords : Prop :=
  ∀ (g : Nat) (s : State) (x : Group), g < 40 → s.dxl.groups[g]? = some x →
    (∀ (port : Bool) (echo : Nat) (ep : Dword), Answers (.mark g ⟨port, echo, ep⟩) s (fun t =>
      (groupAt t g).accEpoch = ep ∧ (groupAt t g).port = port ∧ (groupAt t g).echo = echo % 64 ∧
      (isGaffer s = true → s.par.epoch < ep.toNat → t.par.state = .shadow ∧ t.par.mustFall = true) ∧
      (isGaffer s = false ∨ ep.toNat ≤ s.par.epoch → t.par = s.par))) ∧
    (∀ body : BitVec 48, Answers (.status g body) s (fun t => (groupAt t g).mstate = fld body 44 4 ∧
      (groupAt t g).port = bitOf body 43 ∧ (groupAt t g).accepting = bitOf body 42 ∧ (groupAt t g).fired = bitOf body 41 ∧
      (groupAt t g).ceasedFlag = bitOf body 40 ∧ (groupAt t g).accEpoch = BitVec.ofNat 32 (fld body 8 32))) ∧
    (∀ (q rseq : Nat) (lo : Dword), q < 4 → x.run = true →
      let k := mp g q
      let base := mapGet minI64 s.dxl.released k
      let n := nearLine (if base = minI64 then lineCounter s else base) lo
      Answers (.held g q rseq lo) s (fun t => t.dxl.heldLine = mapSet minI64 s.dxl.heldLine k n ∧
        t.dxl.lastHeld = mapSet 0 s.dxl.lastHeld k rseq ∧
        ∀ y ∈ s.dxl.replay, y ∈ t.dxl.replay ↔ y ∉ freeHeld s k rseq n)) ∧
    (∀ q rseq : Nat, q < 4 → x.run = true →
      let k := mp g q
      let mine := (s.dxl.replay.filter fun r => mp r.m r.q == k).dropWhile fun r => r.rseq != rseq
      (mine ≠ [] → exec (.resend g q rseq) s = .next (countN (mine.foldl sendRec s) (cnum 4 (728 + g)) mine.length)) ∧
      (mine = [] → rseq ≠ mapGet 0 s.dxl.rseq k → Answers (.resend g q rseq) s (fun t => k ∈ t.dxl.resync ∧
        (∀ y ∈ t.dxl.replay, mp y.m y.q ≠ k) ∧ mapGet 0 t.csc.seamReq k = max 63 (mapGet 0 s.csc.seamReq k)))) ∧
    (∀ (cause : Nat) (a : Dword), cause < 16 →
      (∀ o, unpack a = some o → o / moduleEjectors = g → Answers (.ehr g cause a) s (fun t =>
        o ∈ t.map.reports ∧ (∀ y, y ≠ o → (y ∈ t.map.reports ↔ y ∈ s.map.reports)) ∧ t.map.gens = s.map.gens)) ∧
      (unpack a = none → exec (.ehr g cause a) s = .next (count s (cnum 4 814)))) ∧
    (∀ (i : Nat) (v : BitVec 16), i < 16 → exec (.temp g i v) s =
      .next { s with dxl := { s.dxl with temps := mapSet 0x8000 s.dxl.temps (16 * g + i) v.toNat } }) ∧
    (∀ q n : Nat, q < 4 →
      Answers (.fault g q 1 n) s (fun t => mapGet 0 t.csc.seamReq (mp g q) = max 63 (mapGet 0 s.csc.seamReq (mp g q))) ∧
      exec (.fault g q 2 n) s = .next (markRows (countN s (cnum 4 808) n) g q) ∧
      exec (.fault g q 3 n) s = .next (markRows (countN s (cnum 4 809) n) g q) ∧
      exec (.fault g q 4 n) s = .next (raise (setGroup s g fun y => { y with conflicts := y.conflicts + n }) 0x040C
        (it g ++ [x.accEpoch])) ∧
      exec (.fault g q 5 n) s = .next (setGroup s g fun y => { y with crcFails := y.crcFails + n }) ∧
      ∀ kind, kind = 0 ∨ 5 < kind → exec (.fault g q kind n) s = .next s)

/-- CEASE and link commands: CEASE_N, CEASE_N_RELEASE, CEASE_CLEAR, CEASE_ISSUE, CEASED, CEASE_UNCONFIRMED,
LINK_EQ_LOAD, LINK_STATUS, MODULE_AUTH (R180, R219, R221, R395, R446, R479). Clauses that rest on choices of the
model, which no rule makes: which lanes a CEASE goes out on (log 58); CEASE_ACK kept on a further CEASE (log 178) and
in RELOAD_REQUIRED (log 170); the layout of LINK_STATUS (logs 13, 55); MODULE_AUTH's second command (log 126). -/
def Obligations.CeaseAndLinkCommands : Prop :=
  (∀ s : State,
    (s.pins.resetHeld = false → s.pwr.state ≠ .save → Answers .ceaseN s (fun t => t.pins.ceaseN = true ∧
      t.cease.seq = (s.cease.seq + 1) % 256 ∧ t.cease.inForce = true ∧ t.cease.waiting = joinedModules s ∧
      (s.par.state = .failed → hasRun s = true → t.pins.ceaseAck = s.pins.ceaseAck) ∧
      (hasRun s = true → s.par.state ≠ .failed → s.pwr.state ≠ .off → joinedModules s = [] → t.pins.ceaseAck = true) ∧
      (joinedModules s ≠ [] → hasRun s = true → t.pins.ceaseAck = s.pins.ceaseAck) ∧
      (hasRun s = false → s.pins.driven = true → t.pins.ceaseAck = true))) ∧
    (s.pins.resetHeld = true → exec .ceaseN s = .next { s with pins := { s.pins with ceaseN := true } }) ∧
    (s.pins.resetHeld = false → hasRun s = true → s.pwr.state = .save →
      exec .ceaseN s = .next (ceaseInSave { s with pins := { s.pins with ceaseN := true } } 0)) ∧
    Answers .ceaseNRelease s (fun t => t.pins.ceaseN = false ∧ t.cease = s.cease ∧
      (hasRun s = false → s.pins.driven = true → s.pwr.state ≠ .save → t.pins.ceaseAck = false)) ∧
    (∀ g, g < 40 → s.cease.inForce = true → Answers (.ceased g s.cease.seq) s (fun t =>
      t.cease.waiting = s.cease.waiting.filter (fun m => m != g) ∧ t.cease.inForce = true ∧
      ((∀ m ∈ s.cease.waiting, m = g) → mayAck s = true → t.pins.ceaseAck = true))) ∧
    (s.cease.inForce = true → Answers .ceaseUnconfirmed s (fun t => t.dxl = s.dxl ∧ t.map = s.map ∧
      ((∀ m ∈ s.cease.waiting, (groupAt s m).run = true) → t = s)))) ∧
  ∀ (e : Entry) (s : State) (r : InFlight),
    (Turn 0x0113 e s r → rsvOk e [] = true → s.pins.ceaseN = false → Answers (.ceaseClear e) s (fun t => ∃ u : State,
      t = finish u r stOk [] ∧ u.cease.inForce = false ∧ u.cease.seq = s.cease.seq ∧
      (s.cease.inForce = true → u.pins.ceaseAck = false ∧ u.cease.waiting = []))) ∧
    (Turn 0x0906 e s r → rsvOk e [] = true → Answers (.ceaseIssue e) s (fun t => ∃ u : State, t = finish u r stOk [] ∧
      u.cease.seq = (s.cease.seq + 1) % 256 ∧ u.cease.inForce = true ∧ u.cease.waiting = joinedModules s)) ∧
    (let n := (pw e 0).toNat
     let d := hostDws s (pq e 2) n
     Turn 0x0112 e s r → rsvOk e [allBits, 0, allBits, allBits] = true → hostReadEnd s (pq e 2) (4 * n) = .ok →
      (∀ w ∈ d, eqOk w = true) → Answers (.linkEqLoad e) s (fun t => ∃ u : State, t = finish u r stOk [] ∧
        u.dxl.groups = s.dxl.groups ∧ ∀ w, d.getLast? = some w → ∀ x, s.dxl.lanes[fld w 24 8]? = some x →
          (bitOf w 23 = true → (laneAt u (fld w 24 8)).eqRxNew = w) ∧
          (bitOf w 23 = false → (laneAt u (fld w 24 8)).eqTxNew = w) ∧ (laneAt u (fld w 24 8)).state = x.state)) ∧
    (Turn 0x0115 e s r → rsvOk e [allBits, allBits] = true → exec (.linkStatus e) s =
      .next (finish (hostPutDws s (pq e 0) ((List.range 45).flatMap (groupDws s))) r stOk [])) ∧
    (let g := fld (pw e 0) 0 6
     Turn 0x090A e s r → rsvOk e [0x3F, 0xFFFF, allBits, allBits] = true → g < 40 → pq e 2 % 8 = 0 →
      runningAuth s g = none → hostReadEnd s (pq e 2) 96 = .ok → ∀ x, s.dxl.groups[g]? = some x →
      (x.run = false → exec (.moduleAuth e) s =
        .next (finish (authOutcome s g stModuleAbsent (fld (pw e 1) 0 16)) r stModuleAbsent [])) ∧
      (x.run = true → Answers (.moduleAuth e) s (fun t => (groupAt t g).auth = true ∧ (groupAt t g).fresh.got = 0 ∧
        ∃ y ∈ t.mbx.inFlight, y.entry = e ∧ y.committed = true)))

/-- Assay commands: ASSAY_SETUP, ASSAY_STOP, ASSAY_LOCK, CENSUS_REQUEST, ASSAY_RESULTS, ASSAY_PIXELS (R232, R233,
R237, R243, R249, R252, R255, R268, R404). Clauses that rest on choices of the model, which no rule makes: the number
formats (log 64); which chip forms the update of a setup (log 69), a servitor's variants (log 184) and what a setup
does to alignment (log 70) and to drops gathered (log 186); what locks keep (log 187); a record's RSV bits (log 124);
ASSAY_PIXELS with no setup (log 73); the layout of the results (log 13) and which bytes are marked poisoned (log 159).
-/
def Obligations.AssayCommands : Prop :=
  ∀ (e : Entry) (s : State) (r : InFlight),
    (let d := hostDws s (pq e 2) 64
     let a := setupOf d
     Turn 0x0301 e s r → rsvOk e [0, 0, allBits, allBits] = true → pq e 2 % 64 = 0 → s.job ≠ none →
      hostReadEnd s (pq e 2) 256 = .ok → setupOk s d = true → setupSees s a = true →
      (forms s = false ∨ autoPlanes a = [] ∨ s.asy.curveLock = true ∨ (s.tables.curveUpds.filter (updPending s)).length < 8) →
      Answers (.assaySetup e) s (fun t => ∃ u : State, t = finish u r stOk [] ∧ u.asy.setup = some a ∧ u.asy.windows = [] ∧
        u.asy.stripe = [] ∧ u.asy.wants = [] ∧ u.asy.due = s.asy.due ∧ u.job = s.job)) ∧
    (Turn 0x0302 e s r → rsvOk e [] = true → Answers (.assayStop e) s (fun t => ∃ u : State, t = finish u r stOk [] ∧
      u.asy.setup = none ∧ u.asy.windows = [] ∧ u.asy.stripe = [] ∧ u.asy.wants = [] ∧ u.asy.due = [] ∧
      u.asy.verdicts = s.asy.verdicts ∧ u.tables = s.tables)) ∧
    (let w := pw e 0
     let b := fun (x : Bool) (v : Nat) => if x then v else 0
     Turn 0x0303 e s r → rsvOk e [0x707] = true → fld w 8 3 ≠ 0 → Answers (.assayLock e) s (fun t => ∃ u : State,
      t = finish u r stOk [BitVec.ofNat 32 (b u.asy.censusHold 4 + b u.asy.curveLock 2 + b u.asy.mapLock 1)] ∧
      u.asy.mapLock = (if bitOf w 8 then bitOf w 0 else s.asy.mapLock) ∧
      u.asy.curveLock = (if bitOf w 9 then bitOf w 1 else s.asy.curveLock) ∧
      u.asy.censusHold = (if bitOf w 10 then bitOf w 2 else s.asy.censusHold) ∧ u.asy.setup = s.asy.setup)) ∧
    (Turn 0x0304 e s r → rsvOk e [0xFFFF] = true → Answers (.censusRequest e) s (fun t => ∃ (u : State) (res : List Dword),
      t = finish u r stOk res ∧ ∀ p, p ∈ u.asy.due ↔ p ∈ s.asy.due ∨ (p ∈ observedPlanes s ∧ bitOf (pw e 0) p = true))) ∧
    (let k := mp (fld (pw e 0) 0 6) (fld (pw e 0) 8 2)
     Turn 0x0305 e s r → rsvOk e [0x33F, 0, allBits, allBits] = true → fld (pw e 0) 0 6 < 40 → pq e 2 % 64 = 0 →
      let res := ((assoc s.asy.judged (planeOf (k / 4) (k % 4))).elim (itq (-1)) itq) ++
        it ((((mapGet none s.asy.rref k).elim 0 fun x => fld (BitVec.ofInt 32 x) 0 16) : Nat) : Int)
      let t := hostPut s (pq e 2) ((List.range 199680).map fun i => verdictByte s k (199680 * k + i))
      (0x0305 ∉ s.mem.queryPoison → exec (.assayResults e) s = .next (finish t r stOk res)) ∧
      (0x0305 ∈ s.mem.queryPoison → exec (.assayResults e) s = .next (finish (emit { t with mem := { t.mem with
        queryPoison := t.mem.queryPoison.erase 0x0305 } } (.epWrite (pq e 2) 199680)) r stPoisonedData res))) ∧
    (Turn 0x0306 e s r → rsvOk e [0xF03, 0, allBits, allBits] = true → pq e 2 % 8 = 0 →
      (s.asy.setup = none → exec (.assayPixels e) s = .next (finish s r stOk [0])) ∧
      (∀ a, s.asy.setup = some a →
        let us := usedPixels (camCfg a (fld (pw e 0) 0 2))
        let t := hostPutDws s (pq e 2) (us.flatMap (pixelRecord s a (fld (pw e 0) 0 2) (fld (pw e 0) 8 4)))
        (0x0306 ∉ s.mem.queryPoison → exec (.assayPixels e) s = .next (finish t r stOk [BitVec.ofNat 32 us.length])) ∧
        (0x0306 ∈ s.mem.queryPoison → exec (.assayPixels e) s = .next (finish (emit { t with mem := { t.mem with
          queryPoison := t.mem.queryPoison.erase 0x0306 } } (.epWrite (pq e 2) (8 * us.length))) r stPoisonedData
          [BitVec.ofNat 32 us.length]))))

/-- Assay events: SCAN, SCANEND, CENSUS_DONE, ASSAY_MAP, ASSAY_CURVES (R226, R227, R234, R235, R236, R247, R248, R250,
R251, R252, R268). Clauses that rest on choices of the model, which no rule makes: which pulse an overrun scan leaves
(logs 73, 149, 150); when a census is done (log 72), its reference signal and the order of its changes (log 71); where
a variant wanted is read (log 68). -/
def Obligations.AssayEvents : Prop :=
  (∀ (k : Nat) (s : State) (c : Camera), k < 4 → s.asy.cams[k]? = some c → (groupAt s (40 + k)).run = true →
    (∀ trig pix0 npix deep, Answers (.scan k trig pix0 npix deep) s (fun t => t.dxl = s.dxl ∧
      (camAt t k).open_ = some { trig := trig % 2 ^ 16, pix0 := pix0, npix := npix, deep := deep,
                                 totals := s.pulses.map Pulse.total })) ∧
    (∀ o, c.open_ = some o →
      (∀ trig crc ws, Answers (.scanend k trig crc ws) s (fun t => (camAt t k).open_ = none ∧
        (camAt t k).lastTrig = some o.trig)) ∧
      (∀ a crc ws nt, crc32q ws = crc.toNat → s.asy.setup = some a → cameraFed s a k = true →
        (∀ l, c.lastTrig = some l → o.trig = (l + 1) % 2 ^ 16) →
        let pulse := scanPulse s (camCfg a k) k o.trig (o.totals.getD (camCfg a k).pulse 0)
        (s.pulses.getD (camCfg a k).pulse Pulse.reset).ring[pulse.1]? = some nt → o.trig < 2 ^ 16 →
        Answers (.scanend k o.trig crc ws) s (fun t => (camAt t k).aligned = some pulse.2 ∧
          (k, shownLine s (camCfg a k) nt) ∈ t.asy.shown)))) ∧
  (∀ (p : Nat) (s : State) (a : AsySetup) (start band : Int) (len : Nat), s.asy.setup = some a →
    slotToJudge s p = some (start, band, len) →
    Answers (.censusDone p) s (fun t => (p, band) ∈ t.asy.judged ∧ (∀ x ∈ t.asy.judged, x.1 = p → x.2 = band) ∧
      t.map = s.map)) ∧
  (∀ s : State, forms s = true → s.asy.mapLock = false → s.map.pending = none → s.asy.proposed ≠ [] →
    unfixedPoison s = [] → newestGen s ≠ none →
    let codes := settledCodes s
    ((∃ c ∈ s.asy.proposed, mapGet 0 codes c.1 = c.2.1) → Answers .assayMap s (fun t => t.asy.proposed = [] ∧
      t.map.pending = some (nextGen s) ∧ t.map.reports = [] ∧
      ∃ g : Gen, t.map.gens = s.map.gens ++ [g] ∧ g.number = nextGen s ∧ g.full = false ∧
        ((∀ c ∈ s.asy.proposed, c.2.2 < 4) → (s.asy.proposed.map Prod.fst).Nodup → ∀ o v, (o, v) ∈ g.delta ↔
          (o, v) ∈ reportChanges s ∨
          ((o, 3) ∉ reportChanges s ∧ ∃ w, (o, w, v) ∈ s.asy.proposed ∧ mapGet 0 codes o = w)))) ∧
    ((∀ c ∈ s.asy.proposed, mapGet 0 codes c.1 ≠ c.2.1) →
      exec .assayMap s = .next { s with asy := { s.asy with proposed := [] } })) ∧
  (∀ (s : State) (a : AsySetup), s.asy.setup = some a → forms s = true → s.asy.curveLock = false → s.asy.wants ≠ [] →
    (∀ u ∈ s.tables.curveUpds, updPending s u = true → u.assay = false) →
    (s.tables.curveUpds.filter (updPending s)).length < 8 →
    Answers .assayCurves s (fun t => t.asy.wants = [] ∧ t.tables.curveGen = (s.tables.curveGen + 1) % 2 ^ 16 ∧
      (s.job ≠ none → ∃ u : CurveUpd, t.tables.curveUpds = (foldDropped s).tables.curveUpds ++ [u] ∧ u.assay = true ∧
        u.curves = [] ∧ u.entries = mapSetAll 4096 [] (s.asy.wants.flatMap (wantEntries s a)))))

/-- Partner link and roles: PARTNER_MARK, PARTNER_DOWN, PARTNER_UP, ROLE_SEL, SENTINEL_LAPSE, REF_TIMEOUT, PTSYNC, the
gaffer's sends (R228, R259, R261, R262, R264, R265, R268, R269, R270, R279, R282, R354). Clauses that rest on choices
of the model, which no rule makes: what a break of messages ends (log 74); which chip reports PARTNER_DOWN (log 81);
which reading adopts (log 39); when the parts of a rejoin and POSREF go out (logs 75, 77), how MOTION is cut (log 161)
and what the partner is told of axes (log 107); a resumed motion (logs 108, 163). -/
def Obligations.PairLinkAndRoles : Prop :=
  ∀ s : State,
    (∀ (role : Nat) (ep : Dword), s.par.enabled = true → s.par.linkRun = true → s.par.state ≠ .failed →
      Answers (.partnerMark role ep) s (fun t => t.par.partnerRole = role % 4 ∧ t.par.partnerEpoch = ep.toNat ∧
        (s.par.state = .shadow → role = 1 → t.par.epoch = ep.toNat) ∧
        (s.par.state = .gaffer → role = 1 → s.par.epoch < ep.toNat → t.par.state = .shadow ∧ t.par.mustFall = true ∧
          t.par.epoch = ep.toNat))) ∧
    (s.par.linkRun = true → Answers .partnerDown s (fun t => t.par.linkRun = false ∧ t.par.partnerRole = 0 ∧
      (servitor s = true → s.par.state ≠ .failed → t.par.state = .syncing ∧ t.par.autoDue = true ∧ t.par.rejoin = 0) ∧
      (servitor s = false → t.par.state = s.par.state))) ∧
    (s.par.enabled = true → s.par.state ≠ .failed → (groupAt s 44).run = true → s.par.linkRun = false →
      Answers .partnerUp s (fun t => t.par.linkRun = true ∧ t.par.mseqRx = none ∧ t.mot.told = [])) ∧
    (bootRunning s = true → s.pwr.state ≠ .sleep → s.pwr.state ≠ .off → s.par.state = .shadow →
      (s.par.mustFall = false → epochBase s + 1 ≠ 2 ^ 32 - 1 → Answers .roleSelRise s (fun t =>
        t.par.state = .gaffer ∧ t.par.epoch = epochBase s + 1 ∧ t.pins.roleSel = true)) ∧
      (s.par.mustFall = true → Answers .roleSelRise s (fun t => t.par = s.par ∧ t.pins.roleSel = true))) ∧
    Answers .roleSelFall s (fun t => t.pins.roleSel = false ∧ t.par.mustFall = false ∧
      (isGaffer s = true → bootRunning s = true → t.par.state = .shadow) ∧ (isGaffer s = false → t.par.state = s.par.state)) ∧
    (∀ x : Sentinel, s.par.state ≠ .failed → s.pwr.state ≠ .off → s.pins.resetHeld = false →
      (x = .supply → supplyWatched s = true) → Answers (.sentinelLapse x) s (fun t =>
        t.par.state = .failed ∧ t.par.linkRun = false ∧ t.pins.healthHigh = false)) ∧
    (supplyWatched s = false → exec (.sentinelLapse .supply) s = .next s) ∧
    (s.par.rejoin = 4 → s.ftb.referenced = false → Answers .refTimeout s (fun t => t.par.rejoin = 0 ∧
      t.par.state = s.par.state)) ∧
    (∀ tok : Nat, speaks s = true →
      (s.par.partnerRole ≠ 0 → Answers (.ptsync tok) s (fun t => t.par.ptSeen = 0 ∧
        t.par.mseqTx = (s.par.mseqTx + 1) % 2 ^ 24)) ∧
      (s.par.partnerRole = 0 → s.par.ptSeen < 15 → Answers (.ptsync tok) s (fun t => t.par.ptSeen = s.par.ptSeen + 1 ∧
        t.par.mseqTx = (s.par.mseqTx + 1) % 2 ^ 24)) ∧
      (s.par.partnerRole = 0 → 15 ≤ s.par.ptSeen → Answers (.ptsync tok) s (fun t => t.par.ptSeen = 0))) ∧
    (listens s = true → Answers .ptsyncSend s (fun t => t.par.ptToken = (s.par.ptToken + 1) % 2 ^ 16 ∧
      ((s.par.ptToken + 1) % 2 ^ 16, nowNs s) ∈ t.par.ptSent)) ∧
    (∀ c, c = .posrefSend ∨ c = .locksSend → speaks s = true → Answers c s (fun t =>
      t.par.mseqTx = (s.par.mseqTx + 1) % 2 ^ 24 ∧ t.par.state = s.par.state ∧ lineCounter t = lineCounter s)) ∧
    (isGaffer s = true → s.par.enabled = true → s.par.linkRun = true → Answers .motionSend s (fun t =>
      t.par.mseqTx = (s.par.mseqTx + 1) % 2 ^ 24 ∧ t.mot.axes = s.mot.axes ∧ t.mot.loops = s.mot.loops))

/-- Messages to a servitor: GEN, CURVES, LOCKS, PAGE, PAGEEND, POSREF, MOTION, TSYNC, PRHO, POOS (R116, R125, R140,
R268, R269, R270, R271, R273, R284, R285, R354, R490). Clauses that rest on choices of the model, which no rule makes:
a generation's messages (log 51); a servitor's own variants of its setup (log 184); how large messages are cut (log
76); counts since T (log 78); losses that end shadow running (log 74); the records a MOTION carries (log 161); the
rounding of an offset (log 185) and the median (log 82); a tick whose rho was not told (log 49). -/
def Obligations.PairMessages : Prop :=
  (∀ (msg : PMsg) (s : State), listens s = true → s.par.state = .shadow → s.par.rejoin = 0 → msg.crcOk = true →
    (∀ l, s.par.mseqRx = some l → msg.mseq % 2 ^ 24 = (l + 1) % 2 ^ 24) →
    (let number := fld (mw msg 0) 32 32
     let full := bitOf (mw msg 0) 31
     let ws := msg.words.drop 2
     (ws = [] → bitOf (mw msg 0) 30 = true → fld (mw msg 0) 0 26 = 0 → (∃ g ∈ s.map.gens, g.number = number) →
       Answers (.gen msg) s (fun t => t.map.pending = some number ∧ t.map.gens.length = s.map.gens.length ∧
         ∀ g ∈ t.map.gens, g.number = number → g.boundary = some (mwS msg 1))) ∧
     ((∀ g ∈ s.map.gens, g.number ≠ number) → fld (mw msg 0) 0 26 = 0 →
       (bitOf (mw msg 0) 30 = true → Answers (.gen msg) s (fun t => ∃ g : Gen, t.map.gens = s.map.gens ++ [g] ∧
         g.number = number ∧ g.boundary = some (mwS msg 1) ∧ g.full = full ∧
         g.codes = mapSetAll 0 (if full then [] else ((newestGen s).elim [] Gen.codes)) (genPartCodes full 0 ws))) ∧
       (bitOf (mw msg 0) 30 = false → Answers (.gen msg) s (fun t => t.map.gens = s.map.gens ∧
         ∃ g : Gen, t.map.arriving = some g ∧ g.number = number)))) ∧
    Answers (.curves msg) s (fun t => t.tables.curveGen = fld (mw msg 0) 48 16 ∧
      (s.job ≠ none → t.tables.curveUpds = (foldDropped s).tables.curveUpds ++
        [{ line := mwS msg 1, assay := true, out := false
           curves := (match s.asy.setup with
             | some a => if s.asy.variantsDue then setupVariants s a else []
             | none => [])
           entries := curveEntries ((msg.words.drop 2).take (fld (mw msg 0) 0 32)) }])) ∧
    Answers (.locks msg) s (fun t => t.asy.mapLock = bitOf (mw msg 0) 0 ∧ t.asy.curveLock = bitOf (mw msg 0) 1 ∧
      t.asy.censusHold = bitOf (mw msg 0) 2 ∧ t.asy.setup = s.asy.setup) ∧
    (let x := pageMsg msg
     (∀ p, pageOf s x.1 = some p → pageActive p = true → x.2.1 = 1 → Answers (.page msg) s (fun t =>
       ∃ q, pageOf t x.1 = some q ∧ q.n0 = some (wrapS 64 x.2.2.2.2.1) ∧ q.state = p.state)) ∧
     (pageOf s x.1 = none → (∀ u ∈ s.par.unshadowed, u.1 ≠ x.1) → Answers (.page msg) s (fun t => x ∈ t.par.pageMsgs ∧
       t.pages = s.pages))) ∧
    (let id : Dword := BitVec.ofNat 32 (fld (mw msg 0) 32 32)
     ∀ p, pageOf s id = some p → pageActive p = true →
      (fld (mw msg 0) 28 4 = 1 → Answers (.pageend msg) s (fun t => (id, 1, endLines msg) ∈ t.par.pageEnds ∧
        t.pages = s.pages)) ∧
      (fld (mw msg 0) 28 4 ≠ 1 → Answers (.pageend msg) s (fun t => ∃ q, pageOf t id = some q ∧ q.state = .aborted ∧
        q.cut = true ∧ q.cuts = (planesInUse s).zip (endLines msg)))) ∧
    (∀ since : List Int,
      Answers (.posref msg true since) s (fun t => t.ftb = s.ftb ∧ t.encs = s.encs ∧ t.par.state = .shadow) ∧
      (s.webCfg.pacing = false →
        let t0 := catchUp s (refValues s msg (sinceT s msg)) since
        (agrees s t0 msg since (bitOf (mw msg 15) 1 || bitOf (mw msg 15) 2 || bitOf (mw msg 15) 3) = true → Answers (.posref msg false since) s (fun t => t.ftb = s.ftb ∧ t.encs = s.encs ∧
          t.par.state = .shadow)) ∧
        (agrees s t0 msg since false = false → fld (mw msg 15) 1 3 = 0 → Answers (.posref msg false since) s (fun t =>
          t.par.state = .syncing ∧ t.par.autoDue = true)))) ∧
    (∀ parts rest, motionParts s msg.words = some (parts, rest) →
      Answers (.motion msg) s (fun t => t.par.state = .shadow ∧ (rest = [] → ∀ l ∈ t.mot.loops, l.mode = .off) ∧
        ∀ i, i < 8 → ∀ a, t.mot.axes[i]? = some a →
          (parts.find? (fun p => p.axis == i) = none → a.state = .disabled) ∧
          (∀ p, parts.find? (fun p => p.axis == i) = some p → a.pos = signed 64 (p.words.getD 1 0).toNat ∧
            a.state = axisOfCode (fld (p.words.getD 0 0) 57 4)))) ∧
    (∀ (t4 t1 : Int) (tok : Nat), s.par.ptSent.find? (fun x => x.1 == fld (mw msg 0) 48 16) = some (tok, t1) →
      Answers (.tsync msg t4) s (fun t => t.par.deltas.getLast? =
        some (((wordsNs (mw msg 1) (mw msg 2) - t1) - (t4 - wordsNs (mw msg 3) (mw msg 4))) / 2) ∧
        ∀ x ∈ t.par.ptSent, x.1 ≠ tok))) ∧
  (∀ (s : State) (lo rho : Nat), listens s = true →
    let c := lineCounter s + signed 16 (unsignedOf 16 ((lo : Int) - lineCounter s))
    lineCounter s < c → (∀ x ∈ s.csc.rho, x.1 ≠ c) →
    Answers (.prho lo rho) s (fun t => t.csc.rho = s.csc.rho ++ [(c, rho % 2 ^ 21)])) ∧
  (∀ (s : State) (m q cause : Nat) (n : Dword), listens s = true → m < 40 → q < 4 → 1 ≤ cause → cause ≤ 3 →
    Answers (.poos m q cause n) s (fun t => mp m q ∈ t.csc.marks ∧ ∀ k, k ≠ mp m q → (k ∈ t.csc.marks ↔ k ∈ s.csc.marks)))

/-- Pair commands and rejoin: PAIR_CONFIG, ROLE_FOUND, PAIR_REJOIN, REJOIN_AUTO, PAIR_STATUS, DIGEST, BLOCK, and the
reference (R268, R269, R281, R282, R284, R285, R286, R404). Clauses that rest on choices of the model, which no rule
makes: ROLE_FOUND elsewhere (log 80) and a pair's state after SLEEP (log 37); what PAIR_REJOIN answers (log 79); when
the parts of a rejoin end (logs 75, 154); the digest's bytes (log 76); the layout of PAIR_STATUS (log 13). -/
def Obligations.PairCommandsAndRejoin : Prop :=
  (∀ (e : Entry) (s : State) (r : InFlight),
    (Turn 0x0801 e s r → rsvOk e [0x80000003] = true → (bitOf (pw e 0) 31 = true → fld (pw e 0) 0 2 ≠ 0) →
      s.par.state ≠ .gaffer → s.par.state ≠ .shadow → Answers (.pairConfig e) s (fun t => ∃ u : State,
        t = finish u r stOk [] ∧ u.par.enabled = bitOf (pw e 0) 31 ∧ u.par.ptlRate = fld (pw e 0) 0 2 ∧
        u.par.state = s.par.state)) ∧
    (Turn 0x0802 e s r → rsvOk e [] = true → (s.par.enabled = false ∨ s.par.linkRun = false ∨ s.par.partnerRole = 0) →
      (s.par.state = .syncing → Answers (.roleFound e) s (fun t => ∃ u : State, t = finish u r stOk [] ∧
        u.par.state = .shadow ∧ u.par.rejoin = 0 ∧ u.par.autoDue = false ∧ u.ftb.referenced = true ∧
        u.pins.healthReady = true)) ∧
      (s.par.state = .shadow → exec (.roleFound e) s = .next (finish s r stOk []))) ∧
    (∀ v : Dword, Turn 0x0803 e s r → rsvOk e [] = true → s.par.state = .syncing → runningCmd s 0x0803 = none →
      s.par.linkRun = true → majorMinor s.boot.fwVersion = majorMinor v →
      Answers (.pairRejoin e v) s (fun t => t.par.rejoin = 3 ∧ t.par.epoch = s.par.partnerEpoch ∧ t.par.deltas = [] ∧
        t.par.ptSent.length = 16 ∧ t.ftb.referenced = false ∧ ∃ x ∈ t.mbx.inFlight, x.entry = e ∧ x.committed = true)) ∧
    (Turn 0x0804 e s r → rsvOk e [] = true → ∃ res : List Dword, exec (.pairStatus e) s = .next (finish s r stOk res) ∧
      res.getD 1 0 = BitVec.ofNat 32 s.par.epoch ∧ (res.getD 0 0).toNat % 4 = pairCode s.par.state)) ∧
  (∀ (v : Dword) (s : State), s.par.autoDue = true → s.par.state = .syncing → servitor s = true → s.par.linkRun = true →
    bootRunning s = true → s.par.rejoin = 0 → majorMinor s.boot.fwVersion = majorMinor v →
    Answers (.rejoinAuto v) s (fun t => t.par.rejoin = 3 ∧ t.par.epoch = s.par.partnerEpoch ∧ t.par.autoDue = false ∧
      t.par.ptSent.length = 16)) ∧
  (∀ (msg : PMsg) (s : State), listens s = true → s.par.state = .syncing → msg.crcOk = true →
    (∀ l, s.par.mseqRx = some l → msg.mseq % 2 ^ 24 = (l + 1) % 2 ^ 24) → 4 ∉ s.par.rejoinGot →
    (s.par.rejoin = 5 →
      (digestDiffers s msg.words = none → Answers (.digest msg) s (fun t => t.par.rejoin = 6 ∧ 1 ∈ t.par.rejoinGot)) ∧
      (∀ x, digestDiffers s msg.words = some x → Answers (.digest msg) s (fun t => t.par.rejoin = 0 ∧
        t.par.state = .syncing))) ∧
    (s.par.rejoin = 6 →
      let ws := s.par.blockGot ++ msg.words
      let need := 64 * (blockCurves s).length + 41600 * (autoNow s).length
      (need ≤ ws.length → Answers (.block msg) s (fun t => 3 ∈ t.par.rejoinGot ∧ t.par.blockGot = [] ∧
        t.tables = (takeBlock s ws).tables)) ∧
      (ws.length < need → Answers (.block msg) s (fun t => t.par.blockGot = ws ∧ t.tables = s.tables))) ∧
    (∀ since : List Int, s.par.rejoin = 4 → s.ftb.referenced = false → 1 ∉ s.par.rejoinGot →
      Answers (.posref msg false since) s (fun t => t.par.rejoin = 5 ∧ t.ftb.referenced = true ∧
        lineCounter t = mwS msg 16 ∧
        ∀ k e, k < 12 → s.encs[k]? = some e → ∃ x, t.encs[k]? = some x ∧
          x.offset = wrapS 64 (mwS msg (2 + k) - (e.pos - netCounts since k)))))

/-- Memory commands: MEM_CONFIG, MEM_REGIONS, BURNISH_RUN, BURNISH_STOP, MEM_MIGRATE, MEM_RETIRE, CULLET_READ,
MEM_STATUS (R291, R292, R293, R299, R300, R306, R307, R310, R314, R315, R317, R404). Clauses that rest on choices of
the model, which no rule makes: what the commands see of the DRAM devices (log 85) and its address map (log 155); the
order of MEM_CONFIG's checks (log 90); which reserve row a retirement takes (log 88) and its reads in one step (log
191); an unread record's RSV bits (log 124); the layout of MEM_STATUS (log 91) and of CULLET_READ's result (log 13).
-/
def Obligations.MemoryCommands : Prop :=
  ∀ (e : Entry) (s : State) (r : InFlight),
    (∀ found : Population,
      let d := hostDws s (pq e 2) 4
      let ex := hostDws s (pq e 2 + 16) (fld (rdw d 2) 0 11)
      let c := readMemCfg d ex
      Turn 0x0401 e s r → s.mem.ready = false → rsvOk e [0, 0, allBits, allBits] = true → pq e 2 % 64 = 0 →
      hostReadEnd s (pq e 2) 16 = .ok → memHeaderOk d = true → hostReadEnd s (pq e 2 + 16) (4 * fld (rdw d 2) 0 11) = .ok →
      ex.all (exclOk c) = true → sparesOk c = true → populationOk c found = true →
      Answers (.memConfig e found) s (fun t => ∃ u : State, t = finish u r stOk [] ∧ u.mem.cfg = some c ∧
        u.mem.ranks = ranksFrom c ∧ u.mem.ready = false ∧ u.mem.remap = s.mem.remap)) ∧
    (∀ c, let d := hostDws s (pq e 2) 16
      Turn 0x0402 e s r → rsvOk e [0, 0, allBits, allBits] = true → pq e 2 % 64 = 0 → s.mem.ready = false →
      s.mem.cfg = some c → hostReadEnd s (pq e 2) 64 = .ok → regionsOk d = true →
      ((regionsFrom d).map unitsUsed).sum ≤ cSysUnits c →
      exec (.memRegions e) s = .next (finish
        { s with mem := { s.mem with regions := regionsFrom d, ready := true, poisoned := [] } } r stOk (it (cSysUnits c)))) ∧
    (∀ g, Turn 0x0403 e s r → regionAt s (fld (pw e 0) 28 4) = some g →
      rsvOk e [0xF0000007, 0xFFFF, allBits, allBits, allBits, allBits, allBits, allBits] = true →
      1 ≤ fld (pw e 0) 0 3 → fld (pw e 0) 0 3 ≤ 4 → 1 ≤ pq e 4 → pq e 2 + pq e 4 ≤ 65536 * g.size → pq e 6 % 64 = 0 →
      s.mem.burnish = none → Answers (.burnishRun e) s (fun t =>
        (∃ b : Burnish, t.mem.burnish = some b ∧ b.region = fld (pw e 0) 28 4 ∧ b.first = pq e 2 ∧ b.pages = pq e 4 ∧
          b.rate = fld (pw e 0) 0 3 ∧ b.pagesDone = 0 ∧ b.stopping = false) ∧
        ∃ x ∈ t.mbx.inFlight, x.entry = e ∧ x.committed = true)) ∧
    (∀ b, Turn 0x0404 e s r → rsvOk e [] = true → s.mem.burnish = some b → exec (.burnishStop e) s = .next (finish
      { s with mem := { s.mem with burnish := some { b with stopping := true } } } r stOk [])) ∧
    (let ch := fld (pw e 0) 28 4
     let rank := fld (pw e 0) 26 2
     ∀ x sp, Turn 0x0405 e s r → rsvOk e [0xFC000000] = true → rankAt s ch rank = some x → x.state = .inService →
      rankIn s ch .spare = some sp → sp.rank ≠ rank → Answers (.memMigrate e) s (fun t => ∃ u : State,
        t = finish u r stOk [] ∧ (∃ y, rankAt u ch rank = some y ∧ y.state = .migratingFrom) ∧
        ∃ y, rankAt u ch sp.rank = some y ∧ y.state = .migratingTo)) ∧
    (let ch := fld (pw e 0) 28 4
     let rank := fld (pw e 0) 26 2
     ∀ c x place, Turn 0x0406 e s r → s.mem.cfg = some c → rankAt s ch rank = some x → rsvOk e [0xFFFFFFF0] = true →
      retirable s c (pw e 0) = true → x.state ≠ .migratingFrom → x.state ≠ .migratingTo → (remapsOn s ch).length < 4096 →
      freeReserve s c ch rank = some place → ∀ row : List BurstRead, Answers (.memRetire ⟨e, row⟩) s (fun t => ∃ u : State,
        t = finish u r stOk [place] ∧ u.mem.remap = s.mem.remap ++ [(pw e 0, place.toNat)] ∧
        (row = [] → u.mem.ranks = s.mem.ranks) ∧
        ∀ b, row = [b] → readStands s b = true → dwOf (firstCopy b).place = pw e 0 → ∃ (data : BitVec 512) (mark : Bool),
          Sent.dramWrite (placeOf place) b.addr (BitVec.allOnes 64) data mark ∈ u.out)) ∧
    (let n := fld (pw e 0) 0 7
     let some_ := (s.mem.cullets.drop s.mem.culletRead).take n
     Turn 0x0407 e s r → rsvOk e [0x7F, 0, allBits, allBits] = true → 1 ≤ n → n ≤ 64 → pq e 2 % 32 = 0 →
      Answers (.culletRead e) s (fun t => ∃ (u : State) (res : List Dword), t = finish u r stOk res ∧
        res.head? = some (BitVec.ofNat 32 some_.length) ∧ u.mem.culletRead = s.mem.culletRead + some_.length ∧
        u.mem.cullets = s.mem.cullets ∧ u.host = (hostPutDws s (pq e 2) (some_.flatMap culletDws)).host)) ∧
    (Turn 0x0408 e s r → rsvOk e [0, 0, allBits, allBits] = true → pq e 2 % 64 = 0 → exec (.memStatus e) s =
      .next (finish (hostPutDws s (pq e 2) (memStatusDws s)) r stOk []))

/-- Memory events: MEM_READ, WRITE_DRAIN, REFRESH_DUE, DRAM_TEMP_READ, BURNISH_DONE, MIGRATION_START, RANK_MIGRATED,
CMD_ERROR, FW_RELOAD (R294, R295, R296, R301, R302, R303, R305, R307, R309, R310, R311, R313). Clauses that rest on
choices of the model, which no rule makes: what is counted where a copy is stored poisoned (log 86); rank errors
counted by row (log 87); what a read, a write and the reads that find nothing stand for (logs 85, 156, 158); the share
of class 3 (log 157); both requests of a STRONG read at once (log 192); ranks shown (log 93) and which rank a
migration names (log 89); FW_RELOAD before RUNNING (log 90). -/
def Obligations.MemoryEvents : Prop :=
  (∀ (arrived : List MemReq) (r : BurstRead) (s : State) (c : MemCfg) (g : Region), s.mem.cfg = some c →
    regionAt s r.region = some g → readStands s r = true → readDue s r = true →
    let qs := requestsOf s r g.code
    let s1 := qs.foldl requestArrives (arrived.foldl readArrives (keepPlaces s r))
    let a := firstCopy r
    let bad := burstPoisoned s r.addr
    let whole := heldWhole s r.addr
    let p := readPlace s a.place
    (qs.all (mayServe s1 c) = false → exec (.memRead ⟨arrived, r⟩) s = .next s1) ∧
    (∀ q ∈ s1.mem.reads, c.wmHigh ≤ (queuedOn s1 q.place.channel).length → mayServe s1 c q = false) ∧
    (otherCopy r ≠ none → r.by_ = .burnish → whole = false → qs.length = 2) ∧
    (qs.all (mayServe s1 c) = true →
      (consumes r = true → bad = false → (whole = true ∨ ∃ n again, copyEnd g.code false a = .good n again) →
        Answers (.memRead ⟨arrived, r⟩) s (fun t => t.mem.delivered = some (r.addr, readData s r, false) ∧
          (r.addr ∈ t.mem.poisoned → r.addr ∈ s.mem.poisoned) ∧ t.pages = s.pages ∧
          t.mem.ranks.map (fun x => (x.ch, x.rank, x.state, x.failing)) =
            s.mem.ranks.map (fun x => (x.ch, x.rank, x.state, x.failing)))) ∧
      (whole = false → copyEnd g.code bad a = .bad → otherCopy r = none → Answers (.memRead ⟨arrived, r⟩) s (fun t =>
        r.addr ∈ t.mem.poisoned ∧ ∀ x, rankAt s p.channel p.rank = some x → x.state = .inService →
          ∃ y, rankAt t p.channel p.rank = some y ∧ y.failing = true)) ∧
      (∀ d n again, whole = false → copyEnd g.code bad a = .bad → otherCopy r = some d →
        copyEnd g.code bad d = .good n again → Answers (.memRead ⟨arrived, r⟩) s (fun t => r.addr ∉ t.mem.poisoned ∧
          isQueued t a.place.channel r.addr = true ∧ t.pages = s.pages)) ∧
      (∀ pg plane layer row col, bad = true → (whole = true ∨ copyEnd g.code true a = .poison) →
        r.use = .block pg plane layer row col → Answers (.memRead ⟨arrived, r⟩) s (fun t =>
          (consumes r = true → t.mem.delivered = some (r.addr, readData s r, true)) ∧
          ∀ x, pageOf t (BitVec.ofNat 32 pg) = some x → ∀ k ∈ x.blocks, k.plane = plane → k.layer = layer → k.row = row →
            k.col = col → k.poisoned = true)))) ∧
  (∀ (ch : Nat) (arrived : List BurstWrite) (s : State) (c : MemCfg), s.mem.cfg = some c → c.wmLow ≤ c.wmHigh →
    let s1 := (arrived.filter fun w => w.place.channel == ch || w.other.any fun p => p.channel == ch).foldl writeArrives s
    Answers (.writeDrain ch arrived) s (fun t => (∀ k, k ≠ ch → queuedOn t k = queuedOn s1 k) ∧
      (c.wmHigh ≤ (queuedOn s1 ch).length → (queuedOn t ch).length = c.wmLow) ∧
      ((queuedOn s1 ch).length < c.wmHigh → queuedOn t ch = if readWaits s ch then
        (queuedOn s1 ch).filter fun w => decide (s.time.clk ≤ w.clk + 8000) else []))) ∧
  (∀ (ch rank : Nat) (s : State) (x : Rank), rankAt s ch rank = some x →
    (refreshes x = true → ∀ arrived, Answers (.refreshDue ch rank arrived) s (fun t => ∃ y, rankAt t ch rank = some y ∧
      y.owed = (if rankWaits (arrived.foldl readArrives s) ch rank = true ∧ x.owed < 8 then x.owed + 1 else 0) ∧ y.state = x.state)) ∧
    (∀ hot, Answers (.dramTempRead ch rank hot) s (fun t => ∃ y, rankAt t ch rank = some y ∧ y.fast = hot ∧
      y.state = x.state)) ∧
    (∀ sp, x.failing = true → x.state = .inService → rankIn s ch .spare = some sp → sp.rank ≠ rank →
      Answers (.migrationStart ch rank) s (fun t => (∃ y, rankAt t ch rank = some y ∧ y.state = .migratingFrom) ∧
        (∃ y, rankAt t ch sp.rank = some y ∧ y.state = .migratingTo) ∧ t.pages = s.pages)) ∧
    Answers (.cmdError ch rank false) s (fun t => t.mem = s.mem) ∧
    (x.state = .inService → Answers (.cmdError ch rank true) s (fun t => ∃ y, rankAt t ch rank = some y ∧
      y.failing = true ∧ y.state = .inService))) ∧
  (∀ (ch : Nat) (s : State) (a b : Rank), rankIn s ch .migratingFrom = some a → rankIn s ch .migratingTo = some b →
    a.rank ≠ b.rank → Answers (.rankMigrated ch) s (fun t => (∃ y, rankAt t ch a.rank = some y ∧ y.state = .retired) ∧ t.pages = s.pages ∧
      ∃ y, rankAt t ch b.rank = some y ∧ y.state = .inService)) ∧
  (∀ (s : State) (b : Burnish) (r : InFlight), s.mem.burnish = some b → runningCmd s 0x0403 = some r →
    let d := { b with pagesDone := if b.stopping then (b.next + 4095) / 4096 else b.pages }
    exec .burnishDone s = .next (finish (hostPutDws { s with mem := { s.mem with burnish := none } } b.summary
      (burnishSummary s d)) r (if b.stopping then stStopped else stOk) (it d.pagesDone))) ∧
  (∀ (ch : Nat) (s : State) (b : Burnish), s.mem.burnish = some b → b.rate ≤ 4 →
    b.rate ≤ classThreeShare s ch ∧ classThreeShare s ch ≤ b.rate + 8 ∧ classThreeShare s ch ≤ 12) ∧
  (∀ (a : Nat) (s : State), bootRunning s = true → Answers (.fwReload a) s (fun t => t.boot.state = .reloadRequired ∧
    t.boot.cause = 7 ∧ t.mbx.inFlight = []))

/-- Axis commands: AXIS_CONFIG, AXIS_MOVE, AXIS_STOP, AXIS_LIMITS, AXIS_HOME, TABLE_LOAD, TABLE_RUN, AXIS_SCALE,
AXIS_STATUS (R322, R325, R326, R329, R330, R333, R334, R335, R336, R338, R358, R404). Clauses that rest on choices of
the model, which no rule makes: AXIS_CONFIG and the feedback (log 95); AXIS_HOME of an axis that leads a pair (logs
94, 160) and with no speed or acceleration (log 96); what an axis in VELOCITY takes (log 101); a table longer than its
slots (log 100); what a follower accepts (log 107); the layout of AXIS_STATUS (log 13). -/
def Obligations.AxisCommands : Prop :=
  ∀ (e : Entry) (s : State) (r : InFlight) (a : Axis), s.mot.axes[axisOf e]? = some a →
    let i := axisOf e
    let done := fun (c : Instr) (P : State → Prop) => Answers c s (fun t => ∃ u : State, t = finish u r stOk [] ∧ P u ∧
      u.pins = s.pins ∧ u.mot.loops = s.mot.loops)
    (Turn 0x0501 e s r → axisCfgOk s e = true →
      (servitor s = true → done (.axisConfig e) (fun u => axisAt u i = { a with cfg := readAxisCfg e })) ∧
      (servitor s = false → (isFollower a = true → a.state = .follower ∧ (axisAt s a.cfg.leader).state = .idle) →
        (isFollower a = false → a.state = .disabled ∨ a.state = .idle) →
        done (.axisConfig e) (fun u => (axisAt u i).cfg = readAxisCfg e ∧ (axisAt u i).pos = a.pos ∧
          (axisAt u i).homed = a.homed ∧ (axisAt u i).state = (if bitOf (pw e 0) 28 then
            (if bitOf (pw e 0) 19 then .follower else .idle) else .disabled) ∧
          ∀ k, k ≠ i → u.mot.axes[k]? = s.mot.axes[k]?))) ∧
    (let dest := moveTarget e a
     let d := wayTo a.pos dest
     Turn 0x0502 e s r → moveOk e a = true → isFollower a = false → a.state = .idle ∨ a.state = .moving →
      (limitsOn a = true → withinLimits a dest = true) → travelOutside s i d d = false →
      towardLimit s i (decide (0 < d)) (decide (d < 0)) = false →
      done (.axisMove e) (fun u => (axisAt u i).state = .moving ∧ (axisAt u i).target = dest ∧ (axisAt u i).newMove = true ∧
        (axisAt u i).pos = a.pos ∧ (axisAt u i).vmax = (pw e 3).toNat ∧ ∀ k, k ≠ i → u.mot.axes[k]? = s.mot.axes[k]?)) ∧
    (Turn 0x0503 e s r → rsvOk e [0xE0000000] = true → isFollower a = false → a.state ≠ .disabled → a.state ≠ .idle →
      (a.state = .stalled → done (.axisStop e) (fun u => (axisAt u i).state = .idle)) ∧
      (a.state ≠ .stalled → done (.axisStop e) (fun u => (axisAt u i).stopReq = some (stopDecel a) ∧
        (axisAt u i).newMove = false ∧ (axisAt u i).state = a.state))) ∧
    (Turn 0x0504 e s r → rsvOk e [0xF0000000, 0, allBits, allBits, allBits, allBits] = true → isFollower a = false →
      -(2 ^ 47 : Int) ≤ pqS e 2 → pqS e 2 < pqS e 4 → pqS e 4 < (2 ^ 47 : Int) →
      (bitOf (pw e 0) 28 = true → pqS e 2 * 65536 ≤ a.pos ∧ a.pos ≤ pqS e 4 * 65536) →
      done (.axisLimits e) (fun u => axisAt u i = { a with vlimEn := bitOf (pw e 0) 28, limLo := pqS e 2, limHi := pqS e 4 })) ∧
    (Turn 0x0505 e s r → (∀ k ∈ linkGroup s i, homeOk e (axisAt s k) = true) → isFollower a = false →
      (a.state = .idle ∨ (followersOf s i ≠ [] ∧ a.state ≠ .disabled ∧ a.state ≠ .stalled)) →
      (∀ k ∈ linkGroup s i, if (startHoming e (axisAt s k)).phase = 1 then
          fld (pw e 0) 26 2 = 1 ∨ limitActive (axisAt s k) (!bitOf (pw e 0) 28) = false
        else limitActive (axisAt s k) (bitOf (pw e 0) 28) = false) →
      Answers (.axisHome e) s (fun t => ∃ u : State, t = finish u r stOk [] ∧ (axisAt u i).state = .homing ∧
        (axisAt u i).homed = false ∧ (axisAt u i).pos = a.pos ∧ (axisAt u i).homing = some (startHoming e a) ∧
        (a.state ≠ .velocity → u.mot.loops = s.mot.loops) ∧
        (a.state = .velocity → ∀ k ∈ loopsOn s i, (loopAt u k).mode = .off))) ∧
    (let slot := fld (pw e 0) 0 4
     let ks := tableOf s slot
     Turn 0x0507 e s r → rsvOk e [0xE000000F, 0xFFFF] = true → isFollower a = false → a.state = .idle → ks ≠ [] →
      tableSpeed ks ≤ a.cfg.vHard * 256 → travelOutside s i (tableExtremes ks).1 (tableExtremes ks).2 = false →
      towardLimit s i (decide (0 < (tableExtremes ks).2)) (decide ((tableExtremes ks).1 < 0)) = false →
      done (.tableRun e) (fun u => (axisAt u i).state = .table ∧ (axisAt u i).tslot = slot ∧ (axisAt u i).ttime = 0 ∧
        (axisAt u i).kfact = 4096 ∧ (axisAt u i).tRepeat = fld (pw e 1) 0 16 ∧ (axisAt u i).pos = a.pos)) ∧
    (Turn 0x0508 e s r → rsvOk e [0xE0000000, 0xFFFF1FFF] = true → fld (pw e 1) 16 16 ≤ 0x4000 → 1 ≤ fld (pw e 1) 0 13 →
      fld (pw e 1) 0 13 ≤ 4096 → isFollower a = false → a.state = .table →
      fld (pw e 1) 16 16 * tableSpeed (tableOf s a.tslot) ≤ a.cfg.vHard * 256 * 4096 →
      (fld (pw e 1) 16 16 = 0 ∨ towardLimit s i (decide (0 < tableWay (tableOf s a.tslot) a.ttime))
        (decide (tableWay (tableOf s a.tslot) a.ttime < 0)) = false) →
      done (.axisScale e) (fun u => axisAt u i = { a with kTarget := fld (pw e 1) 16 16, kRate := fld (pw e 1) 0 13 })) ∧
    (let slot := fld (pw e 0) 0 4
     let n := (pw e 1).toNat
     let ks := readKnots n (hostDws s (pq e 2) (4 * n))
     Turn 0x0506 e s r → rsvOk e [0xF, allBits, allBits, allBits] = true → pq e 2 % 16 = 0 → 2 ≤ n → n ≤ 1024 →
      knotsElse s slot + n ≤ 4096 → (servitor s = false → ∀ x ∈ s.mot.axes, x.state = .table → x.tslot ≠ slot) →
      hostReadEnd s (pq e 2) (16 * n) = .ok → knotsOk ks = true → exec (.tableLoad e) s = .next (finish
        { s with mot := { s.mot with tables := mapSet [] s.mot.tables slot ks } } r stOk
        (it (4096 - (knotsElse s slot + n) : Nat)))) ∧
    (Turn 0x0509 e s r → rsvOk e [0xE0000000, 0, allBits, allBits] = true → pq e 2 % 64 = 0 → exec (.axisStatus e) s = .next
      (finish (hostPutDws s (pq e 2) (qdws (axisRecord s i) ++ it (switchLevels s i) ++ [0])) r stOk []))

/-- Motion events: PLANNING_STEP, SWITCH_SAMPLE, STALL, HOLD_CURRENT (R320, R321, R325, R327, R331, R337, R341, R342).
Clauses that rest on choices of the model, which no rule makes: the time-shortest path (log 99) and the step at which
a figure counts as whole (log 196); a table's time base (log 102); velocity mode (log 101) and when a loop's output
begins on an axis (log 197); when a stop is taken (log 98); one command as one planning step (log 131). -/
def Obligations.AxisEvents : Prop :=
  ∀ (i : Nat) (s : State) (a : Axis), i < 8 → s.mot.axes[i]? = some a →
    (motionRuns s = true → a.stopReq = none → a.newMove = false →
      let next := pathAt a.plan (a.planT + planStepLen)
      (a.homing = none → a.state = .disabled ∨ a.state = .idle ∨ a.state = .stalled → Answers .planningStep s (fun t =>
        (axisAt t i).pos = a.pos ∧ (axisAt t i).state = a.state ∧ t.mot.sample = 0)) ∧
      (a.homing = none → a.state = .moving → next = none → isFollower a = false → Answers .planningStep s (fun t =>
        (axisAt t i).pos = a.target ∧ (axisAt t i).vel = 0 ∧ (axisAt t i).state = .idle)) ∧
      (∀ k, a.homing = none → a.state = .moving → next = some k → Answers .planningStep s (fun t =>
        (axisAt t i).pos = wrapS 64 (k.p / stepScale) ∧ (axisAt t i).state = .moving ∧
        (axisAt t i).planT = a.planT + planStepLen ∧ (axisAt t i).target = a.target)) ∧
      (∀ k h, a.homing = some h → a.state = .homing → h.phase = 1 ∨ h.phase = 3 → h.aborted = false → h.atSet = false →
        next = some k → Answers .planningStep s (fun t => (axisAt t i).pos = wrapS 64 (k.p / stepScale) ∧
          (axisAt t i).state = .homing ∧ (axisAt t i).homing = some h)) ∧
      (a.homing = none → a.state = .table →
        let ks := tableOf s a.tslot
        let origin := if a.tNew then a.pos else a.torigin
        let at_ := a.ttime + rampK a.kfact a.kTarget a.kRate
        (at_ < tableLen ks → Answers .planningStep s (fun t => (axisAt t i).pos = wrapS 64 (origin + (tableAt ks at_).1) ∧
          (axisAt t i).ttime = at_ ∧ (axisAt t i).kfact = rampK a.kfact a.kTarget a.kRate ∧ (axisAt t i).state = .table)) ∧
        (tableLen ks ≤ at_ → tableLen ks ≠ 0 → a.tRepeat = 1 → Answers .planningStep s (fun t =>
          (axisAt t i).pos = wrapS 64 (origin + (tableAt ks (tableLen ks)).1) ∧ (axisAt t i).vel = 0 ∧
          (axisAt t i).state = .idle))) ∧
      (a.homing = none → a.state = .velocity → limitsOn a = false → (∀ l ∈ s.mot.loops, l.outDue = false) →
        let v := a.vel * 100000 + a.velSub
        let hard : Int := a.cfg.vHard * 6553600000
        let w := clampI (clampI ((a.loopVel.getD 0) * 6553600000) (-hard) hard) (v - a.cfg.aHard * 65536) (v + a.cfg.aHard * 65536)
        Answers .planningStep s (fun t => (axisAt t i).vel * 100000 + (axisAt t i).velSub = w ∧
          (axisAt t i).pos = wrapS 64 ((a.pos * 20000000000 + a.posSub + v + w) / 20000000000) ∧
          (axisAt t i).state = .velocity)) ∧
      (a.homing = none → a.state = .follower → (axisAt s a.cfg.leader).state ≠ .follower →
        (axisAt s a.cfg.leader).homing = none → Answers .planningStep s (fun t =>
          let way := wayTo (axisAt s a.cfg.leader).pos (axisAt t a.cfg.leader).pos
          (axisAt t i).pos = wrapS 64 (a.pos + if a.cfg.followInv then -way else way) ∧
          (axisAt t i).state = .follower))) ∧
    (∀ dec, motionRuns s = true → a.stopReq = some dec → a.state ≠ .follower →
      (∀ k, pathAt (slowDown a dec).plan planStepLen = some k → Answers .planningStep s (fun t =>
        (axisAt t i).pos = wrapS 64 (k.p / stepScale) ∧ (axisAt t i).state = .moving ∧ (axisAt t i).stopping = true ∧
        (axisAt t i).stopReq = none ∧ (axisAt t i).homing = none)) ∧
      (pathAt (slowDown a dec).plan planStepLen = none → isFollower a = false → Answers .planningStep s (fun t =>
        (axisAt t i).pos = (slowDown a dec).target ∧ (axisAt t i).vel = 0 ∧ (axisAt t i).state = .idle ∧
        (axisAt t i).homing = none))) ∧
    (∀ levels : BitVec 24, Answers (.switchSample levels) s (fun t => t.pins.axSwitch = levels ∧
      t.mot.sample = s.mot.sample + 1 ∧
      (axisAt t i).runs = ((List.range 3).map fun k => nextRun (bitOf levels (3 * i + k)) (a.runs.getD k 0)) ∧
      (axisAt t i).offs = ((List.range 3).map fun k => nextRun (!bitOf levels (3 * i + k)) (a.offs.getD k 0)))) ∧
    (motionRuns s = true → a.cfg.enable = true → a.state ≠ .stalled → a.cfg.stallT * 100 ≤ a.boostFor →
      Answers (.stall i) s (fun t => (axisAt t i).state = .stalled ∧ (axisAt t i).homed = false ∧ (axisAt t i).pos = a.pos ∧
        (axisAt t i).vel = 0)) ∧
    (motionRuns s = true → a.cfg.enable = true → a.vel = 0 → a.cfg.holdDelay * 100 ≤ a.restFor →
      Answers (.holdCurrent i) s (fun t => (axisAt t i).curHeld = true ∧ (axisAt t i).pos = a.pos ∧
        (a.cfg.curEn = true → (axisAt t i).cur = a.cfg.holdI)))

/-- Loops and control SPI: CSPI_CONFIG, LOOP_CONFIG, LOOP_MODE, LOOP_TUNE, LOOP_SETPOINT, LOOP_STATUS, LOOP_SAMPLE,
CSPI_TRANSFER, AIN_CONVERSION (R343, R344, R345, R346, R347, R348, R349, R350, R351, R356, R358, R404). Clauses that
rest on choices of the model, which no rule makes: the first AUTO sample and pending pairs (log 105), the set-point's
slew and rates at entry (log 106); when codes and outputs leave (log 103) and how an overrun is known (log 104);
LOOP_MODE to OFF when FAULTED (log 162); a record's RSV bits (log 124); HOLD_MON as input 4 (log 195). -/
def Obligations.LoopsAndInputs : Prop :=
  (∀ (e : Entry) (s : State) (r : InFlight),
    (let n := fld (pw e 0) 0 6
     let es := devEntries n (hostDws s (pq e 2) (3 * n))
     Turn 0x0601 e s r → rsvOk e [0x3F, 0, allBits, allBits] = true → pq e 2 % 4 = 0 → 1 ≤ n → n ≤ 32 →
      hostReadEnd s (pq e 2) (4 * (3 * n)) = .ok → (∀ x ∈ es, devOk x = true ∧ (servitor s = true ∨ devInUse s (fld (rdw x 0) 27 5) = false)) →
      exec (.cspiConfig e) s = .next (finish { s with mot := { s.mot with
        devs := mapSetAll [] s.mot.devs (es.map fun x => (fld (rdw x 0) 27 5, x)) } } r stOk [])) ∧
    (let d := hostDws s (pq e 2) 16
     let k := fld (rdw d 0) 27 5
     ∀ l, Turn 0x0602 e s r → rsvOk e [0, 0, allBits, allBits] = true → pq e 2 % 64 = 0 → hostReadEnd s (pq e 2) 64 = .ok →
      loopDescOk s { Loop.reset with desc := { dw := d } } = true → s.mot.loops[k]? = some l →
      servitor s = true ∨ l.mode = .off → Answers (.loopConfig e) s (fun t => ∃ u : State, t = finish u r stOk [] ∧
        loopAt u k = { l with desc := { dw := d }, tune := [] } ∧ ∀ j, j ≠ k → u.mot.loops[j]? = s.mot.loops[j]?)) ∧
    (let k := fld (pw e 0) 27 5
     ∀ l, s.mot.loops[k]? = some l →
      (Turn 0x0603 e s r → rsvOk e [0xF8000003, if fld (pw e 0) 0 2 = 1 then allBits else 0] = true → fld (pw e 0) 0 2 ≠ 3 →
        (fld (pw e 0) 0 2 ≠ 0 → slotLoaded l = true ∧ axisFree s l = true) → (fld (pw e 0) 0 2 = 0 → l.mode ≠ .faulted) →
        Answers (.loopMode e) s (fun t => ∃ u : State, t = finish u r stOk [] ∧ (loopAt u k).mode =
          (if fld (pw e 0) 0 2 = 0 then .off else if fld (pw e 0) 0 2 = 1 then .manual else .auto) ∧ (loopAt u k).ovr = 0 ∧
          (loopAt u k).samples = 0 ∧ (loopAt u k).desc = l.desc ∧ (loopAt u k).integ = l.integ)) ∧
      (let n := fld (pw e 0) 0 4 + 1
       let ps := tunePairs n (hostDws s (pq e 2) (2 * n))
       Turn 0x0604 e s r → rsvOk e [0xF800000F, 0, allBits, allBits] = true → pq e 2 % 8 = 0 →
        hostReadEnd s (pq e 2) (4 * (2 * n)) = .ok → (∀ p ∈ ps, 2 ≤ p.1 ∧ p.1 ≤ 14) → l.tune.length + n ≤ 32 →
        Answers (.loopTune e) s (fun t => ∃ u : State, t = finish u r stOk (it (l.tune.length + n : Nat)) ∧
          loopAt u k = { l with tune := l.tune ++ ps })) ∧
      (Turn 0x0605 e s r → rsvOk e [0xF8000000, allBits] = true → Answers (.loopSetpoint e) s (fun t => ∃ u : State,
        t = finish u r stOk [] ∧ loopAt u k = { l with desc := { dw := l.desc.dw.set 12 (pw e 1) } })) ∧
      (Turn 0x0606 e s r → rsvOk e [0xF8000000] = true → exec (.loopStatus e) s = .next
        (finish s r stOk (qdws (loopRecord s k) ++ it l.meas ++ it (l.tune.length : Nat)))))) ∧
  (∀ (late : List Nat) (s : State), motionRuns s = true → Answers (.loopSample late) s (fun t =>
    t.mot.instant = s.mot.instant + 1 ∧ ∀ k l, k < 32 → s.mot.loops[k]? = some l → l.tune = [] →
      (l.mode = .off → loopAt t k = l) ∧
      (l.mode = .auto → slotLoaded l = true → s.mot.instant % lf l 1 23 9 = lf l 1 14 9 → k ∉ late ∨ l.saved = none →
        let x := autoSample l (measure s l) (slew l.sp (setpointSource s l) (lf l 13 16 16)) (feedForward s l)
        (loopAt t k).lastOut = x.out ∧ (loopAt t k).integ = x.integ ∧ (loopAt t k).meas = measure s l ∧
        (loopAt t k).mode = .auto ∧ (loopAt t k).samples = l.samples + 1))) ∧
  (∀ (dev : Nat) (frame : Dword) (s : State), servitor s = false → awake s = true → s.pwr.saving = false →
    s.par.state ≠ .failed →
    let port := portOf s dev
    let d := devOf s dev
    (devKind s dev = 1 ∨ devKind s dev = 2 → midReads s port = true → exec (.cspiTransfer dev frame) s = .next s) ∧
    (∀ k rest, devKind s dev = 3 → readsLeft s port = k :: rest → lf (loopAt s k) 0 19 5 = dev →
      exec (.cspiTransfer dev frame) s = .next (emit { s with mot := { s.mot with
        adc := mapSet 0 s.mot.adc dev (devValue d frame), adcRead := s.mot.adcRead ++ [k] } } (.spi dev (templateFrame d)))) ∧
    (∀ q rest, devKind s dev = 2 → midReads s port = false → writesLeft s port = [] → currentsLeft s port = q :: rest →
      (axisAt s q.1).cfg.curDev = dev → exec (.cspiTransfer dev frame) s = .next (emit
        { s with mot := { s.mot with curQueue := s.mot.curQueue.erase q } } (.spi dev (devFrame d q.2)))) ∧
    (∀ k rest, devKind s dev = 1 → midReads s port = false → writesLeft s port = k :: rest → lf (loopAt s k) 0 6 5 = dev →
      Answers (.cspiTransfer dev frame) s (fun t => (loopAt t k).outDue = false ∧
        (loopAt t k).outWritten = writeValue (loopAt s k) ∧
        t.out = .spi dev (devFrame d (writeValue (loopAt s k))) :: s.out))) ∧
  (∀ (i : Nat) (code : BitVec 16) (s : State), i < 4 → (∀ h, s.mot.ainHold = some h → h.1 = i → h.2 ≤ s.time.clk) →
    exec (.ainConversion i code) s = .next { s with mot := { s.mot with ain := s.mot.ain.set i code.toNat } }) ∧
  (∀ (code : BitVec 16) (s : State),
    exec (.ainConversion 4 code) s = .next { s with pwr := { s.pwr with holdMonMv := code.toNat } })

/-- A step runs the command at the front of the queue and leaves the rest; an empty queue idles (the queue and the
idling are the model's choice, log 1) (R386, R387, R389). -/
def Obligations.StepRunsCommand : Prop :=
  (∀ (c : Instr) (rest : List Instr) (s : State), s.pending = c :: rest → step s = exec c { s with pending := rest }) ∧
  (∀ s : State, s.pending = [] → step s = .next s) ∧
  (∀ (s : State) (nbits w : Nat), decodeTableWord nbits w = none ∧ s.withFetchWord nbits w = s)

/-- What reset leaves: the values the spec gives for reset (R7, R101, R129, R152, R153, R156, R157, R168, R284, R364,
R380, R439). Clauses that rest on choices of the model, which no rule makes: the counters, indices, lists and channel
settings that no rule gives a reset value stand at the model's choice (logs 2, 8). -/
def Obligations.ResetState : Prop :=
  let s := State.reset
  s.pending = [] ∧ s.boot.state = .waitImage ∧ s.par.state = .syncing ∧ s.par.enabled = false ∧
  bar0Read s 0 = 0x1640B001 ∧
  (∀ off ∈ [0x4, 0x8, 0xC, 0x10, 0x14, 0x18, 0x100, 0x104, 0x108, 0x10C, 0x110, 0x118, 0x11C, 0x1000, 0x1004, 0x1008, 0x100C,
            0x1010, 0x1100, 0x1104, 0x1108, 0x1200], bar0Read s off = 0) ∧
  s.mbx.enable = false ∧ s.mbx.sqTail = 0 ∧ s.mbx.sqHead = 0 ∧ s.mbx.cqHead = 0 ∧ s.mbx.inFlight = [] ∧ s.mbx.phase = true ∧
  s.time.sec = 0 ∧ s.time.nsec = 0 ∧ s.time.frac = 0 ∧ s.time.adj = 0 ∧ timeInc s.time.adj = 10737418240 ∧
  s.ptp.servo = .free ∧
  s.ftb.g = 2 ^ 32 ∧ s.ftb.lamI = 0 ∧ s.ftb.lamF = 0 ∧ lineCounter s = 0 ∧ s.ftb.speed = 0 ∧
  s.encs.length = 12 ∧ (∀ x ∈ s.encs, x.filt = 3 ∧ x.invert = false ∧ x.indexQual = false ∧ x.indexZero = false ∧
    x.enable = false ∧ x.pos = 0 ∧ x.offset = 0) ∧
  s.webCfg.pacing = false ∧ s.webCfg.checkEn = false ∧ s.webCfg.stillTime = 10 ∧ s.webCfg.spdAvg = 2 ∧
  s.webCfg.jitterAllow = 4 ∧ s.webCfg.checkWin = 4096 ∧ s.webCfg.checkTol = 64 ∧ s.webCfg.checkRatio = 0x10000 ∧
  s.cues.length = 4 ∧ (∀ x ∈ s.cues, x.edge = 3 ∧ x.filt = 3 ∧ x.maskLines = 0) ∧
  s.pulses.length = 4 ∧ (∀ x ∈ s.pulses, x.enable = false) ∧
  (∀ k c e, nfOf s.csc k c e = -(2 ^ 63 : Int)) ∧ (∀ k, k < 144 → mapGet middleCut s.tables.masks k = middleCut) ∧ s.tables.screens = [] ∧ s.tables.curveUpds = [] ∧
  s.job = none ∧ s.pages.list = [] ∧ s.sec.debug = .closed ∧ s.sec.challenge = none ∧ s.map.gens = [] ∧
  (∀ x ∈ s.mot.axes, x.state = .disabled) ∧ (∀ x ∈ s.mot.loops, x.mode = .off)

/-- The invariants of the model hold right after reset (R7, R364, R380, R387). -/
def Obligations.ResetKeepsInvariants : Prop :=
  State.reset.hostCanonical ∧ State.reset.bookingsInOrder ∧ State.reset.timeLegal ∧ State.reset.mailboxBounded ∧ State.reset.sized

/-- Every step keeps host memory in canonical form, the next-free ticks in order and the time counter within R364
(R129, R130, R364, R365, R371, R372, R387, R460). -/
def Obligations.TimeAndMemoryKept : Prop :=
  ∀ s t : State, step s = .next t →
    (s.hostCanonical → t.hostCanonical) ∧ (s.timeLegal → t.timeLegal) ∧ (s.bookingsInOrder → t.bookingsInOrder)

/-- Every step keeps the mailbox within its bounds: ring indices below 256, at most 64 commands in flight (R380, R386,
R387, R388). -/
def Obligations.MailboxKept : Prop :=
  ∀ s t : State, s.mailboxBounded → step s = .next t → t.mailboxBounded

/-- Every step keeps the fixed numbers of channels, outputs, lanes, groups, axes, loops and ports, and the log within
its ring (R148, R167, R170, R177, R320, R346, R361, R460). -/
def Obligations.NumbersKept : Prop :=
  ∀ s t : State, s.sized → step s = .next t → t.sized

/-- A step takes exactly the front command from the queue, and no step clears a fuse bit (R431, R434, R435). -/
def Obligations.QueueAndFuses : Prop :=
  ∀ s t : State, step s = .next t →
    t.pending = s.pending.tail ∧ FusesGrow s t ∧
    (∀ (c : Instr) (rest : List Instr), s.pending = c :: rest →
      (∀ (e : Entry) (k : Option Nat), c ≠ .seal e k ∧ c ≠ .retire e k ∧ c ≠ .rollbackAdvance e k) →
      t.sec.ownerHash = s.sec.ownerHash ∧ t.sec.sealBits = s.sec.sealBits ∧ t.sec.retireBits = s.sec.retireBits ∧
        t.sec.rb = s.sec.rb)

/-- In OFF, no command changes the power state but a power-on reset, RESET_N or the loss of power (R407, R409, R413).
Clauses that rest on choices of the model, which no rule makes: that a rail out or RESET_N held holds the chip off,
and what RESET_N is as one command, are the model's choice (logs 7, 198). -/
def Obligations.OffIsFinal : Prop :=
  ∀ (c : Instr) (s t : State), s.pwr.state = .off → s.boot.state ≠ .starting →
    c ≠ .powerOnReset → c ≠ .resetN → c ≠ .powerLoss → exec c s = .next t → t.pwr.state = .off

/-- Only DEBUG_UNLOCK raises the debug level (R439, R443). -/
def Obligations.DebugRaisedOnlyByUnlock : Prop :=
  ∀ (c : Instr) (s t : State), (∀ e : Entry, c ≠ .debugUnlock e) → exec c s = .next t →
    t.sec.debug = s.sec.debug ∨ t.sec.debug = .closed

/-- Every mailbox command makes the common checks first: one that fails completes with its status and nothing done
(R266, R268, R272, R384, R385, R387, R393, R414). Clauses that rest on choices of the model, which no rule makes: the
order in which the checks are made is the model's choice (log 11); FAILED is the state latched at the doorbell (R385).
-/
def Obligations.CommonChecks : Prop :=
  ∀ (c : Instr) (op : Nat) (e : Entry) (s : State) (r : InFlight),
    mailboxOf c = some (op, e) → opcodeOf e = op → commitRecord s e = some r →
    let query := op ∈ [0x0106, 0x010F, 0x0114, 0x0115, 0x0205, 0x0305, 0x0306, 0x0407, 0x0408, 0x0509, 0x0606, 0x0706, 0x0707,
      0x0708, 0x0804, 0x0905, 0x0908, 0x090B, 0x0A03, 0x0A04, 0x0A06, 0x0A08]
    let header := roleReqOf e = 3 ∨ 30 ≤ ivOf e
    let saving := s.pwr.state = .save ∨ s.pwr.state = .off
    let wrongRole := (roleReqOf e = 1 ∧ r.latch ≠ .gaffer) ∨ (roleReqOf e = 2 ∧ r.latch = .gaffer)
    let changed := roleReqOf e ≠ 0 ∧ (r.latch ≠ s.par.state ∨ r.epoch.toNat ≠ s.par.epoch)
    let early := s.mem.ready = false ∧ ¬ query ∧ op / 256 ≠ 4 ∧ op / 256 ≠ 7 ∧ op / 256 ≠ 9 ∧ op ≠ 0x0112 ∧ op ≠ 0x0801
    let gaffers := op = 0x0201 ∨ op = 0x0304 ∨ op = 0x0303 ∨ op = 0x010C ∨
      ((op / 256 = 5 ∨ op / 256 = 6) ∧ ¬ query ∧ op ≠ 0x0501 ∧ op ≠ 0x0506 ∧ op ≠ 0x0601 ∧ op ≠ 0x0602)
    let ends := fun (st : Nat) => exec c s = .next (finish (if op = 0x0104 then tellRejected s (pw e 0) else s) r st [])
    (r.latch = .failed → ends stState) ∧
    (r.latch ≠ .failed → header → ends stFormat) ∧
    (r.latch ≠ .failed → ¬ header → saving → ends stState) ∧
    (¬ header → ¬ saving → r.latch ≠ .failed → wrongRole → ends stWrongRole) ∧
    (¬ header → ¬ saving → r.latch ≠ .failed → ¬ wrongRole → changed → ends stRoleChanged) ∧
    (¬ header → ¬ saving → r.latch ≠ .failed → ¬ wrongRole → ¬ changed → early → ends stNotReady) ∧
    (¬ header → ¬ saving → r.latch ≠ .failed → ¬ wrongRole → ¬ changed → ¬ early → gaffers → s.par.enabled = true →
      s.par.state ≠ .gaffer → ends stNotGaffer)

/-- A mailbox command does nothing before its commit point, and its class decides when that is (R389, R441). Clauses
that rest on choices of the model, which no rule makes: an opcode that no table lists is held back by a Job, as every
command but a Query is: the model's reading (DEDUCED, log 193). -/
def Obligations.CommandOrder : Prop :=
  (∀ (c : Instr) (op : Nat) (e : Entry) (s : State), mailboxOf c = some (op, e) → commitRecord s e = none →
    exec c s = .next s) ∧
  (∀ (s : State) (e : Entry) (r : InFlight), commitRecord s e = some r ↔
    s.sec.halted = false ∧ r.entry = e ∧ r.committed = false ∧ ∃ before after : List InFlight,
      s.mbx.inFlight = before ++ r :: after ∧ (∀ x ∈ before, ¬ (x.entry = e ∧ x.committed = false)) ∧
      match classOf (opcodeOf e) with
      | some .query => True
      | none => ∀ x ∈ before, recClass x ≠ some .job
      | some .control => ∀ x ∈ before, recClass x ≠ some .job ∧ (recClass x = some .control → x.committed = true)
      | some .page => ∀ x ∈ before, recClass x ≠ some .job ∧ (recClass x = some .page → x.committed = true)
      | some .job => ∀ x ∈ before, recClass x ≠ some .job ∧ recClass x ≠ some .page ∧
          (recClass x = some .control → x.committed = true))

/-- Completing a command writes its 64-byte entry at the completion index, and no other byte of host memory (R385,
R387). -/
def Obligations.CompletionEntry : Prop :=
  ∀ (s : State) (r : InFlight) (st : Nat) (res : List Dword),
    let t := finish s r st res
    let base := s.mbx.cqBase.toNat + 64 * s.mbx.cqIndex
    t.mbx.inFlight = s.mbx.inFlight.erase r ∧
    (r.discard = true → t = { s with mbx := { s.mbx with inFlight := s.mbx.inFlight.erase r } }) ∧
    (r.discard = false → s.hostCanonical →
      HoldsAt t base ([tagOf r.entry, BitVec.ofNat 32 (opcodeOf r.entry * 2 ^ 16 + st),
        BitVec.ofNat 32 (s.mbx.sqHead * 2 ^ 24 + pairCode r.latch * 2 ^ 22),
        BitVec.ofNat 32 (if s.mbx.phase then 2 ^ 31 else 0)] ++ (List.range 12).map fun i => res.getD i 0) ∧
      (∀ a, a < 2 ^ 64 → ¬ inSpan base 64 a → hostByte t a = hostByte s a) ∧
      t.mbx.cqIndex = (s.mbx.cqIndex + 1) % 256 ∧ t.mbx.cqUnread = s.mbx.cqUnread + 1 ∧
      (t.mbx.phase = s.mbx.phase ↔ s.mbx.cqIndex ≠ 255))

/-- A mailbox command writes its completion entry and its own buffer, and no other byte of host memory (R385, R387,
R404, R456, R460, R463). -/
def Obligations.CommandBytes : Prop :=
  ∀ (c : Instr) (op : Nat) (e : Entry) (s t : State), mailboxOf c = some (op, e) → completesOthers c = false →
    s.hostCanonical → exec c s = .next t → ∀ a, a < 2 ^ 64 →
      ¬ inSpan (s.mbx.cqBase.toNat + 64 * s.mbx.cqIndex) 64 a → ¬ inSpan (bufferOf s c).1 (bufferOf s c).2 a →
      hostByte t a = hostByte s a

/-- Whatever the command, the block writes host memory only in the completion ring and the command's own buffer (R385,
R387, R404, R456, R460, R463). -/
def Obligations.HostMemoryOutsideRing : Prop :=
  ∀ (c : Instr) (s t : State), (∀ tail ring stores, c ≠ .doorbell tail ring stores) → s.hostCanonical →
    s.mbx.cqIndex < 256 → exec c s = .next t →
    (∀ a, a < 2 ^ 64 → ¬ inSpan s.mbx.cqBase.toNat 16384 a → ¬ inSpan (bufferOf s c).1 (bufferOf s c).2 a →
      hostByte t a = hostByte s a) ∧
    (mailboxOf c = none → bufferOf s c = (0, 0) → t.mbx.inFlight.length = s.mbx.inFlight.length → t.host = s.host)

/-- ENABLE resets the rings, only in RUNNING with nothing in flight; disabling stops fetching and lets what is in
flight complete (R380, R388). Clauses that rest on choices of the model, which no rule makes: that the ring registers
answer from RUNNING on, in whatever state Finbuly goes to after, is the model's reading of R380 (log 170). -/
def Obligations.RingEnable : Prop :=
  ∀ s : State,
    (s.boot.state = .running → s.mbx.inFlight.length = 0 →
      Answers .mbxEnable s (fun t => t.mbx.enable = true ∧ t.mbx.sqHead = 0 ∧ t.mbx.sqTail = 0 ∧ t.mbx.cqHead = 0 ∧
        t.mbx.phase = true ∧ t = { s with mbx := t.mbx })) ∧
    (s.boot.state ≠ .running ∨ s.mbx.inFlight.length ≠ 0 → exec .mbxEnable s = .next s) ∧
    (hasRun s = true →
      Answers .mbxDisable s (fun t => t = { s with mbx := { s.mbx with enable := false } } ∧ exec .commandFetch t = .next t ∧
        t.mbx.inFlight = s.mbx.inFlight ∧
        ∀ e : Entry, commitRecord t e = commitRecord s e ∧ ∀ r : InFlight, commonCheck t r = commonCheck s r ∧
          ∀ (st : Nat) (res : List Dword), completionDws t r st res = completionDws s r st res)) ∧
    (hasRun s = false → exec .mbxDisable s = .next s)

/-- The ejector ordinal: its formula, its range, and the order it gives (R38). -/
def Obligations.EjectorOrdinal : Prop :=
  (∀ m q c i : Nat, ordinal m q c i = ((m * 4 + q) * 16640 + c) * 12 + i) ∧
  (∀ m q c i : Nat, m < 40 → q < 4 → c < 16640 → i < 12 → ordinal m q c i ≤ 31948799) ∧
  (∀ k : Nat, k ≤ 31948799 → ∃ m q c i : Nat, m < 40 ∧ q < 4 ∧ c < 16640 ∧ i < 12 ∧ ordinal m q c i = k) ∧
  (∀ m q c i m' q' c' i' : Nat, q < 4 → c < 16640 → i < 12 → q' < 4 → c' < 16640 → i' < 12 →
    (ordinal m q c i < ordinal m' q' c' i' ↔
      m < m' ∨ (m = m' ∧ (q < q' ∨ (q = q' ∧ (c < c' ∨ (c = c' ∧ i < i')))))))

/-- A seam sets every next-free tick of its module-plane to b - 1 + SEAM_SPAN, before anything else is done with its
record (R130). -/
def Obligations.SeamSetsState : Prop :=
  ∀ (x : Csc) (k : Nat) (b : Int) (span : Nat),
    (span ≠ 0 → ∀ c e : Nat, c < 16640 → e < 12 → nfOf (seamStep x k b span) k c e = b - 1 + span ∧
      (∀ b' : Int, nfOf (seamStep x k b span) k c e ≤ b' ↔ b - 1 + span ≤ b') ∧
      (∀ y : Csc, nfOf (seamStep y k b span) k c e = nfOf (seamStep x k b span) k c e) ∧
      ∀ k' : Nat, k' ≠ k → nfOf (seamStep x k b span) k' c e = nfOf x k' c e) ∧
    seamStep x k b 0 = x ∧
    (∀ (codes : Sparse Nat) (r : Rec), mp r.m r.q = k → r.b = b → r.seam = span →
      (planRec codes x r).picks = (planRec codes (seamStep x k b span) { r with seam := 0 }).picks ∧
      (planRec codes x r).thin = (planRec codes (seamStep x k b span) { r with seam := 0 }).thin ∧
      commitRec x r = commitRec (seamStep x k b span) { r with seam := 0 })

/-- The Rice code: the encoder's form, and the value the decoder reads from either form (R69). -/
def Obligations.RiceCode : Prop :=
  ∀ (k w v : Nat) (rest : List Bool),
    let q := v >>> k
    let low := (List.range k).map fun i => v.testBit (k - 1 - i)
    let whole := (List.range w).map fun i => v.testBit (w - 1 - i)
    (q < 12 → riceBits k w v = List.replicate q true ++ false :: low) ∧
    (12 ≤ q → riceBits k w v = List.replicate 12 true ++ whole) ∧
    (q < 12 → readRice k w (List.replicate q true ++ false :: low ++ rest) = some (v, rest)) ∧
    (v < 2 ^ w → readRice k w (List.replicate 12 true ++ whole ++ rest) = some (v, rest))

/-- Decoding what the on-chip encoder codes gives the block back, at every effort and every K (R66, R67, R68, R69,
R70, R71, R72, R73, R74). -/
def Obligations.BlockRoundTrip : Prop :=
  ∀ (b e k : Nat) (samples : List Nat) (rest : List Bool), b = 8 ∨ b = 2 → e ≤ 7 → k < 2 ^ kBits b →
    samples.length = 256 → (∀ v ∈ samples, v < 2 ^ b) →
    decodeBits b (codedBits b k (tokens b e 256 samples [] 0) ++ rest) = (0, .ok samples rest)

/-- Thinning and the Cluster Assignment Rule for one record: which drops are thinned, which row each other drop takes,
what is booked (R129, R131, R132, R135). -/
def Obligations.ClusterAssignment : Prop :=
  ∀ (codes : Sparse Nat) (x : Csc) (r : Rec), r.seam = 0 → (r.levels.map Prod.fst).Nodup →
    (∀ l ∈ r.levels, l.1 < 16640 ∧ 1 ≤ l.2 ∧ l.2 ≤ 3) → r.directRow < 12 ∨ r.directRow = 15 → 1 ≤ r.refill →
    -(2 ^ 63 : Int) ≤ r.b →
    let k := mp r.m r.q
    let p := planRec codes x r
    let free := fun (c e : Nat) => nfOf x k c e ≤ r.b
    let serves := fun (c e : Nat) => mapGet 0 codes (12 * clusterOf k c + e) = 0 ∧ free c e
    let turn := fun (j : Nat) => ((r.b % 12).toNat + j) % 12
    (∀ c level : Nat, (c, level) ∈ r.levels →
      let cl := clusterOf k c
      let kap := 2 * (level - 1) + (if r.n % 2 = 0 then 1 else 0)
      let pre := mapGet 0 x.armed cl = 1 ∧ r.b < mapGet minI64 x.bf cl + r.refill ∧ kap < mapGet 0 x.kf cl
      (r.directRow = 15 →
        (∀ e : Nat, (c, e) ∈ p.picks ↔ ¬ pre ∧ ∃ j, j < 12 ∧ e = turn j ∧ serves c e ∧ ∀ i, i < j → ¬ serves c (turn i)) ∧
        ((∀ e, e < 12 → ¬ serves c e) → { cluster := cl, bf := r.b, kf := kap, armed := true } ∈ p.thin)) ∧
      (r.directRow ≠ 15 → ∀ e : Nat, (c, e) ∈ p.picks ↔ e = r.directRow ∧ free c e) ∧
      (∀ e : Nat, (c, e) ∈ p.picks → nfOf (commitRec x p) k c e = r.b + r.refill)) ∧
    (∀ k' c e : Nat, c < 16640 → e < 12 → ¬ (k' = k ∧ (c, e) ∈ p.picks) → nfOf (commitRec x p) k' c e = nfOf x k' c e)

/-- Frames: what the 50 commands and events of the mailbox, power, security, observation and debug leave unchanged
(R379, R387, R405, R412, R426, R431, R439, R441, R451, R460, R463). -/
def Obligations.FrameMailboxAndPower : Prop :=
  ∀ s : State,
    (ChangesOnly [.endpointReset] s fun t => { s with
        mbx := { s.mbx with
          enable := t.mbx.enable, sqTail := t.mbx.sqTail, sqHead := t.mbx.sqHead, cqHead := t.mbx.cqHead,
          cqBase := t.mbx.cqBase, cqIndex := t.mbx.cqIndex, cqUnread := t.mbx.cqUnread, phase := t.mbx.phase,
          ring := t.mbx.ring, inFlight := t.mbx.inFlight, msix := t.mbx.msix, pba := t.mbx.pba,
          pcieWidth := t.mbx.pcieWidth, pcieMts := t.mbx.pcieMts, maxPayload := t.mbx.maxPayload,
          maxRead := t.mbx.maxRead }
        free := t.free }) ∧
    (∀ (v0 : Dword) (lis0 : List Byte), ChangesOnly [.bootGo v0 lis0] s fun t => { s with
        boot := { s.boot with
          state := t.boot.state, cause := t.boot.cause, image := t.boot.image, imageLen := t.boot.imageLen }
        mbx := { s.mbx with pba := t.mbx.pba }, out := t.out }) ∧
    (ChangesOnly [.bootVerifyDone] s fun t => { s with
        boot := { s.boot with state := t.boot.state, cause := t.boot.cause }
        mbx := { s.mbx with pba := t.mbx.pba }, out := t.out }) ∧
    (ChangesOnly [.bootStartDone] s fun t => { reported s t with
        boot := { s.boot with
          state := t.boot.state, cause := t.boot.cause, fwVersion := t.boot.fwVersion,
          imgRollback := t.boot.imgRollback, keySlot := t.boot.keySlot }
        sec := { s.sec with jtag := t.sec.jtag }, pwr := { s.pwr with state := t.pwr.state }
        anneal := { s.anneal with
          sets := t.anneal.sets, taken := t.anneal.taken, due := t.anneal.due, running := t.anneal.running,
          windowEnd := t.anneal.windowEnd, failRuns := t.anneal.failRuns, retryAt := t.anneal.retryAt,
          ainCal := t.anneal.ainCal }
        dxl := { s.dxl with lanes := t.dxl.lanes }, par := { s.par with refusedRaised := t.par.refusedRaised }
        free := t.free }) ∧
    (ChangesOnly [.mbxEnable] s fun t => { s with
        mbx := { s.mbx with
          enable := t.mbx.enable, sqTail := t.mbx.sqTail, sqHead := t.mbx.sqHead, cqHead := t.mbx.cqHead,
          cqIndex := t.mbx.cqIndex, cqUnread := t.mbx.cqUnread, phase := t.mbx.phase } }) ∧
    (ChangesOnly [.mbxDisable] s fun t => { s with
        mbx := { s.mbx with enable := t.mbx.enable } }) ∧
    (∀ (v0 : Dword) (lis0 : List RingStore) (lis1 : List Host.Cell), ChangesOnly
      [.doorbell v0 lis0 lis1]
      s fun t => { s with
        mbx := { s.mbx with sqTail := t.mbx.sqTail, ring := t.mbx.ring }
        host := { s.host with bytes := t.host.bytes } }) ∧
    (ChangesOnly [.timNsecRead] s fun t => { s with
        time := { s.time with latched := t.time.latched } }) ∧
    (∀ (n0 : Nat) (v0 : Dword), ChangesOnly [.registerWrite n0 v0] s fun t => { s with
        mbx := { s.mbx with
          cqHead := t.mbx.cqHead, cqBase := t.mbx.cqBase, cqUnread := t.mbx.cqUnread, scratch := t.mbx.scratch,
          msix := t.mbx.msix, pba := t.mbx.pba }
        out := t.out }) ∧
    (ChangesOnly [.commandFetch] s fun t => { s with
        mbx := { s.mbx with sqHead := t.mbx.sqHead, inFlight := t.mbx.inFlight } }) ∧
    (∀ (e : Entry) (lis0 : List Dword), ChangesOnly
      [.unknownOpcode e, .keepReadImage e, .powerStatus e, .secStatus e, .quenchRead e, .telemetryRead e lis0]
      s fun t => completed s t) ∧
    (∀ (e : Entry), ChangesOnly [.powerState e] s fun t => { reported (completed s t) t with
        sec := { s.sec with debug := t.sec.debug, authMask := t.sec.authMask }
        pwr := { s.pwr with
          state := t.pwr.state, saving := t.pwr.saving, saveCause := t.pwr.saveCause, saveFrom := t.pwr.saveFrom,
          saveSec := t.pwr.saveSec, saveNsec := t.pwr.saveNsec, saveClk := t.pwr.saveClk,
          saveGroups := t.pwr.saveGroups, saveJoined := t.pwr.saveJoined, offAfter := t.pwr.offAfter,
          stale := t.pwr.stale }
        anneal := { s.anneal with
          running := t.anneal.running, windowEnd := t.anneal.windowEnd, granted := t.anneal.granted }
        pins := { s.pins with
          ceaseAck := t.pins.ceaseAck, healthHigh := t.pins.healthHigh, healthReady := t.pins.healthReady }
        map := { s.map with holding := t.map.holding }, ftb := { s.ftb with referenced := t.ftb.referenced }
        dxl := { s.dxl with lanes := t.dxl.lanes, groups := t.dxl.groups }
        asy := { s.asy with cams := t.asy.cams }
        par := { s.par with
          state := t.par.state, partnerRole := t.par.partnerRole, gafferEpoch := t.par.gafferEpoch,
          refusedRaised := t.par.refusedRaised, linkRun := t.par.linkRun, mseqRx := t.par.mseqRx,
          rejoin := t.par.rejoin, rejoinGot := t.par.rejoinGot, ptSeen := t.par.ptSeen }
        mot := { s.mot with axes := t.mot.axes } }) ∧
    (∀ (vco0 : VcoreTurn), ChangesOnly [.vcoreSet vco0] s fun t => { completed s t with
        pwr := { s.pwr with vcoreTarget := t.pwr.vcoreTarget }, free := t.free }) ∧
    (∀ (e : Entry), ChangesOnly [.annealIfDue e, .annealForce e] s fun t => { completed s t with
        anneal := { s.anneal with inhibited := t.anneal.inhibited, granted := t.anneal.granted } }) ∧
    (∀ (e : Entry), ChangesOnly [.annealInhibit e] s fun t => { completed s t with
        anneal := { s.anneal with inhibited := t.anneal.inhibited } }) ∧
    (∀ (e : Entry) (v0 : Dword), ChangesOnly [.keepApplyRecord e v0] s fun t => { completed s t with
        pwr := { s.pwr with
          holdThr := t.pwr.holdThr, pmbAddr := t.pwr.pmbAddr, annealDt := t.pwr.annealDt, keepEn := t.pwr.keepEn,
          keepCfg := t.pwr.keepCfg, keepSeq := t.pwr.keepSeq } }) ∧
    (∀ (e : Entry) (v0 : Dword), ChangesOnly [.keepClearSlots e v0] s fun t => { completed s t with
        pwr := { s.pwr with keepDev := t.pwr.keepDev } }) ∧
    (∀ (e : Entry) (opt0 : Option Nat), ChangesOnly [.seal e opt0] s fun t => { reported (completed s t) t with
        sec := { s.sec with ownerHash := t.sec.ownerHash, sealBits := t.sec.sealBits, debug := t.sec.debug } }) ∧
    (∀ (e : Entry) (opt0 : Option Nat), ChangesOnly [.retire e opt0] s fun t => { reported (completed s t) t with
        sec := { s.sec with retireBits := t.sec.retireBits, debug := t.sec.debug } }) ∧
    (∀ (e : Entry) (opt0 : Option Nat), ChangesOnly [.rollbackAdvance e opt0] s fun t => { reported (completed s t) t with
        sec := { s.sec with rb := t.sec.rb } }) ∧
    (∀ (e : Entry), ChangesOnly [.debugChallenge e] s fun t => { completed s t with
        sec := { s.sec with challenge := t.sec.challenge, nonces := t.sec.nonces } }) ∧
    (∀ (e : Entry), ChangesOnly [.debugUnlock e] s fun t => { reported (completed s t) t with
        sec := { s.sec with debug := t.sec.debug, challenge := t.sec.challenge, fails := t.sec.fails } }) ∧
    (∀ (e : Entry), ChangesOnly [.quenchArm e, .quenchDisarm e] s fun t => { completed s t with
        quench := { s.quench with
          armed := t.quench.armed, pinEn := t.quench.pinEn, timeEn := t.quench.timeEn, eventEn := t.quench.eventEn,
          ceaseOn := t.quench.ceaseOn, cmpSec := t.quench.cmpSec, cmpNsec := t.quench.cmpNsec,
          evMap := t.quench.evMap } }) ∧
    (∀ (e : Entry), ChangesOnly [.quenchFire e] s fun t => reported (completed s t) t) ∧
    (∀ (e : Entry), ChangesOnly [.eventRead e] s fun t => { completed s t with
        obs := { s.obs with log := t.obs.log, nRead := t.obs.nRead } }) ∧
    (∀ (e : Entry), ChangesOnly [.eventMask e] s fun t => { completed s t with
        obs := { s.obs with logOff := t.obs.logOff, signalOn := t.obs.signalOn } }) ∧
    (∀ (e : Entry), ChangesOnly [.counterRead e] s fun t => { completed s t with
        obs := { s.obs with paceMin := t.obs.paceMin } }) ∧
    (∀ (e : Entry), ChangesOnly [.counterClear e] s fun t => { completed s t with
        obs := { s.obs with counters := t.obs.counters, saturated := t.obs.saturated, paceMin := t.obs.paceMin } }) ∧
    (ChangesOnly [.healthPulse] s fun t => { s with
        pins := { s.pins with healthHigh := t.pins.healthHigh }, out := t.out }) ∧
    (ChangesOnly [.supplySag] s fun t => { reported (completed s t) t with
        sec := { s.sec with debug := t.sec.debug, authMask := t.sec.authMask }
        pwr := { s.pwr with
          state := t.pwr.state, saving := t.pwr.saving, saveCause := t.pwr.saveCause, saveFrom := t.pwr.saveFrom,
          saveSec := t.pwr.saveSec, saveNsec := t.pwr.saveNsec, saveClk := t.pwr.saveClk,
          saveGroups := t.pwr.saveGroups, saveJoined := t.pwr.saveJoined }
        anneal := { s.anneal with running := t.anneal.running, windowEnd := t.anneal.windowEnd }
        pins := { s.pins with
          ceaseAck := t.pins.ceaseAck, healthHigh := t.pins.healthHigh, healthReady := t.pins.healthReady }
        map := { s.map with holding := t.map.holding }
        dxl := { s.dxl with lanes := t.dxl.lanes, groups := t.dxl.groups }
        asy := { s.asy with cams := t.asy.cams }
        par := { s.par with
          state := t.par.state, partnerRole := t.par.partnerRole, gafferEpoch := t.par.gafferEpoch,
          linkRun := t.par.linkRun, mseqRx := t.par.mseqRx, rejoin := t.par.rejoin, rejoinGot := t.par.rejoinGot,
          ptSeen := t.par.ptSeen }
        mot := { s.mot with axes := t.mot.axes } }) ∧
    (∀ (b0 : Bool), ChangesOnly [.saveDone b0] s fun t => { reported (completed s t) t with
        pwr := { s.pwr with
          state := t.pwr.state, keepSeq := t.pwr.keepSeq, keepDev := t.pwr.keepDev, saving := t.pwr.saving,
          offAfter := t.pwr.offAfter, supplyEn := t.pwr.supplyEn } }) ∧
    (ChangesOnly [.quenchPin] s fun t => reported s t) ∧
    (ChangesOnly [.quenchLatch] s fun t => { reported s t with
        quench := { s.quench with
          armed := t.quench.armed, valid := t.quench.valid, sources := t.quench.sources,
          ceaseSent := t.quench.ceaseSent, qseq := t.quench.qseq, tqSec := t.quench.tqSec,
          tqNsec := t.quench.tqNsec, evCode := t.quench.evCode, evSeq := t.quench.evSeq,
          latchDue := t.quench.latchDue, tqClk := t.quench.tqClk, window := t.quench.window } }) ∧
    (ChangesOnly [.rateWindow] s fun t => { s with
        obs := { s.obs with window := t.obs.window }, mem := { s.mem with ueRate := t.mem.ueRate } }) ∧
    (ChangesOnly [.challengeLapse] s fun t => { s with
        sec := { s.sec with challenge := t.sec.challenge } }) ∧
    (∀ (lis0 : List Int), ChangesOnly [.temperatureSample lis0] s fun t => { reported s t with
        pwr := { s.pwr with temps := t.pwr.temps, tj := t.pwr.tj, thermAlert := t.pwr.thermAlert }, job := t.job }) ∧
    (ChangesOnly [.annealStart] s fun t => { reported s t with
        anneal := { s.anneal with
          running := t.anneal.running, windowEnd := t.anneal.windowEnd, granted := t.anneal.granted }
        ftb := { s.ftb with projected := t.ftb.projected } }) ∧
    (∀ (b0 : Bool), ChangesOnly [.annealDone b0] s fun t => { reported s t with
        anneal := { s.anneal with
          sets := t.anneal.sets, taken := t.anneal.taken, due := t.anneal.due, running := t.anneal.running,
          windowEnd := t.anneal.windowEnd, failRuns := t.anneal.failRuns, retryAt := t.anneal.retryAt,
          ainCal := t.anneal.ainCal } }) ∧
    (∀ (n0 : Nat), ChangesOnly [.ainRecalibrate n0] s fun t => { s with
        anneal := { s.anneal with ainCal := t.anneal.ainCal }, mot := { s.mot with ainHold := t.mot.ainHold } }) ∧
    (ChangesOnly [.calibRecompute] s fun t => { s with
        anneal := { s.anneal with inUse := t.anneal.inUse } }) ∧
    (∀ (bit0 : BitVec 8), ChangesOnly [.jtagInstruction bit0] s fun t => { reported s t with
        sec := { s.sec with jtag := t.sec.jtag } }) ∧
    (∀ (bit0 : BitVec 96), ChangesOnly [.dbgAccessRead bit0] s fun t => { reported s t with
        sec := { s.sec with dbgResult := t.sec.dbgResult, dbgData := t.sec.dbgData, dbgUntil := t.sec.dbgUntil }
        time := { s.time with latched := t.time.latched }, free := t.free }) ∧
    (∀ (opt0 : Option Nat), ChangesOnly [.voutSettled opt0] s fun t => { completed s t with
        pwr := { s.pwr with vcore := t.pwr.vcore, vcoreSet := t.pwr.vcoreSet, vcoreAt := t.pwr.vcoreAt }
        anneal := { s.anneal with due := t.anneal.due } })

/-- Frames: what the 10 commands and events of the job, offsets, pages and tables leave unchanged (R46, R53, R79, R80,
R93, R99, R102, R392). -/
def Obligations.FrameJobPagesAndTables : Prop :=
  ∀ s : State,
    (∀ (e : Entry), ChangesOnly [.jobOpen e] s fun t => { reported (completed s t) t with
        job := t.job, web := { s.web with dOff := t.web.dOff, xShift := t.web.xShift, screens := t.web.screens }
        pages := { s.pages with list := t.pages.list, fireEnd := t.pages.fireEnd }
        tables := { s.tables with curveUpds := t.tables.curveUpds, maskUpds := t.tables.maskUpds }
        slices := { s.slices with recs := t.slices.recs, handed := t.slices.handed }
        map := { s.map with gens := t.map.gens }
        ftb := { s.ftb with
          lamI := t.ftb.lamI, lamF := t.ftb.lamF, speed := t.ftb.speed, rate := t.ftb.rate, paceAt := t.ftb.paceAt }
        cues := t.cues, dxl := { s.dxl with released := t.dxl.released }
        asy := { s.asy with setup := t.asy.setup, due := t.asy.due, variantsDue := t.asy.variantsDue }
        par := { s.par with mseqTx := t.par.mseqTx } }) ∧
    (∀ (e : Entry), ChangesOnly [.jobClose e] s fun t => { reported (completed s t) t with
        job := t.job, pages := { s.pages with list := t.pages.list, fireEnd := t.pages.fireEnd }
        tables := { s.tables with curveUpds := t.tables.curveUpds, maskUpds := t.tables.maskUpds }
        slices := { s.slices with recs := t.slices.recs }
        ftb := { s.ftb with
          lamI := t.ftb.lamI, lamF := t.ftb.lamF, speed := t.ftb.speed, rate := t.ftb.rate, paceAt := t.ftb.paceAt }
        cues := t.cues
        asy := { s.asy with setup := t.asy.setup, due := t.asy.due, variantsDue := t.asy.variantsDue } }) ∧
    (∀ (e : Entry), ChangesOnly [.pageLoad e] s fun t => { completed s t with
        pages := { s.pages with list := t.pages.list, load := t.pages.load, fireEnd := t.pages.fireEnd } }) ∧
    (∀ (e : Entry), ChangesOnly [.pageCommit e] s fun t => { reported (completed s t) t with
        pages := { s.pages with list := t.pages.list, nextAdm := t.pages.nextAdm, lastEnd := t.pages.lastEnd }
        asy := { s.asy with due := t.asy.due, periodic := t.asy.periodic, lastPeriodic := t.asy.lastPeriodic }
        par := { s.par with
          mseqTx := t.par.mseqTx, pageMsgs := t.par.pageMsgs, refused := t.par.refused,
          unshadowed := t.par.unshadowed } }) ∧
    (∀ (e : Entry), ChangesOnly [.pageAbort e] s fun t => { reported (completed s t) t with
        pages := { s.pages with list := t.pages.list, load := t.pages.load, lastEnd := t.pages.lastEnd }
        slices := { s.slices with recs := t.slices.recs }
        asy := { s.asy with due := t.asy.due, cutMarks := t.asy.cutMarks }
        par := { s.par with mseqTx := t.par.mseqTx, pageEnds := t.par.pageEnds } }) ∧
    (∀ (e : Entry), ChangesOnly [.pageStatus e] s fun t => completed s t) ∧
    (∀ (e : Entry), ChangesOnly [.doffsetSet e] s fun t => { reported (completed s t) t with
        job := t.job, web := { s.web with dOff := t.web.dOff } }) ∧
    (∀ (e : Entry), ChangesOnly [.xshiftSet e] s fun t => { completed s t with
        web := { s.web with xShift := t.web.xShift } }) ∧
    (∀ (n0 n1 : Nat) (dma0 : DmaEnd), ChangesOnly [.dmaReadCompletion n0 n1 dma0] s fun t => { completed s t with
        pages := { s.pages with list := t.pages.list, load := t.pages.load } }) ∧
    (ChangesOnly [.blockStore] s fun t => { completed s t with
        pages := { s.pages with list := t.pages.list, load := t.pages.load }, free := t.free })

/-- Frames: what the 17 commands and events of the web: encoders, gearing, ticks, cues and pulses leave unchanged
(R148, R151, R153, R156, R158, R164, R167, R170). -/
def Obligations.FrameWeb : Prop :=
  ∀ s : State,
    (∀ (e : Entry), ChangesOnly [.webConfig e] s fun t => { completed s t with
        webCfg := t.webCfg
        ftb := { s.ftb with
          lamI := t.ftb.lamI, lamF := t.ftb.lamF, speed := t.ftb.speed, intervals := t.ftb.intervals,
          lastEdge := t.ftb.lastEdge, lastDir := t.ftb.lastDir, projected := t.ftb.projected, rate := t.ftb.rate,
          rateTarget := t.ftb.rateTarget, paceAt := t.ftb.paceAt }
        cues := t.cues }) ∧
    (∀ (e : Entry), ChangesOnly [.encConfig e] s fun t => { completed s t with
        encs := t.encs }) ∧
    (∀ (e : Entry), ChangesOnly [.gearSet e] s fun t => { reported (completed s t) t with
        ftb := { s.ftb with g := t.ftb.g, gears := t.ftb.gears }
        par := { s.par with posFlagClk := t.par.posFlagClk } }) ∧
    (∀ (e : Entry), ChangesOnly [.lineReference e] s fun t => { reported (completed s t) t with
        pwr := { s.pwr with stale := t.pwr.stale }, web := t.web
        pages := { s.pages with list := t.pages.list, lastEnd := t.pages.lastEnd, fireEnd := t.pages.fireEnd }
        tables := { s.tables with
          curves := t.tables.curves, entries := t.tables.entries, curveUpds := t.tables.curveUpds,
          masks := t.tables.masks, maskUpds := t.tables.maskUpds, poisoned := t.tables.poisoned }
        slices := { s.slices with recs := t.slices.recs, handed := t.slices.handed }
        map := { s.map with gens := t.map.gens }
        csc := { s.csc with
          nf := t.csc.nf, nfBase := t.csc.nfBase, bf := t.csc.bf, rho := t.csc.rho, heldRho := t.csc.heldRho,
          fixedTo := t.csc.fixedTo, stamped := t.csc.stamped }
        ftb := { s.ftb with
          lamI := t.ftb.lamI, lamF := t.ftb.lamF, hwm := t.ftb.hwm, pmax := t.ftb.pmax, reversed := t.ftb.reversed,
          lineRef := t.ftb.lineRef, speed := t.ftb.speed, intervals := t.ftb.intervals, lastEdge := t.ftb.lastEdge,
          lastDir := t.ftb.lastDir, projected := t.ftb.projected, heldTicks := t.ftb.heldTicks, rate := t.ftb.rate,
          paceAt := t.ftb.paceAt, lam10I := t.ftb.lam10I, lam10F := t.ftb.lam10F }
        cues := t.cues
        dxl := { s.dxl with
          replay := t.dxl.replay, heldLine := t.dxl.heldLine, released := t.dxl.released,
          firstLine := t.dxl.firstLine }
        par := { s.par with posFlagClk := t.par.posFlagClk } }) ∧
    (∀ (e : Entry), ChangesOnly [.paceSet e] s fun t => { completed s t with
        ftb := { s.ftb with
          lamI := t.ftb.lamI, lamF := t.ftb.lamF, speed := t.ftb.speed, rate := t.ftb.rate,
          rateTarget := t.ftb.rateTarget, paceAt := t.ftb.paceAt }
        cues := t.cues, par := { s.par with posFlagClk := t.par.posFlagClk } }) ∧
    (∀ (e : Entry), ChangesOnly [.cueConfig e, .cueRead e] s fun t => { completed s t with
        cues := t.cues }) ∧
    (∀ (e : Entry), ChangesOnly [.pulseConfig e] s fun t => { reported (completed s t) t with
        pulses := t.pulses, asy := { s.asy with cams := t.asy.cams } }) ∧
    (∀ (e : Entry), ChangesOnly [.fireTrim e] s fun t => { reported (completed s t) t with
        job := t.job, web := { s.web with trims := t.web.trims } }) ∧
    (∀ (e : Entry), ChangesOnly [.webStatus e] s fun t => completed s t) ∧
    (∀ (n0 : Nat) (b0 b1 : Bool) (edg0 : Edge), ChangesOnly [.encCount n0 b0 b1 edg0] s fun t => { reported s t with
        pwr := { s.pwr with stale := t.pwr.stale }, web := t.web
        pages := { s.pages with list := t.pages.list, lastEnd := t.pages.lastEnd, fireEnd := t.pages.fireEnd }
        tables := { s.tables with
          curves := t.tables.curves, entries := t.tables.entries, curveUpds := t.tables.curveUpds,
          masks := t.tables.masks, maskUpds := t.tables.maskUpds, poisoned := t.tables.poisoned }
        slices := { s.slices with recs := t.slices.recs, handed := t.slices.handed }
        map := { s.map with gens := t.map.gens }
        csc := { s.csc with
          nf := t.csc.nf, nfBase := t.csc.nfBase, bf := t.csc.bf, rho := t.csc.rho, heldRho := t.csc.heldRho,
          fixedTo := t.csc.fixedTo, stamped := t.csc.stamped }
        encs := t.encs
        webCfg := { s.webCfg with
          winMaster := t.webCfg.winMaster, winCheck := t.webCfg.winCheck, checkFailed := t.webCfg.checkFailed }
        ftb := { s.ftb with
          lamI := t.ftb.lamI, lamF := t.ftb.lamF, hwm := t.ftb.hwm, g := t.ftb.g, pmax := t.ftb.pmax,
          reversed := t.ftb.reversed, gears := t.ftb.gears, lineRef := t.ftb.lineRef, speed := t.ftb.speed,
          intervals := t.ftb.intervals, lastEdge := t.ftb.lastEdge, lastDir := t.ftb.lastDir,
          projected := t.ftb.projected, heldTicks := t.ftb.heldTicks, rate := t.ftb.rate, paceAt := t.ftb.paceAt,
          lam10I := t.ftb.lam10I, lam10F := t.ftb.lam10F }
        cues := t.cues, pulses := t.pulses
        dxl := { s.dxl with
          replay := t.dxl.replay, heldLine := t.dxl.heldLine, released := t.dxl.released,
          firstLine := t.dxl.firstLine }
        par := { s.par with posFlagClk := t.par.posFlagClk }, mot := { s.mot with axes := t.mot.axes } }) ∧
    (∀ (n0 : Nat), ChangesOnly [.lineTick n0] s fun t => { reported s t with
        anneal := { s.anneal with running := t.anneal.running, windowEnd := t.anneal.windowEnd }
        pages := { s.pages with list := t.pages.list }, slices := { s.slices with recs := t.slices.recs }
        csc := { s.csc with overRun := t.csc.overRun }
        ftb := { s.ftb with
          hwm := t.ftb.hwm, projected := t.ftb.projected, heldTicks := t.ftb.heldTicks, lastTick := t.ftb.lastTick,
          tickLimitRaised := t.ftb.tickLimitRaised }
        pulses := t.pulses, asy := { s.asy with due := t.asy.due, cutMarks := t.asy.cutMarks }
        par := { s.par with mseqTx := t.par.mseqTx }, free := t.free }) ∧
    (∀ (n0 : Nat), ChangesOnly [.heldTickIssue n0] s fun t => { reported s t with
        pages := { s.pages with list := t.pages.list }, slices := { s.slices with recs := t.slices.recs }
        ftb := { s.ftb with heldTicks := t.ftb.heldTicks, lastTick := t.ftb.lastTick }, pulses := t.pulses
        asy := { s.asy with due := t.asy.due, cutMarks := t.asy.cutMarks }
        par := { s.par with mseqTx := t.par.mseqTx }, free := t.free }) ∧
    (∀ (n0 : Nat), ChangesOnly [.pacingTick n0] s fun t => { reported s t with
        anneal := { s.anneal with running := t.anneal.running, windowEnd := t.anneal.windowEnd }
        pages := { s.pages with list := t.pages.list }, slices := { s.slices with recs := t.slices.recs }
        csc := { s.csc with overRun := t.csc.overRun }
        ftb := { s.ftb with
          lamI := t.ftb.lamI, lamF := t.ftb.lamF, hwm := t.ftb.hwm, speed := t.ftb.speed,
          heldTicks := t.ftb.heldTicks, lastTick := t.ftb.lastTick, tickLimitRaised := t.ftb.tickLimitRaised,
          rate := t.ftb.rate, paceAt := t.ftb.paceAt }
        cues := t.cues, pulses := t.pulses, asy := { s.asy with due := t.asy.due, cutMarks := t.asy.cutMarks }
        par := { s.par with mseqTx := t.par.mseqTx }, free := t.free }) ∧
    (∀ (n0 : Nat), ChangesOnly [.webStill n0] s fun t => { reported s t with
        ftb := { s.ftb with
          speed := t.ftb.speed, intervals := t.ftb.intervals, lastEdge := t.ftb.lastEdge, lastDir := t.ftb.lastDir } }) ∧
    (∀ (n0 : Nat), ChangesOnly [.rateReading n0] s fun t => { reported s t with
        pages := { s.pages with list := t.pages.list }
        ftb := { s.ftb with
          speed := t.ftb.speed, rho10 := t.ftb.rho10, lam10I := t.ftb.lam10I, lam10F := t.ftb.lam10F } }) ∧
    (∀ (n0 : Nat) (b0 : Bool) (edg0 : Edge), ChangesOnly [.cueCapture n0 b0 edg0] s fun t => { reported s t with
        pages := { s.pages with list := t.pages.list, lastEnd := t.pages.lastEnd }, cues := t.cues
        par := { s.par with mseqTx := t.par.mseqTx } })

/-- Frames: what the 14 commands and events of the slices, the cluster scheduler and the health map leave unchanged
(R85, R107, R117, R125, R131, R135). -/
def Obligations.FrameLinesAndMap : Prop :=
  ∀ s : State,
    (∀ (e : Entry), ChangesOnly [.mapPush e] s fun t => { completed s t with
        map := { s.map with
          gens := t.map.gens, pending := t.map.pending, reports := t.map.reports, poisonFix := t.map.poisonFix }
        par := { s.par with mseqTx := t.par.mseqTx } }) ∧
    (∀ (e : Entry), ChangesOnly [.curveLoad e] s fun t => { completed s t with
        tables := { s.tables with
          curves := t.tables.curves, entries := t.tables.entries, curveUpds := t.tables.curveUpds,
          curveGen := t.tables.curveGen, masks := t.tables.masks, maskUpds := t.tables.maskUpds,
          poisoned := t.tables.poisoned } }) ∧
    (∀ (e : Entry), ChangesOnly [.screenLoad e] s fun t => { completed s t with
        web := { s.web with screens := t.web.screens }
        tables := { s.tables with screens := t.tables.screens, poisoned := t.tables.poisoned } }) ∧
    (∀ (e : Entry), ChangesOnly [.stitchLoad e] s fun t => { completed s t with
        tables := { s.tables with
          curves := t.tables.curves, entries := t.tables.entries, curveUpds := t.tables.curveUpds,
          masks := t.tables.masks, maskUpds := t.tables.maskUpds, poisoned := t.tables.poisoned } }) ∧
    (∀ (e : Entry), ChangesOnly [.mapRead e] s fun t => completed s t) ∧
    (∀ (lis0 : List Nat), ChangesOnly [.paceReading lis0] s fun t => { reported s t with
        obs := { s.obs with
          log := t.obs.log, seq := t.obs.seq, lostNext := t.obs.lostNext, window := t.obs.window,
          signalDue := t.obs.signalDue, signalAt := t.obs.signalAt, counters := t.obs.counters,
          saturated := t.obs.saturated, freshAt := t.obs.freshAt, fresh := t.obs.fresh, paceMin := t.obs.paceMin }
        pages := { s.pages with list := t.pages.list }
        slices := { s.slices with pace := t.slices.pace, lowRuns := t.slices.lowRuns } }) ∧
    (∀ (n0 n1 : Nat) (i0 : Int), ChangesOnly [.recordComplete n0 n1 i0] s fun t => { reported s t with
        pages := { s.pages with list := t.pages.list }, tables := { s.tables with poisoned := t.tables.poisoned }
        slices := { s.slices with recs := t.slices.recs, handed := t.slices.handed }
        csc := { s.csc with
          marks := t.csc.marks, refillMarks := t.csc.refillMarks, cleanRuns := t.csc.cleanRuns,
          stamped := t.csc.stamped }
        asy := { s.asy with marks := t.asy.marks, markedLines := t.asy.markedLines, cutMarks := t.asy.cutMarks } }) ∧
    (∀ (n0 n1 : Nat) (i0 : Int), ChangesOnly [.sliceDeadline n0 n1 i0] s fun t => { reported s t with
        pages := { s.pages with list := t.pages.list }
        slices := { s.slices with recs := t.slices.recs, handed := t.slices.handed }
        map := { s.map with waitRaised := t.map.waitRaised, holding := t.map.holding }
        csc := { s.csc with
          marks := t.csc.marks, refillMarks := t.csc.refillMarks, cleanRuns := t.csc.cleanRuns }
        dxl := { s.dxl with released := t.dxl.released }
        asy := { s.asy with marks := t.asy.marks, markedLines := t.asy.markedLines, cutMarks := t.asy.cutMarks }
        par := { s.par with unshadowed := t.par.unshadowed } }) ∧
    (ChangesOnly [.refillFix] s fun t => { reported s t with
        pages := { s.pages with list := t.pages.list }, slices := { s.slices with recs := t.slices.recs }
        csc := { s.csc with
          marks := t.csc.marks, refillMarks := t.csc.refillMarks, cleanRuns := t.csc.cleanRuns, rho := t.csc.rho,
          heldRho := t.csc.heldRho, fixedTo := t.csc.fixedTo, stamped := t.csc.stamped } }) ∧
    (∀ (n0 n1 : Nat) (i0 : Int), ChangesOnly [.schedLate n0 n1 i0] s fun t => { reported s t with
        pages := { s.pages with list := t.pages.list }
        slices := { s.slices with recs := t.slices.recs, handed := t.slices.handed }
        csc := { s.csc with
          marks := t.csc.marks, refillMarks := t.csc.refillMarks, cleanRuns := t.csc.cleanRuns }
        asy := { s.asy with marks := t.asy.marks, markedLines := t.asy.markedLines, cutMarks := t.asy.cutMarks } }) ∧
    (∀ (n0 : Nat), ChangesOnly [.recordRelease n0] s fun t => { reported s t with
        pages := { s.pages with list := t.pages.list }
        slices := { s.slices with recs := t.slices.recs, handed := t.slices.handed }
        csc := { s.csc with
          nf := t.csc.nf, nfBase := t.csc.nfBase, bf := t.csc.bf, kf := t.csc.kf, armed := t.csc.armed,
          refills := t.csc.refills, seamReq := t.csc.seamReq, joinSeams := t.csc.joinSeams, marks := t.csc.marks,
          refillMarks := t.csc.refillMarks, cleanRuns := t.csc.cleanRuns }
        dxl := { s.dxl with
          replay := t.dxl.replay, rseq := t.dxl.rseq, resync := t.dxl.resync, released := t.dxl.released,
          firstLine := t.dxl.firstLine }
        asy := { s.asy with marks := t.asy.marks, markedLines := t.asy.markedLines, cutMarks := t.asy.cutMarks }
        free := t.free }) ∧
    (ChangesOnly [.overspeed] s fun t => { reported s t with
        pages := { s.pages with list := t.pages.list }, slices := { s.slices with recs := t.slices.recs }
        csc := { s.csc with overRun := t.csc.overRun }
        asy := { s.asy with due := t.asy.due, cutMarks := t.asy.cutMarks }
        par := { s.par with mseqTx := t.par.mseqTx } }) ∧
    (ChangesOnly [.mapApplied] s fun t => { reported s t with
        map := { s.map with
          gens := t.map.gens, pending := t.map.pending, poisoned := t.map.poisoned, poisonFix := t.map.poisonFix } }) ∧
    (ChangesOnly [.generationForm] s fun t => { reported s t with
        map := { s.map with
          gens := t.map.gens, pending := t.map.pending, reports := t.map.reports, joins := t.map.joins,
          poisonFix := t.map.poisonFix }
        asy := { s.asy with due := t.asy.due }, par := { s.par with mseqTx := t.par.mseqTx } })

/-- Frames: what the 45 commands and events of the head link, modules, cameras and the assay leave unchanged (R183,
R191, R209, R210, R211, R226, R231, R247). -/
def Obligations.FrameLinkAndAssay : Prop :=
  ∀ s : State,
    (∀ (e : Entry), ChangesOnly [.linkEqLoad e] s fun t => { completed s t with
        dxl := { s.dxl with lanes := t.dxl.lanes } }) ∧
    (∀ (e : Entry), ChangesOnly [.ceaseClear e] s fun t => { completed s t with
        pins := { s.pins with ceaseAck := t.pins.ceaseAck }
        cease := { s.cease with inForce := t.cease.inForce, waiting := t.cease.waiting } }) ∧
    (∀ (e : Entry), ChangesOnly [.linkStatus e] s fun t => completed s t) ∧
    (∀ (e : Entry), ChangesOnly [.assaySetup e] s fun t => { reported (completed s t) t with
        tables := { s.tables with
          curves := t.tables.curves, entries := t.tables.entries, curveUpds := t.tables.curveUpds,
          curveGen := t.tables.curveGen, masks := t.tables.masks, maskUpds := t.tables.maskUpds,
          poisoned := t.tables.poisoned }
        asy := { s.asy with
          setup := t.asy.setup, cams := t.asy.cams, windows := t.asy.windows, stripe := t.asy.stripe,
          wants := t.asy.wants, drops := t.asy.drops, variantsDue := t.asy.variantsDue }
        par := { s.par with mseqTx := t.par.mseqTx } }) ∧
    (∀ (e : Entry), ChangesOnly [.assayStop e] s fun t => { completed s t with
        asy := { s.asy with
          setup := t.asy.setup, due := t.asy.due, windows := t.asy.windows, stripe := t.asy.stripe,
          wants := t.asy.wants, variantsDue := t.asy.variantsDue } }) ∧
    (∀ (e : Entry), ChangesOnly [.assayLock e] s fun t => { completed s t with
        asy := { s.asy with
          mapLock := t.asy.mapLock, curveLock := t.asy.curveLock, censusHold := t.asy.censusHold,
          lockTables := t.asy.lockTables }
        par := { s.par with mseqTx := t.par.mseqTx } }) ∧
    (∀ (e : Entry), ChangesOnly [.censusRequest e] s fun t => { completed s t with
        asy := { s.asy with due := t.asy.due } }) ∧
    (∀ (e : Entry), ChangesOnly [.assayResults e, .assayPixels e] s fun t => { completed s t with
        mem := { s.mem with queryPoison := t.mem.queryPoison } }) ∧
    (∀ (e : Entry), ChangesOnly [.ceaseIssue e] s fun t => { completed s t with
        pins := { s.pins with ceaseAck := t.pins.ceaseAck }, cease := t.cease }) ∧
    (∀ (e : Entry), ChangesOnly [.moduleAuth e] s fun t => { reported (completed s t) t with
        sec := { s.sec with authMask := t.sec.authMask }, dxl := { s.dxl with groups := t.dxl.groups } }) ∧
    (ChangesOnly [.ceaseN] s fun t => { s with
        pins := { s.pins with ceaseN := t.pins.ceaseN, ceaseAck := t.pins.ceaseAck }, cease := t.cease
        out := t.out }) ∧
    (ChangesOnly [.ceaseNRelease] s fun t => { s with
        pins := { s.pins with ceaseN := t.pins.ceaseN, ceaseAck := t.pins.ceaseAck } }) ∧
    (ChangesOnly [.ceaseUnconfirmed] s fun t => reported s t) ∧
    (∀ (n0 : Nat), ChangesOnly [.laneDetect n0] s fun t => { s with
        dxl := { s.dxl with lanes := t.dxl.lanes } }) ∧
    (∀ (n0 n1 : Nat) (tri0 : Trial), ChangesOnly
      [.polarityCount n0 n1, .slipTrial n0 tri0]
      s fun t => { reported s t with
        dxl := { s.dxl with lanes := t.dxl.lanes } }) ∧
    (∀ (n0 n1 : Nat) (lin0 : LinkUp), ChangesOnly
      [.markLock n0 n1, .groupBringup lin0]
      s fun t => { reported s t with
        dxl := { s.dxl with lanes := t.dxl.lanes, groups := t.dxl.groups } }) ∧
    (∀ (n0 : Nat), ChangesOnly [.spareAbsent n0] s fun t => { reported s t with
        dxl := { s.dxl with groups := t.dxl.groups } }) ∧
    (∀ (n0 : Nat) (b0 : Bool), ChangesOnly [.los n0, .lol n0 b0] s fun t => { reported (completed s t) t with
        sec := { s.sec with authMask := t.sec.authMask }, map := { s.map with holding := t.map.holding }
        dxl := { s.dxl with
          lanes := t.dxl.lanes, groups := t.dxl.groups, replay := t.dxl.replay, resync := t.dxl.resync }
        asy := { s.asy with
          cams := t.asy.cams, marks := t.asy.marks, markedLines := t.asy.markedLines, cutMarks := t.asy.cutMarks } }) ∧
    (∀ (n0 n1 n2 : Nat), ChangesOnly [.restripeReq n0 n1 n2] s fun t => { s with
        dxl := { s.dxl with groups := t.dxl.groups }, out := t.out, free := t.free }) ∧
    (∀ (n0 n1 n2 n3 n4 : Nat), ChangesOnly [.restripe n0 n1 n2 n3 n4] s fun t => { s with
        dxl := { s.dxl with groups := t.dxl.groups } }) ∧
    (∀ (n0 : Nat) (b0 : Bool), ChangesOnly [.restripeSwitch n0 b0] s fun t => { reported s t with
        dxl := { s.dxl with lanes := t.dxl.lanes, groups := t.dxl.groups, tokens := t.dxl.tokens } }) ∧
    (∀ (n0 : Nat) (mar0 : MarkBody), ChangesOnly [.mark n0 mar0] s fun t => { reported s t with
        pins := { s.pins with ceaseAck := t.pins.ceaseAck, healthReady := t.pins.healthReady }
        dxl := { s.dxl with groups := t.dxl.groups }
        par := { s.par with state := t.par.state, epoch := t.par.epoch, mustFall := t.par.mustFall } }) ∧
    (∀ (n0 n1 n2 : Nat) (v0 : Dword), ChangesOnly [.held n0 n1 n2 v0] s fun t => { s with
        dxl := { s.dxl with replay := t.dxl.replay, lastHeld := t.dxl.lastHeld, heldLine := t.dxl.heldLine } }) ∧
    (∀ (n0 n1 n2 : Nat), ChangesOnly [.resend n0 n1 n2] s fun t => { reported s t with
        csc := { s.csc with
          seamReq := t.csc.seamReq, joinSeams := t.csc.joinSeams, marks := t.csc.marks,
          refillMarks := t.csc.refillMarks, cleanRuns := t.csc.cleanRuns }
        dxl := { s.dxl with replay := t.dxl.replay, resync := t.dxl.resync }
        asy := { s.asy with marks := t.asy.marks, markedLines := t.asy.markedLines, cutMarks := t.asy.cutMarks }
        free := t.free }) ∧
    (∀ (n0 : Nat) (bit0 : BitVec 48), ChangesOnly [.status n0 bit0] s fun t => { reported s t with
        pins := { s.pins with ceaseAck := t.pins.ceaseAck, healthReady := t.pins.healthReady }
        csc := { s.csc with seamReq := t.csc.seamReq }, dxl := { s.dxl with groups := t.dxl.groups }
        par := { s.par with state := t.par.state, epoch := t.par.epoch, mustFall := t.par.mustFall } }) ∧
    (∀ (n0 : Nat) (b0 b1 : Bool) (v0 : Dword), ChangesOnly
      [.mapack n0 b0 b1 v0, .mcrcTimeout n0]
      s fun t => { reported s t with
        job := t.job, map := { s.map with acked := t.map.acked, joins := t.map.joins }
        csc := { s.csc with seamReq := t.csc.seamReq, joinSeams := t.csc.joinSeams }
        dxl := { s.dxl with
          lanes := t.dxl.lanes, groups := t.dxl.groups, resync := t.dxl.resync, firstLine := t.dxl.firstLine } }) ∧
    (∀ (n0 n1 : Nat) (v0 : Dword), ChangesOnly [.ehr n0 n1 v0] s fun t => { reported s t with
        map := { s.map with reports := t.map.reports } }) ∧
    (∀ (n0 n1 : Nat) (v0 : Dword), ChangesOnly [.tmdata n0 n1 v0] s fun t => { reported (completed s t) t with
        sec := { s.sec with authMask := t.sec.authMask }, job := t.job
        map := { s.map with acked := t.map.acked, joins := t.map.joins }
        csc := { s.csc with seamReq := t.csc.seamReq, joinSeams := t.csc.joinSeams }
        dxl := { s.dxl with
          lanes := t.dxl.lanes, groups := t.dxl.groups, resync := t.dxl.resync, firstLine := t.dxl.firstLine,
          tokens := t.dxl.tokens } }) ∧
    (∀ (n0 n1 : Nat) (bit0 : BitVec 16), ChangesOnly [.temp n0 n1 bit0] s fun t => { s with
        dxl := { s.dxl with temps := t.dxl.temps } }) ∧
    (∀ (n0 n1 n2 n3 : Nat), ChangesOnly [.echoRsp n0 n1 n2 n3] s fun t => { reported s t with
        dxl := { s.dxl with groups := t.dxl.groups }, free := t.free }) ∧
    (∀ (n0 : Nat), ChangesOnly [.latencyMeasure n0] s fun t => { s with
        dxl := { s.dxl with groups := t.dxl.groups, tokens := t.dxl.tokens }, out := t.out }) ∧
    (∀ (n0 n1 n2 n3 : Nat), ChangesOnly [.fault n0 n1 n2 n3] s fun t => { reported s t with
        csc := { s.csc with seamReq := t.csc.seamReq, joinSeams := t.csc.joinSeams }
        dxl := { s.dxl with groups := t.dxl.groups }
        asy := { s.asy with marks := t.asy.marks, markedLines := t.asy.markedLines, cutMarks := t.asy.cutMarks } }) ∧
    (∀ (n0 n1 : Nat), ChangesOnly [.ceased n0 n1] s fun t => { s with
        pins := { s.pins with ceaseAck := t.pins.ceaseAck }, cease := { s.cease with waiting := t.cease.waiting } }) ∧
    (∀ (n0 n1 n2 n3 : Nat) (b0 : Bool), ChangesOnly [.scan n0 n1 n2 n3 b0] s fun t => { reported s t with
        pages := { s.pages with list := t.pages.list }, asy := { s.asy with cams := t.asy.cams } }) ∧
    (∀ (n0 n1 : Nat) (v0 : Dword) (lis0 : List Qword), ChangesOnly
      [.scanend n0 n1 v0 lis0]
      s fun t => { reported s t with
        asy := { s.asy with
          due := t.asy.due, cams := t.asy.cams, windows := t.asy.windows, stripe := t.asy.stripe,
          wants := t.asy.wants, drops := t.asy.drops, shown := t.asy.shown } }) ∧
    (∀ (n0 : Nat), ChangesOnly [.censusDone n0] s fun t => { reported s t with
        asy := { s.asy with
          due := t.asy.due, windows := t.asy.windows, stripe := t.asy.stripe, wants := t.asy.wants,
          drops := t.asy.drops, judged := t.asy.judged, verdicts := t.asy.verdicts, signals := t.asy.signals,
          rref := t.asy.rref, goodRuns := t.asy.goodRuns, proposed := t.asy.proposed, stamps := t.asy.stamps } }) ∧
    (ChangesOnly [.assayMap] s fun t => { reported s t with
        map := { s.map with gens := t.map.gens, pending := t.map.pending, reports := t.map.reports }
        asy := { s.asy with proposed := t.asy.proposed }, par := { s.par with mseqTx := t.par.mseqTx } }) ∧
    (ChangesOnly [.assayCurves] s fun t => { reported s t with
        tables := { s.tables with
          curves := t.tables.curves, entries := t.tables.entries, curveUpds := t.tables.curveUpds,
          curveGen := t.tables.curveGen, masks := t.tables.masks, maskUpds := t.tables.maskUpds,
          poisoned := t.tables.poisoned }
        asy := { s.asy with wants := t.asy.wants }, par := { s.par with mseqTx := t.par.mseqTx } }) ∧
    (∀ (n0 : Nat), ChangesOnly [.chkFail n0, .stuffingViolation n0] s fun t => { reported s t with
        csc := { s.csc with
          marks := t.csc.marks, refillMarks := t.csc.refillMarks, cleanRuns := t.csc.cleanRuns } })

/-- Frames: what the 46 commands and events of the pair and the memory leave unchanged (R259, R265, R268, R269, R282,
R293, R302, R310). -/
def Obligations.FramePairAndMemory : Prop :=
  ∀ s : State,
    (∀ (e : Entry) (pop0 : Population), ChangesOnly [.memConfig e pop0] s fun t => { reported (completed s t) t with
        mem := { s.mem with
          cfg := t.mem.cfg, ranks := t.mem.ranks, cullets := t.mem.cullets, culletRead := t.mem.culletRead,
          culletSeq := t.mem.culletSeq, culletLost := t.mem.culletLost, fullRaised := t.mem.fullRaised } }) ∧
    (∀ (e : Entry), ChangesOnly [.memRegions e] s fun t => { completed s t with
        mem := { s.mem with regions := t.mem.regions, ready := t.mem.ready, poisoned := t.mem.poisoned } }) ∧
    (∀ (e : Entry), ChangesOnly [.burnishRun e, .burnishStop e, .burnishDone] s fun t => { completed s t with
        mem := { s.mem with burnish := t.mem.burnish } }) ∧
    (∀ (e : Entry), ChangesOnly [.memMigrate e] s fun t => { reported (completed s t) t with
        mem := { s.mem with
          ranks := t.mem.ranks, copies := t.mem.copies, cullets := t.mem.cullets, culletRead := t.mem.culletRead,
          culletSeq := t.mem.culletSeq, culletLost := t.mem.culletLost, fullRaised := t.mem.fullRaised } }) ∧
    (∀ (ret0 : RetireTurn), ChangesOnly [.memRetire ret0] s fun t => { reported (completed s t) t with
        pins := { s.pins with ceaseAck := t.pins.ceaseAck, healthReady := t.pins.healthReady }
        pages := { s.pages with list := t.pages.list }, tables := { s.tables with poisoned := t.tables.poisoned }
        slices := { s.slices with recs := t.slices.recs, handed := t.slices.handed }
        map := { s.map with poisoned := t.map.poisoned, poisonFix := t.map.poisonFix }
        csc := { s.csc with
          seamReq := t.csc.seamReq, joinSeams := t.csc.joinSeams, marks := t.csc.marks,
          refillMarks := t.csc.refillMarks, cleanRuns := t.csc.cleanRuns }
        ftb := { s.ftb with referenced := t.ftb.referenced }
        asy := { s.asy with
          cams := t.asy.cams, windows := t.asy.windows, marks := t.asy.marks, markedLines := t.asy.markedLines,
          cutMarks := t.asy.cutMarks, goodRuns := t.asy.goodRuns }
        par := { s.par with
          state := t.par.state, refusedRaised := t.par.refusedRaised, rejoin := t.par.rejoin,
          rejoinGot := t.par.rejoinGot, autoDue := t.par.autoDue }
        mem := { s.mem with
          ranks := t.mem.ranks, writes := t.mem.writes, served := t.mem.served, places := t.mem.places,
          copies := t.mem.copies, poisoned := t.mem.poisoned, queryPoison := t.mem.queryPoison,
          debugged := t.mem.debugged, delivered := t.mem.delivered, remap := t.mem.remap, cullets := t.mem.cullets,
          culletRead := t.mem.culletRead, culletSeq := t.mem.culletSeq, culletLost := t.mem.culletLost,
          fullRaised := t.mem.fullRaised, burnish := t.mem.burnish, ueRate := t.mem.ueRate } }) ∧
    (∀ (e : Entry), ChangesOnly [.culletRead e] s fun t => { completed s t with
        mem := { s.mem with culletRead := t.mem.culletRead, fullRaised := t.mem.fullRaised } }) ∧
    (∀ (e : Entry), ChangesOnly [.memStatus e, .pairStatus e] s fun t => completed s t) ∧
    (∀ (e : Entry), ChangesOnly [.pairConfig e] s fun t => { reported (completed s t) t with
        sec := { s.sec with authMask := t.sec.authMask }, map := { s.map with holding := t.map.holding }
        dxl := { s.dxl with lanes := t.dxl.lanes, groups := t.dxl.groups }
        asy := { s.asy with cams := t.asy.cams }
        par := { s.par with
          enabled := t.par.enabled, ptlRate := t.par.ptlRate, partnerRole := t.par.partnerRole,
          gafferEpoch := t.par.gafferEpoch, linkRun := t.par.linkRun, mseqRx := t.par.mseqRx,
          rejoin := t.par.rejoin, rejoinGot := t.par.rejoinGot, ptSeen := t.par.ptSeen } }) ∧
    (∀ (e : Entry), ChangesOnly [.roleFound e] s fun t => { completed s t with
        pins := { s.pins with healthReady := t.pins.healthReady }
        ftb := { s.ftb with referenced := t.ftb.referenced }
        par := { s.par with
          state := t.par.state, rejoin := t.par.rejoin, rejoinGot := t.par.rejoinGot, autoDue := t.par.autoDue } }) ∧
    (∀ (e : Entry) (v0 : Dword), ChangesOnly [.pairRejoin e v0, .rejoinAuto v0] s fun t => { reported (completed s t) t with
        ftb := { s.ftb with referenced := t.ftb.referenced }
        par := { s.par with
          epoch := t.par.epoch, deltas := t.par.deltas, ptToken := t.par.ptToken, ptSent := t.par.ptSent,
          rejoin := t.par.rejoin, rejoinGot := t.par.rejoinGot, autoDue := t.par.autoDue,
          digestBad := t.par.digestBad, blockGot := t.par.blockGot, pageMsgs := t.par.pageMsgs,
          refused := t.par.refused, pageEnds := t.par.pageEnds, unshadowed := t.par.unshadowed } }) ∧
    (∀ (sen0 : Sentinel), ChangesOnly [.sentinelLapse sen0] s fun t => { reported (completed s t) t with
        sec := { s.sec with authMask := t.sec.authMask }
        pins := { s.pins with
          ceaseAck := t.pins.ceaseAck, healthHigh := t.pins.healthHigh, healthReady := t.pins.healthReady }
        map := { s.map with holding := t.map.holding }
        dxl := { s.dxl with lanes := t.dxl.lanes, groups := t.dxl.groups }
        asy := { s.asy with cams := t.asy.cams }
        par := { s.par with
          state := t.par.state, partnerRole := t.par.partnerRole, gafferEpoch := t.par.gafferEpoch,
          linkRun := t.par.linkRun, mseqRx := t.par.mseqRx, rejoin := t.par.rejoin, rejoinGot := t.par.rejoinGot,
          ptSeen := t.par.ptSeen } }) ∧
    (ChangesOnly [.roleSelRise] s fun t => { reported (completed s t) t with
        pins := { s.pins with roleSel := t.pins.roleSel, ceaseAck := t.pins.ceaseAck }
        pages := { s.pages with
          list := t.pages.list, load := t.pages.load, nextAdm := t.pages.nextAdm, lastEnd := t.pages.lastEnd }
        slices := { s.slices with recs := t.slices.recs }, map := { s.map with acked := t.map.acked }
        csc := { s.csc with seamReq := t.csc.seamReq, joinSeams := t.csc.joinSeams }
        asy := { s.asy with
          due := t.asy.due, periodic := t.asy.periodic, lastPeriodic := t.asy.lastPeriodic, cams := t.asy.cams,
          cutMarks := t.asy.cutMarks }
        par := { s.par with
          state := t.par.state, epoch := t.par.epoch, lastEpoch := t.par.lastEpoch,
          refusedRaised := t.par.refusedRaised, mseqTx := t.par.mseqTx, pageMsgs := t.par.pageMsgs,
          refused := t.par.refused, pageEnds := t.par.pageEnds, unshadowed := t.par.unshadowed }
        mot := { s.mot with axes := t.mot.axes, loops := t.mot.loops }, free := t.free }) ∧
    (ChangesOnly [.roleSelFall] s fun t => { reported s t with
        pins := { s.pins with
          roleSel := t.pins.roleSel, ceaseAck := t.pins.ceaseAck, healthReady := t.pins.healthReady }
        par := { s.par with
          state := t.par.state, mustFall := t.par.mustFall, refusedRaised := t.par.refusedRaised } }) ∧
    (∀ (m0 : PMsg), ChangesOnly [.gen m0] s fun t => { reported (completed s t) t with
        pins := { s.pins with ceaseAck := t.pins.ceaseAck, healthReady := t.pins.healthReady }
        time := { s.time with
          sec := t.time.sec, nsec := t.time.nsec, frac := t.time.frac, marks := t.time.marks }
        pages := { s.pages with
          list := t.pages.list, load := t.pages.load, nextAdm := t.pages.nextAdm, lastEnd := t.pages.lastEnd }
        slices := { s.slices with
          recs := t.slices.recs, handed := t.slices.handed, shadowFrom := t.slices.shadowFrom }
        map := { s.map with
          gens := t.map.gens, pending := t.map.pending, reports := t.map.reports, joins := t.map.joins,
          arriving := t.map.arriving }
        csc := { s.csc with
          marks := t.csc.marks, refillMarks := t.csc.refillMarks, cleanRuns := t.csc.cleanRuns }
        ftb := { s.ftb with referenced := t.ftb.referenced }
        asy := { s.asy with
          due := t.asy.due, periodic := t.asy.periodic, lastPeriodic := t.asy.lastPeriodic,
          cutMarks := t.asy.cutMarks }
        par := { s.par with
          state := t.par.state, refusedRaised := t.par.refusedRaised, mseqTx := t.par.mseqTx,
          mseqRx := t.par.mseqRx, deltas := t.par.deltas, rejoin := t.par.rejoin, rejoinGot := t.par.rejoinGot,
          autoDue := t.par.autoDue, pageMsgs := t.par.pageMsgs } }) ∧
    (∀ (m0 : PMsg), ChangesOnly [.curves m0] s fun t => { reported (completed s t) t with
        pins := { s.pins with ceaseAck := t.pins.ceaseAck, healthReady := t.pins.healthReady }
        time := { s.time with
          sec := t.time.sec, nsec := t.time.nsec, frac := t.time.frac, marks := t.time.marks }
        pages := { s.pages with
          list := t.pages.list, load := t.pages.load, nextAdm := t.pages.nextAdm, lastEnd := t.pages.lastEnd }
        tables := { s.tables with
          curves := t.tables.curves, entries := t.tables.entries, curveUpds := t.tables.curveUpds,
          curveGen := t.tables.curveGen, masks := t.tables.masks, maskUpds := t.tables.maskUpds,
          poisoned := t.tables.poisoned }
        slices := { s.slices with
          recs := t.slices.recs, handed := t.slices.handed, shadowFrom := t.slices.shadowFrom }
        map := { s.map with gens := t.map.gens, pending := t.map.pending, arriving := t.map.arriving }
        csc := { s.csc with
          marks := t.csc.marks, refillMarks := t.csc.refillMarks, cleanRuns := t.csc.cleanRuns }
        ftb := { s.ftb with referenced := t.ftb.referenced }
        asy := { s.asy with
          due := t.asy.due, periodic := t.asy.periodic, lastPeriodic := t.asy.lastPeriodic,
          cutMarks := t.asy.cutMarks, variantsDue := t.asy.variantsDue }
        par := { s.par with
          state := t.par.state, refusedRaised := t.par.refusedRaised, mseqTx := t.par.mseqTx,
          mseqRx := t.par.mseqRx, deltas := t.par.deltas, rejoin := t.par.rejoin, rejoinGot := t.par.rejoinGot,
          autoDue := t.par.autoDue, pageMsgs := t.par.pageMsgs } }) ∧
    (∀ (m0 : PMsg), ChangesOnly [.page m0] s fun t => { reported (completed s t) t with
        pins := { s.pins with ceaseAck := t.pins.ceaseAck, healthReady := t.pins.healthReady }
        time := { s.time with
          sec := t.time.sec, nsec := t.time.nsec, frac := t.time.frac, marks := t.time.marks }
        pages := { s.pages with
          list := t.pages.list, load := t.pages.load, nextAdm := t.pages.nextAdm, lastEnd := t.pages.lastEnd }
        slices := { s.slices with
          recs := t.slices.recs, handed := t.slices.handed, shadowFrom := t.slices.shadowFrom }
        map := { s.map with gens := t.map.gens, pending := t.map.pending, arriving := t.map.arriving }
        csc := { s.csc with
          marks := t.csc.marks, refillMarks := t.csc.refillMarks, cleanRuns := t.csc.cleanRuns }
        ftb := { s.ftb with referenced := t.ftb.referenced }
        asy := { s.asy with
          due := t.asy.due, periodic := t.asy.periodic, lastPeriodic := t.asy.lastPeriodic,
          cutMarks := t.asy.cutMarks }
        par := { s.par with
          state := t.par.state, refusedRaised := t.par.refusedRaised, mseqTx := t.par.mseqTx,
          mseqRx := t.par.mseqRx, deltas := t.par.deltas, rejoin := t.par.rejoin, rejoinGot := t.par.rejoinGot,
          autoDue := t.par.autoDue, pageMsgs := t.par.pageMsgs, refused := t.par.refused,
          unshadowed := t.par.unshadowed } }) ∧
    (∀ (m0 : PMsg), ChangesOnly [.pageend m0] s fun t => { reported (completed s t) t with
        pins := { s.pins with ceaseAck := t.pins.ceaseAck, healthReady := t.pins.healthReady }
        time := { s.time with
          sec := t.time.sec, nsec := t.time.nsec, frac := t.time.frac, marks := t.time.marks }
        pages := { s.pages with
          list := t.pages.list, load := t.pages.load, nextAdm := t.pages.nextAdm, lastEnd := t.pages.lastEnd }
        slices := { s.slices with
          recs := t.slices.recs, handed := t.slices.handed, shadowFrom := t.slices.shadowFrom }
        map := { s.map with gens := t.map.gens, pending := t.map.pending, arriving := t.map.arriving }
        csc := { s.csc with
          marks := t.csc.marks, refillMarks := t.csc.refillMarks, cleanRuns := t.csc.cleanRuns }
        ftb := { s.ftb with referenced := t.ftb.referenced }
        asy := { s.asy with
          due := t.asy.due, periodic := t.asy.periodic, lastPeriodic := t.asy.lastPeriodic,
          cutMarks := t.asy.cutMarks }
        par := { s.par with
          state := t.par.state, refusedRaised := t.par.refusedRaised, mseqTx := t.par.mseqTx,
          mseqRx := t.par.mseqRx, deltas := t.par.deltas, rejoin := t.par.rejoin, rejoinGot := t.par.rejoinGot,
          autoDue := t.par.autoDue, pageMsgs := t.par.pageMsgs, pageEnds := t.par.pageEnds,
          unshadowed := t.par.unshadowed } }) ∧
    (∀ (m0 : PMsg) (b0 : Bool) (lis0 : List Int), ChangesOnly [.posref m0 b0 lis0] s fun t => { reported (completed s t) t with
        pins := { s.pins with ceaseAck := t.pins.ceaseAck, healthReady := t.pins.healthReady }
        time := { s.time with
          sec := t.time.sec, nsec := t.time.nsec, frac := t.time.frac, marks := t.time.marks }
        web := t.web, pages := t.pages
        tables := { s.tables with
          curves := t.tables.curves, entries := t.tables.entries, curveUpds := t.tables.curveUpds,
          masks := t.tables.masks, maskUpds := t.tables.maskUpds, poisoned := t.tables.poisoned }
        slices := { s.slices with
          recs := t.slices.recs, handed := t.slices.handed, shadowFrom := t.slices.shadowFrom }
        map := { s.map with gens := t.map.gens, pending := t.map.pending, arriving := t.map.arriving }
        csc := { s.csc with
          nf := t.csc.nf, nfBase := t.csc.nfBase, bf := t.csc.bf, marks := t.csc.marks,
          refillMarks := t.csc.refillMarks, cleanRuns := t.csc.cleanRuns, rho := t.csc.rho,
          heldRho := t.csc.heldRho, fixedTo := t.csc.fixedTo, stamped := t.csc.stamped }
        encs := t.encs
        ftb := { s.ftb with
          lamI := t.ftb.lamI, lamF := t.ftb.lamF, hwm := t.ftb.hwm, g := t.ftb.g, pmax := t.ftb.pmax,
          reversed := t.ftb.reversed, gears := t.ftb.gears, lineRef := t.ftb.lineRef, speed := t.ftb.speed,
          intervals := t.ftb.intervals, lastEdge := t.ftb.lastEdge, lastDir := t.ftb.lastDir,
          projected := t.ftb.projected, heldTicks := t.ftb.heldTicks, rate := t.ftb.rate,
          rateTarget := t.ftb.rateTarget, paceAt := t.ftb.paceAt, lam10I := t.ftb.lam10I, lam10F := t.ftb.lam10F,
          referenced := t.ftb.referenced }
        cues := t.cues
        dxl := { s.dxl with
          replay := t.dxl.replay, heldLine := t.dxl.heldLine, released := t.dxl.released,
          firstLine := t.dxl.firstLine }
        asy := { s.asy with
          due := t.asy.due, periodic := t.asy.periodic, lastPeriodic := t.asy.lastPeriodic,
          cutMarks := t.asy.cutMarks }
        par := { s.par with
          state := t.par.state, refusedRaised := t.par.refusedRaised, mseqTx := t.par.mseqTx,
          mseqRx := t.par.mseqRx, deltas := t.par.deltas, rejoin := t.par.rejoin, rejoinGot := t.par.rejoinGot,
          autoDue := t.par.autoDue, pageMsgs := t.par.pageMsgs }
        mot := { s.mot with axes := t.mot.axes } }) ∧
    (∀ (m0 : PMsg), ChangesOnly [.motion m0] s fun t => { reported (completed s t) t with
        pins := { s.pins with
          ceaseAck := t.pins.ceaseAck, healthReady := t.pins.healthReady, outs := t.pins.outs }
        time := { s.time with
          sec := t.time.sec, nsec := t.time.nsec, frac := t.time.frac, marks := t.time.marks }
        pages := { s.pages with
          list := t.pages.list, load := t.pages.load, nextAdm := t.pages.nextAdm, lastEnd := t.pages.lastEnd }
        slices := { s.slices with
          recs := t.slices.recs, handed := t.slices.handed, shadowFrom := t.slices.shadowFrom }
        map := { s.map with gens := t.map.gens, pending := t.map.pending, arriving := t.map.arriving }
        csc := { s.csc with
          marks := t.csc.marks, refillMarks := t.csc.refillMarks, cleanRuns := t.csc.cleanRuns }
        ftb := { s.ftb with referenced := t.ftb.referenced }
        asy := { s.asy with
          due := t.asy.due, periodic := t.asy.periodic, lastPeriodic := t.asy.lastPeriodic,
          cutMarks := t.asy.cutMarks }
        par := { s.par with
          state := t.par.state, refusedRaised := t.par.refusedRaised, mseqTx := t.par.mseqTx,
          mseqRx := t.par.mseqRx, deltas := t.par.deltas, rejoin := t.par.rejoin, rejoinGot := t.par.rejoinGot,
          autoDue := t.par.autoDue, pageMsgs := t.par.pageMsgs }
        mot := { s.mot with axes := t.mot.axes, loops := t.mot.loops } }) ∧
    (∀ (m0 : PMsg) (i0 : Int), ChangesOnly [.tsync m0 i0] s fun t => { reported (completed s t) t with
        pins := { s.pins with ceaseAck := t.pins.ceaseAck, healthReady := t.pins.healthReady }
        time := { s.time with
          sec := t.time.sec, nsec := t.time.nsec, frac := t.time.frac, marks := t.time.marks }
        pages := { s.pages with
          list := t.pages.list, load := t.pages.load, nextAdm := t.pages.nextAdm, lastEnd := t.pages.lastEnd }
        slices := { s.slices with
          recs := t.slices.recs, handed := t.slices.handed, shadowFrom := t.slices.shadowFrom }
        map := { s.map with gens := t.map.gens, pending := t.map.pending, arriving := t.map.arriving }
        csc := { s.csc with
          marks := t.csc.marks, refillMarks := t.csc.refillMarks, cleanRuns := t.csc.cleanRuns }
        ftb := { s.ftb with referenced := t.ftb.referenced }
        asy := { s.asy with
          due := t.asy.due, periodic := t.asy.periodic, lastPeriodic := t.asy.lastPeriodic,
          cutMarks := t.asy.cutMarks }
        par := { s.par with
          state := t.par.state, refusedRaised := t.par.refusedRaised, mseqTx := t.par.mseqTx,
          mseqRx := t.par.mseqRx, deltas := t.par.deltas, ptSent := t.par.ptSent, rejoin := t.par.rejoin,
          rejoinGot := t.par.rejoinGot, autoDue := t.par.autoDue, pageMsgs := t.par.pageMsgs } }) ∧
    (∀ (m0 : PMsg), ChangesOnly [.digest m0] s fun t => { reported (completed s t) t with
        pins := { s.pins with ceaseAck := t.pins.ceaseAck, healthReady := t.pins.healthReady }
        time := { s.time with
          sec := t.time.sec, nsec := t.time.nsec, frac := t.time.frac, marks := t.time.marks }
        pages := { s.pages with
          list := t.pages.list, load := t.pages.load, nextAdm := t.pages.nextAdm, lastEnd := t.pages.lastEnd }
        slices := { s.slices with
          recs := t.slices.recs, handed := t.slices.handed, shadowFrom := t.slices.shadowFrom }
        map := { s.map with gens := t.map.gens, pending := t.map.pending, arriving := t.map.arriving }
        csc := { s.csc with
          marks := t.csc.marks, refillMarks := t.csc.refillMarks, cleanRuns := t.csc.cleanRuns }
        ftb := { s.ftb with referenced := t.ftb.referenced }
        asy := { s.asy with
          due := t.asy.due, periodic := t.asy.periodic, lastPeriodic := t.asy.lastPeriodic,
          cutMarks := t.asy.cutMarks }
        par := { s.par with
          state := t.par.state, refusedRaised := t.par.refusedRaised, mseqTx := t.par.mseqTx,
          mseqRx := t.par.mseqRx, deltas := t.par.deltas, rejoin := t.par.rejoin, rejoinGot := t.par.rejoinGot,
          autoDue := t.par.autoDue, digestBad := t.par.digestBad, pageMsgs := t.par.pageMsgs } }) ∧
    (∀ (m0 : PMsg), ChangesOnly [.block m0] s fun t => { reported (completed s t) t with
        pins := { s.pins with ceaseAck := t.pins.ceaseAck, healthReady := t.pins.healthReady }
        time := { s.time with
          sec := t.time.sec, nsec := t.time.nsec, frac := t.time.frac, marks := t.time.marks }
        pages := { s.pages with
          list := t.pages.list, load := t.pages.load, nextAdm := t.pages.nextAdm, lastEnd := t.pages.lastEnd }
        tables := { s.tables with
          curves := t.tables.curves, entries := t.tables.entries, curveUpds := t.tables.curveUpds }
        slices := { s.slices with
          recs := t.slices.recs, handed := t.slices.handed, shadowFrom := t.slices.shadowFrom }
        map := { s.map with gens := t.map.gens, pending := t.map.pending, arriving := t.map.arriving }
        csc := { s.csc with
          marks := t.csc.marks, refillMarks := t.csc.refillMarks, cleanRuns := t.csc.cleanRuns }
        ftb := { s.ftb with referenced := t.ftb.referenced }
        asy := { s.asy with
          due := t.asy.due, periodic := t.asy.periodic, lastPeriodic := t.asy.lastPeriodic,
          cutMarks := t.asy.cutMarks, variantsDue := t.asy.variantsDue }
        par := { s.par with
          state := t.par.state, refusedRaised := t.par.refusedRaised, mseqTx := t.par.mseqTx,
          mseqRx := t.par.mseqRx, deltas := t.par.deltas, rejoin := t.par.rejoin, rejoinGot := t.par.rejoinGot,
          autoDue := t.par.autoDue, blockGot := t.par.blockGot, pageMsgs := t.par.pageMsgs } }) ∧
    (∀ (m0 : PMsg), ChangesOnly [.locks m0] s fun t => { reported (completed s t) t with
        pins := { s.pins with ceaseAck := t.pins.ceaseAck, healthReady := t.pins.healthReady }
        time := { s.time with
          sec := t.time.sec, nsec := t.time.nsec, frac := t.time.frac, marks := t.time.marks }
        pages := { s.pages with
          list := t.pages.list, load := t.pages.load, nextAdm := t.pages.nextAdm, lastEnd := t.pages.lastEnd }
        slices := { s.slices with
          recs := t.slices.recs, handed := t.slices.handed, shadowFrom := t.slices.shadowFrom }
        map := { s.map with gens := t.map.gens, pending := t.map.pending, arriving := t.map.arriving }
        csc := { s.csc with
          marks := t.csc.marks, refillMarks := t.csc.refillMarks, cleanRuns := t.csc.cleanRuns }
        ftb := { s.ftb with referenced := t.ftb.referenced }
        asy := { s.asy with
          mapLock := t.asy.mapLock, curveLock := t.asy.curveLock, censusHold := t.asy.censusHold, due := t.asy.due,
          periodic := t.asy.periodic, lastPeriodic := t.asy.lastPeriodic, lockTables := t.asy.lockTables,
          cutMarks := t.asy.cutMarks }
        par := { s.par with
          state := t.par.state, refusedRaised := t.par.refusedRaised, mseqTx := t.par.mseqTx,
          mseqRx := t.par.mseqRx, deltas := t.par.deltas, rejoin := t.par.rejoin, rejoinGot := t.par.rejoinGot,
          autoDue := t.par.autoDue, pageMsgs := t.par.pageMsgs } }) ∧
    (∀ (n0 n1 : Nat), ChangesOnly [.prho n0 n1] s fun t => { reported s t with
        pages := { s.pages with list := t.pages.list }, slices := { s.slices with recs := t.slices.recs }
        csc := { s.csc with
          marks := t.csc.marks, refillMarks := t.csc.refillMarks, cleanRuns := t.csc.cleanRuns, rho := t.csc.rho,
          stamped := t.csc.stamped } }) ∧
    (∀ (n0 n1 n2 : Nat) (v0 : Dword), ChangesOnly [.poos n0 n1 n2 v0] s fun t => { s with
        csc := { s.csc with
          marks := t.csc.marks, refillMarks := t.csc.refillMarks, cleanRuns := t.csc.cleanRuns } }) ∧
    (∀ (n0 : Nat), ChangesOnly [.ptsync n0] s fun t => { s with
        par := { s.par with mseqTx := t.par.mseqTx, ptSeen := t.par.ptSeen }, out := t.out }) ∧
    (ChangesOnly [.ptsyncSend] s fun t => { s with
        par := { s.par with ptToken := t.par.ptToken, ptSent := t.par.ptSent }, out := t.out }) ∧
    (ChangesOnly [.posrefSend] s fun t => { s with
        ftb := { s.ftb with
          lamI := t.ftb.lamI, lamF := t.ftb.lamF, speed := t.ftb.speed, rate := t.ftb.rate, paceAt := t.ftb.paceAt }
        cues := t.cues, par := { s.par with mseqTx := t.par.mseqTx }, out := t.out }) ∧
    (ChangesOnly [.motionSend] s fun t => { s with
        par := { s.par with mseqTx := t.par.mseqTx }, mot := { s.mot with told := t.mot.told }, out := t.out }) ∧
    (ChangesOnly [.locksSend] s fun t => { s with
        par := { s.par with mseqTx := t.par.mseqTx }, out := t.out }) ∧
    (∀ (n0 : Nat) (v0 : Dword), ChangesOnly [.partnerMark n0 v0] s fun t => { reported s t with
        pins := { s.pins with ceaseAck := t.pins.ceaseAck, healthReady := t.pins.healthReady }
        par := { s.par with
          state := t.par.state, epoch := t.par.epoch, partnerRole := t.par.partnerRole,
          partnerEpoch := t.par.partnerEpoch, gafferEpoch := t.par.gafferEpoch, mustFall := t.par.mustFall } }) ∧
    (ChangesOnly [.partnerDown] s fun t => { reported (completed s t) t with
        sec := { s.sec with authMask := t.sec.authMask }
        pins := { s.pins with ceaseAck := t.pins.ceaseAck, healthReady := t.pins.healthReady }
        map := { s.map with holding := t.map.holding }, ftb := { s.ftb with referenced := t.ftb.referenced }
        dxl := { s.dxl with lanes := t.dxl.lanes, groups := t.dxl.groups }
        asy := { s.asy with cams := t.asy.cams }
        par := { s.par with
          state := t.par.state, partnerRole := t.par.partnerRole, gafferEpoch := t.par.gafferEpoch,
          refusedRaised := t.par.refusedRaised, linkRun := t.par.linkRun, mseqRx := t.par.mseqRx,
          rejoin := t.par.rejoin, rejoinGot := t.par.rejoinGot, autoDue := t.par.autoDue, ptSeen := t.par.ptSeen,
          pageMsgs := t.par.pageMsgs, unshadowed := t.par.unshadowed } }) ∧
    (ChangesOnly [.partnerUp] s fun t => { reported s t with
        par := { s.par with linkRun := t.par.linkRun, mseqRx := t.par.mseqRx }
        mot := { s.mot with told := t.mot.told } }) ∧
    (∀ (rea0 : ReadTurn), ChangesOnly [.memRead rea0] s fun t => { reported (completed s t) t with
        pins := { s.pins with ceaseAck := t.pins.ceaseAck, healthReady := t.pins.healthReady }
        pages := { s.pages with list := t.pages.list }, tables := { s.tables with poisoned := t.tables.poisoned }
        slices := { s.slices with recs := t.slices.recs, handed := t.slices.handed }
        map := { s.map with poisoned := t.map.poisoned, poisonFix := t.map.poisonFix }
        csc := { s.csc with
          seamReq := t.csc.seamReq, joinSeams := t.csc.joinSeams, marks := t.csc.marks,
          refillMarks := t.csc.refillMarks, cleanRuns := t.csc.cleanRuns }
        ftb := { s.ftb with referenced := t.ftb.referenced }
        asy := { s.asy with
          cams := t.asy.cams, windows := t.asy.windows, marks := t.asy.marks, markedLines := t.asy.markedLines,
          cutMarks := t.asy.cutMarks, goodRuns := t.asy.goodRuns }
        par := { s.par with
          state := t.par.state, refusedRaised := t.par.refusedRaised, rejoin := t.par.rejoin,
          rejoinGot := t.par.rejoinGot, autoDue := t.par.autoDue }
        mem := { s.mem with
          ranks := t.mem.ranks, writes := t.mem.writes, reads := t.mem.reads, served := t.mem.served,
          places := t.mem.places, copies := t.mem.copies, poisoned := t.mem.poisoned,
          queryPoison := t.mem.queryPoison, debugged := t.mem.debugged, delivered := t.mem.delivered,
          cullets := t.mem.cullets, culletRead := t.mem.culletRead, culletSeq := t.mem.culletSeq,
          culletLost := t.mem.culletLost, fullRaised := t.mem.fullRaised, burnish := t.mem.burnish,
          ueRate := t.mem.ueRate } }) ∧
    (∀ (n0 : Nat) (lis0 : List BurstWrite), ChangesOnly [.writeDrain n0 lis0] s fun t => { s with
        mem := { s.mem with
          writes := t.mem.writes, places := t.mem.places, poisoned := t.mem.poisoned, debugged := t.mem.debugged }
        out := t.out }) ∧
    (∀ (n0 n1 : Nat) (lis0 : List MemReq), ChangesOnly [.refreshDue n0 n1 lis0] s fun t => { reported s t with
        mem := { s.mem with ranks := t.mem.ranks, reads := t.mem.reads } }) ∧
    (∀ (n0 n1 : Nat) (b0 : Bool), ChangesOnly [.dramTempRead n0 n1 b0] s fun t => { s with
        mem := { s.mem with ranks := t.mem.ranks } }) ∧
    (∀ (n0 n1 : Nat) (b0 : Bool), ChangesOnly
      [.migrationStart n0 n1, .cmdError n0 n1 b0]
      s fun t => { reported s t with
        mem := { s.mem with
          ranks := t.mem.ranks, copies := t.mem.copies, cullets := t.mem.cullets, culletRead := t.mem.culletRead,
          culletSeq := t.mem.culletSeq, culletLost := t.mem.culletLost, fullRaised := t.mem.fullRaised } }) ∧
    (∀ (n0 : Nat), ChangesOnly [.rankMigrated n0] s fun t => { reported s t with
        mem := { s.mem with
          ranks := t.mem.ranks, writes := t.mem.writes, reads := t.mem.reads, places := t.mem.places,
          copies := t.mem.copies, remap := t.mem.remap, cullets := t.mem.cullets, culletRead := t.mem.culletRead,
          culletSeq := t.mem.culletSeq, culletLost := t.mem.culletLost, fullRaised := t.mem.fullRaised } }) ∧
    (∀ (n0 : Nat), ChangesOnly [.fwReload n0] s fun t => { reported (completed s t) t with
        boot := { s.boot with state := t.boot.state, cause := t.boot.cause }
        sec := { s.sec with debug := t.sec.debug } }) ∧
    (ChangesOnly [.refTimeout] s fun t => { reported (completed s t) t with
        par := { s.par with rejoin := t.par.rejoin, rejoinGot := t.par.rejoinGot } })

/-- Frames: what the 47 commands and events of motion, loops, the control SPI, time and network leave unchanged (R320,
R323, R325, R333, R345, R346, R354, R361, R364, R365, R368, R371). -/
def Obligations.FrameMotionAndTime : Prop :=
  ∀ s : State,
    (∀ (e : Entry), ChangesOnly
      [.axisConfig e, .axisMove e, .axisStop e, .axisLimits e, .tableRun e, .axisScale e]
      s fun t => { completed s t with
        mot := { s.mot with axes := t.mot.axes } }) ∧
    (∀ (e : Entry), ChangesOnly [.axisHome e, .loopMode e] s fun t => { completed s t with
        mot := { s.mot with axes := t.mot.axes, loops := t.mot.loops } }) ∧
    (∀ (e : Entry), ChangesOnly [.tableLoad e] s fun t => { completed s t with
        mot := { s.mot with tables := t.mot.tables } }) ∧
    (∀ (e : Entry), ChangesOnly
      [.axisStatus e, .loopStatus e, .timeRead e, .ptpStatus e, .netStatus e]
      s fun t => completed s t) ∧
    (∀ (e : Entry), ChangesOnly [.cspiConfig e] s fun t => { completed s t with
        mot := { s.mot with devs := t.mot.devs } }) ∧
    (∀ (e : Entry), ChangesOnly [.loopConfig e, .loopTune e, .loopSetpoint e] s fun t => { completed s t with
        mot := { s.mot with loops := t.mot.loops } }) ∧
    (∀ (e : Entry), ChangesOnly [.netConfig e] s fun t => { completed s t with
        ports := t.ports }) ∧
    (∀ (e : Entry), ChangesOnly [.ptpConfig e] s fun t => { reported (completed s t) t with
        ptp := { s.ptp with
          role := t.ptp.role, port := t.ptp.port, udp := t.ptp.udp, extRef := t.ptp.extRef, domain := t.ptp.domain,
          prio1 := t.ptp.prio1, prio2 := t.ptp.prio2, logSync := t.ptp.logSync, logAnn := t.ptp.logAnn,
          annTmo := t.ptp.annTmo, logDreq := t.ptp.logDreq, asym := t.ptp.asym, servo := t.ptp.servo,
          inLock := t.ptp.inLock, offStep := t.ptp.offStep, parent := t.ptp.parent,
          grandmaster := t.ptp.grandmaster }
        ptpx := { s.ptpx with
          pendingSync := t.ptpx.pendingSync, delayTx := t.ptpx.delayTx, foreign := t.ptpx.foreign } }) ∧
    (∀ (e : Entry), ChangesOnly [.servoConfig e] s fun t => { completed s t with
        ptp := { s.ptp with kp := t.ptp.kp, ki := t.ptp.ki, stepThr := t.ptp.stepThr, lockThr := t.ptp.lockThr } }) ∧
    (∀ (e : Entry), ChangesOnly [.timeSet e, .timeStep e] s fun t => { completed s t with
        time := { s.time with due := t.time.due } }) ∧
    (∀ (e : Entry), ChangesOnly [.timeAdj e] s fun t => { completed s t with
        time := { s.time with adj := t.time.adj, marks := t.time.marks } }) ∧
    (∀ (n0 : Nat) (edg0 : Edge), ChangesOnly [.indexRise n0 edg0] s fun t => { reported s t with
        pwr := { s.pwr with stale := t.pwr.stale }, web := t.web
        pages := { s.pages with list := t.pages.list, lastEnd := t.pages.lastEnd, fireEnd := t.pages.fireEnd }
        tables := { s.tables with
          curves := t.tables.curves, entries := t.tables.entries, curveUpds := t.tables.curveUpds,
          masks := t.tables.masks, maskUpds := t.tables.maskUpds, poisoned := t.tables.poisoned }
        slices := { s.slices with recs := t.slices.recs, handed := t.slices.handed }
        map := { s.map with gens := t.map.gens }
        csc := { s.csc with
          nf := t.csc.nf, nfBase := t.csc.nfBase, bf := t.csc.bf, rho := t.csc.rho, heldRho := t.csc.heldRho,
          fixedTo := t.csc.fixedTo, stamped := t.csc.stamped }
        encs := t.encs
        ftb := { s.ftb with
          lamI := t.ftb.lamI, lamF := t.ftb.lamF, hwm := t.ftb.hwm, pmax := t.ftb.pmax, reversed := t.ftb.reversed,
          lineRef := t.ftb.lineRef, speed := t.ftb.speed, intervals := t.ftb.intervals, lastEdge := t.ftb.lastEdge,
          lastDir := t.ftb.lastDir, projected := t.ftb.projected, heldTicks := t.ftb.heldTicks, rate := t.ftb.rate,
          paceAt := t.ftb.paceAt, lam10I := t.ftb.lam10I, lam10F := t.ftb.lam10F }
        cues := t.cues
        dxl := { s.dxl with
          replay := t.dxl.replay, heldLine := t.dxl.heldLine, released := t.dxl.released,
          firstLine := t.dxl.firstLine }
        par := { s.par with posFlagClk := t.par.posFlagClk }, mot := { s.mot with axes := t.mot.axes } }) ∧
    (ChangesOnly [.planningStep] s fun t => { reported s t with
        pins := { s.pins with ceaseAck := t.pins.ceaseAck, outs := t.pins.outs }
        mot := { s.mot with
          axes := t.mot.axes, loops := t.mot.loops, sample := t.mot.sample, curQueue := t.mot.curQueue } }) ∧
    (∀ (bit0 : BitVec 24), ChangesOnly [.switchSample bit0] s fun t => { reported s t with
        pins := { s.pins with ceaseAck := t.pins.ceaseAck, axSwitch := t.pins.axSwitch }
        mot := { s.mot with axes := t.mot.axes, sample := t.mot.sample } }) ∧
    (∀ (n0 : Nat), ChangesOnly [.stall n0] s fun t => { reported s t with
        mot := { s.mot with axes := t.mot.axes, loops := t.mot.loops, curQueue := t.mot.curQueue } }) ∧
    (∀ (n0 : Nat), ChangesOnly [.holdCurrent n0] s fun t => { s with
        mot := { s.mot with axes := t.mot.axes, curQueue := t.mot.curQueue } }) ∧
    (∀ (lis0 : List Nat), ChangesOnly [.loopSample lis0] s fun t => { reported s t with
        mot := { s.mot with
          axes := t.mot.axes, loops := t.mot.loops, instant := t.mot.instant, adcRead := t.mot.adcRead } }) ∧
    (∀ (n0 : Nat) (v0 : Dword), ChangesOnly [.cspiTransfer n0 v0] s fun t => { s with
        mot := { s.mot with
          axes := t.mot.axes, loops := t.mot.loops, adc := t.mot.adc, adcRead := t.mot.adcRead,
          curQueue := t.mot.curQueue }
        out := t.out }) ∧
    (∀ (n0 : Nat) (bit0 : BitVec 16), ChangesOnly [.ainConversion n0 bit0] s fun t => { s with
        pwr := { s.pwr with holdMonMv := t.pwr.holdMonMv }, mot := { s.mot with ain := t.mot.ain } }) ∧
    (ChangesOnly [.timeTick] s fun t => { reported (completed s t) t with
        time := { s.time with
          sec := t.time.sec, nsec := t.time.nsec, frac := t.time.frac, clk := t.time.clk, due := t.time.due,
          marks := t.time.marks }
        ports := t.ports }) ∧
    (∀ (n0 : Nat) (ptp0 : PtpFrom) (b0 : Bool) (x0 x1 x2 : Ns16), ChangesOnly
      [.sync n0 ptp0 b0 x0 x1 x2, .followUp n0 ptp0 x0 x1]
      s fun t => { reported s t with
        time := { s.time with
          sec := t.time.sec, nsec := t.time.nsec, frac := t.time.frac, adj := t.time.adj, marks := t.time.marks }
        ptp := { s.ptp with
          servo := t.ptp.servo, integ := t.ptp.integ, inLock := t.ptp.inLock, offStep := t.ptp.offStep,
          lastOffset := t.ptp.lastOffset }
        ptpx := { s.ptpx with
          pendingSync := t.ptpx.pendingSync, syncRx := t.ptpx.syncRx, syncOrigin := t.ptpx.syncOrigin } }) ∧
    (∀ (n0 : Nat) (ptp0 : PtpFrom) (x0 x1 : Ns16) (v0 : Dword), ChangesOnly
      [.delayReq n0 ptp0 x0 x1, .arpRequest n0 v0]
      s fun t => { s with
        out := t.out }) ∧
    (∀ (n0 : Nat) (ptp0 : PtpFrom) (x0 x1 : Ns16), ChangesOnly
      [.delayResp n0 ptp0 x0 x1]
      s fun t => { s with
        ptp := { s.ptp with pathDelay := t.ptp.pathDelay }, ptpx := { s.ptpx with delayTx := t.ptpx.delayTx } }) ∧
    (∀ (n0 : Nat) (ptp0 : PtpFrom) (qua0 : Quality) (i0 : Int), ChangesOnly
      [.announce n0 ptp0 qua0 i0]
      s fun t => { reported s t with
        time := { s.time with adj := t.time.adj, marks := t.time.marks }
        ptp := { s.ptp with
          servo := t.ptp.servo, integ := t.ptp.integ, inLock := t.ptp.inLock, offStep := t.ptp.offStep,
          parent := t.ptp.parent, grandmaster := t.ptp.grandmaster, utcOffset := t.ptp.utcOffset }
        ptpx := { s.ptpx with
          pendingSync := t.ptpx.pendingSync, delayTx := t.ptpx.delayTx, foreign := t.ptpx.foreign } }) ∧
    (∀ (n0 n1 : Nat) (fra0 : Frame) (x0 x1 x2 : Ns16) (b0 : Bool), ChangesOnly
      [.frameForward n0 n1 fra0 x0 x1 x2, .netLink n0 b0]
      s fun t => { reported s t with
        ports := t.ports }) ∧
    (ChangesOnly [.syncSend] s fun t => { s with
        ptpx := { s.ptpx with seqSync := t.ptpx.seqSync }, out := t.out }) ∧
    (ChangesOnly [.announceSend] s fun t => { s with
        ptpx := { s.ptpx with seqAnnounce := t.ptpx.seqAnnounce }, out := t.out }) ∧
    (∀ (x0 : Ns16), ChangesOnly [.delayReqSend x0] s fun t => { s with
        ptpx := { s.ptpx with delayTx := t.ptpx.delayTx, seqDelay := t.ptpx.seqDelay }, out := t.out }) ∧
    (ChangesOnly [.syncTimeout] s fun t => { reported s t with
        time := { s.time with adj := t.time.adj, marks := t.time.marks }
        ptp := { s.ptp with servo := t.ptp.servo } }) ∧
    (ChangesOnly [.announceTimeout] s fun t => { reported s t with
        time := { s.time with adj := t.time.adj, marks := t.time.marks }
        ptp := { s.ptp with
          servo := t.ptp.servo, integ := t.ptp.integ, inLock := t.ptp.inLock, offStep := t.ptp.offStep,
          parent := t.ptp.parent, grandmaster := t.ptp.grandmaster }
        ptpx := { s.ptpx with
          pendingSync := t.ptpx.pendingSync, delayTx := t.ptpx.delayTx, foreign := t.ptpx.foreign } }) ∧
    (∀ (n0 : Nat), ChangesOnly [.frameDiscarded n0] s fun t => reported s t)
end

