-- ==== Sys2Proof/Machine/Coding.lean ====
section
/-! DEFINITION. The symbol coding of a lane (R181 to R187, R208): headers, the self-synchronous scrambler, bit stuffing,
training symbols, the slots of a superframe and the striping of a group stream; and the outer code of a DRAM burst (R298).
The lanes and the channels run these without a command, and words and bursts enter and leave the model decoded, so no
command calls them (log 16). -/

namespace Sys2Proof.Machine

/-- A lane transmitter's scrambler state at lane reset (R182); bit 0 is the most recent output. -/
def scramblerReset : BitVec 57 := 0x01AAAAAAAAAAAAAA

/-- What bits 34 and 56 of the scrambler's state add to a word bit (R182). -/
def scramblerTap (st : BitVec 57) : Bool := xor (st.getLsbD 34) (st.getLsbD 56)

/-- The state after line bit `o` (R182). -/
def scramblerNext (st : BitVec 57) (o : Bool) : BitVec 57 := (st <<< 1) ||| (BitVec.ofBool o).setWidth 57

/-- Scramble word bits in transmission order (R182). -/
def scramble (st : BitVec 57) : List Bool → List Bool × BitVec 57
  | [] => ([], st)
  | d :: ds =>
    let o := xor d (scramblerTap st)
    let (os, st') := scramble (scramblerNext st o) ds
    (o :: os, st')

/-- Recover the word bits from the received ones (R182). -/
def descramble (st : BitVec 57) : List Bool → List Bool × BitVec 57
  | [] => ([], st)
  | o :: os =>
    let (ds, st') := descramble (scramblerNext st o) os
    (xor o (scramblerTap st) :: ds, st')

/-- A word's bits in the order a lane sends them, bit 63 first (R181). -/
def wordBits (w : Qword) : List Bool := (List.range 64).map fun k => w.getLsbD (63 - k)

/-- A symbol's header, first bit first: 0b01 data, 0b10 control (R181). -/
def symbolHeader (control : Bool) : List Bool := [control, !control]

/-- What a received header says: `some true` control, `some false` data, `none` for the two invalid ones (R181). -/
def headerKind : Bool → Bool → Option Bool
  | false, true => some false
  | true, false => some true
  | _, _ => none

/-- A symbol's line bits before stuffing, and the scrambler's state after it (R181, R182). -/
def symbolBits (st : BitVec 57) (control : Bool) (w : Qword) : List Bool × BitVec 57 :=
  let (os, st') := scramble st (wordBits w)
  (symbolHeader control ++ os, st')

/-- The training words: TRAIN0 "not locked" and TRAIN1 "locked", sent unscrambled and unstuffed under the control header
(R208). -/
def trainingWord (locked : Bool) : Qword := if locked then 0xDDDDDDDDDDDDDDDD else 0xEEEEEEEEEEEEEEEE

/-- A training symbol's 66 line bits (R208). -/
def trainingSymbol (locked : Bool) : List Bool := symbolHeader true ++ wordBits (trainingWord locked)

/-- The run of identical line bits so far: the bit and how many (R183). -/
structure LineRun where
  bit : Bool
  count : Nat
deriving DecidableEq, Repr

/-- The run after one more line bit. -/
def runAfter (r : LineRun) (b : Bool) : LineRun :=
  if b = r.bit then { bit := b, count := r.count + 1 } else { bit := b, count := 1 }

/-- Insert a stuff bit, the complement, after the 30th identical line bit; it starts a new run of length 1 (R183). -/
def stuffBits (r : LineRun) : List Bool → List Bool × LineRun
  | [] => ([], r)
  | b :: bs =>
    let r' := runAfter r b
    if r'.count = 30 then
      let (os, r'') := stuffBits { bit := !b, count := 1 } bs
      (b :: (!b) :: os, r'')
    else
      let (os, r'') := stuffBits r' bs
      (b :: os, r'')

/-- Remove the bit that follows any 30 identical bits; `none` is a stuffing violation, the bit equal to the 30 before
it (R183). -/
def unstuffBits (r : LineRun) : List Bool → Option (List Bool)
  | [] => some []
  | b :: bs =>
    if r.count = 30 then
      if b = r.bit then none else unstuffBits { bit := b, count := 1 } bs
    else (unstuffBits (runAfter r b) bs).map (b :: ·)

/-- What a slot of the superframe holds (R184). -/
inductive SlotUse where
  | mark | fill | word
deriving DecidableEq, Repr

/-- Slot 0 holds MARK, slot 1 FILL, slots 2 to 1,023 words (R184). -/
def slotUse (s : Nat) : SlotUse := if s = 0 then .mark else if s = 1 then .fill else .word

/-- The superframe number after `sfn` (R184). -/
def nextSfn (sfn : Nat) : Nat := (sfn + 1) % 64

/-- The place in the group stream of the word in slot `s` of logical lane `l`, striped over `lanes` data lanes: 3 for a
module and the partner link, 2 for a camera pair (R186). -/
def groupWordAt (lanes s l : Nat) : Nat := lanes * (s - 2) + l

/-- Slot and logical lane of a word of the group stream (R186). -/
def slotOfWord (lanes k : Nat) : Nat × Nat := (k / lanes + 2, k % lanes)

/-- The slots a superframe keeps free of data words on each lane (R184): 40, or 6 while a group recovers a lane. -/
def reservedSlots (recovering : Bool) : Nat := if recovering then 6 else 40

/-! The outer code of a DRAM burst: RS(80,64) over GF(2⁸) (R298). -/

/-- Multiply by x modulo the field polynomial 0x11D. -/
def gfDouble (a : BitVec 8) : BitVec 8 := if a.getLsbD 7 then (a <<< 1) ^^^ 0x1D else a <<< 1

/-- Multiplication in GF(2⁸), bit by bit from the top bit of `b`. -/
def gfMul (a b : BitVec 8) : BitVec 8 :=
  (List.range 8).foldl (fun acc k => let d := gfDouble acc; if b.getLsbD (7 - k) then d ^^^ a else d) 0

/-- α to the `i`-th power, α being x. -/
def gfAlpha : Nat → BitVec 8
  | 0 => 1
  | i + 1 => gfDouble (gfAlpha i)

/-- The value of a word at `x`, its first byte the highest power. -/
def gfEval (x : BitVec 8) (bytes : List (BitVec 8)) : BitVec 8 := bytes.foldl (fun acc b => gfMul acc x ^^^ b) 0

/-- The 16 syndromes: the word's values at the generator's roots α⁰ to α¹⁵. -/
def rsSyndromes (bytes : List (BitVec 8)) : List (BitVec 8) := (List.range 16).map fun i => gfEval (gfAlpha i) bytes

/-- A burst of 64 bytes with its 16 check bytes is sound: 80 bytes with every syndrome 0. -/
def rsSound (bytes : List (BitVec 8)) : Bool := bytes.length == 80 && (rsSyndromes bytes).all (· == 0)

end Sys2Proof.Machine
end

