-- ==== Sys2Proof/Laws/Coding.lean ====
section
/-! SUPPORT. The symbol coding of a lane is undone by its receiver. -/

namespace Sys2Proof.Laws

open Sys2Proof Sys2Proof.Machine

/-- A receiver in step recovers the word bits and stays in step (R182). -/
theorem descramble_scramble (st : BitVec 57) (ds : List Bool) :
    descramble st (scramble st ds).1 = (ds, (scramble st ds).2) := by
  induction ds generalizing st with
  | nil => rfl
  | cons d ds ih => simp [scramble, descramble, ih]

/-- A receiver gets back what was stuffed, given a run below 30 (R183). -/
theorem unstuff_stuff (r : LineRun) (h : r.count < 30) (bs : List Bool) :
    unstuffBits r (stuffBits r bs).1 = some bs := by
  induction bs generalizing r with
  | nil => rfl
  | cons b bs ih =>
    have hr : (runAfter r b).count ≤ 30 := by unfold runAfter; split <;> simp <;> omega
    have hb : (runAfter r b).bit = b := by unfold runAfter; split <;> rfl
    by_cases h30 : (runAfter r b).count = 30
    · simp [stuffBits, unstuffBits, h30, hb, Nat.ne_of_lt h, ih { bit := !b, count := 1 } (by simp)]
    · simpa [stuffBits, unstuffBits, h30, Nat.ne_of_lt h] using ih (runAfter r b) (by omega)

/-- The slot of a word of the group stream is the one that carries it (R186). -/
theorem groupWordAt_slotOfWord (lanes k : Nat) :
    groupWordAt lanes (slotOfWord lanes k).1 (slotOfWord lanes k).2 = k := by
  simp [groupWordAt, slotOfWord, Nat.div_add_mod]

end Sys2Proof.Laws
end

