-- ==== Sys2Proof/Laws/Commands.lean ====
section
/-! SUPPORT. Laws of a command's turn: what a command does at its commit point, and what completing it leaves alone. -/

set_option Elab.async false

namespace Sys2Proof.Machine

/-- The record at the commit point is that of the entry, in flight and not yet committed. -/
theorem commitRecord_some {s : State} {e : Entry} {r : InFlight} (h : commitRecord s e = some r) :
    r.entry = e ∧ r.committed = false ∧ r ∈ s.mbx.inFlight ∧ s.sec.halted = false := by
  unfold commitRecord at h
  dsimp only at h
  split at h
  · cases h
  · rename_i hh
    split at h
    · cases h
    · rename_i r' hf
      split at h
      · cases h
        have hp := List.find?_some hf
        simp only [Bool.and_eq_true, beq_iff_eq, Bool.not_eq_true'] at hp
        exact ⟨hp.1, hp.2, List.mem_of_find?_eq_some hf, by simpa using hh⟩
      · cases h

/-- At its turn, a command does what its row's body replies. -/
theorem command_turn {op : Nat} {e : Entry} {s : State} {r : InFlight} (h : Turn op e s r)
    (body : InFlight → State → Reply) : command [op] e body s = settle s r (body r s) := by
  obtain ⟨h1, h2, h3⟩ := h
  simp [command, h1, h2, h3]

/-- A command that fails a common check completes with that status, nothing changed. -/
theorem command_common {op st : Nat} {e : Entry} {s : State} {r : InFlight} (h1 : opcodeOf e = op)
    (h2 : commitRecord s e = some r) (h3 : commonCheck s r = some st) (body : InFlight → State → Reply) :
    command [op] e body s = finish s r st [] := by
  simp [command, h1, h2, h3]

/-- A command not at its commit point changes nothing. -/
theorem command_held {ops : List Nat} {e : Entry} {s : State} (h : commitRecord s e = none)
    (body : InFlight → State → Reply) : command ops e body s = s := by
  unfold command; split <;> simp [h]

@[simp] theorem settle_okWith (s u : State) (r : InFlight) (res : List Dword) :
    settle s r (okWith u res) = finish u r stOk res := rfl

@[simp] theorem settle_done (s u : State) (r : InFlight) (st : Nat) (res : List Dword) :
    settle s r (.done u st res) = finish u r st res := rfl

@[simp] theorem settle_reject (s u : State) (r : InFlight) (st : Nat) :
    settle s r (reject u st) = finish u r st [] := rfl

@[simp] theorem settle_runs (s u : State) (r : InFlight) (n : List Nat) :
    settle s r (.runs u n) = commitRunning u r n := rfl

@[simp] theorem settle_waits (s : State) (r : InFlight) : settle s r .waits = markWaiting s r := rfl

/-- When no check fails, the command goes on. -/
theorem checked_pass {s : State} {cs : List (Bool × Nat)} (h : cs.all (fun c => !c.1) = true) (body : State → Reply) :
    checked s cs body = body s := by
  have : firstFail cs = none := by
    induction cs with
    | nil => rfl
    | cons c cs ih =>
      simp only [List.all_cons, Bool.and_eq_true, Bool.not_eq_true'] at h
      simp [firstFail, h.1, ih h.2]
  simp [checked, this]

@[simp] theorem firstFail_nil : firstFail [] = none := rfl

@[simp] theorem firstFail_cons (b : Bool) (st : Nat) (cs : List (Bool × Nat)) :
    firstFail ((b, st) :: cs) = if b then some st else firstFail cs := rfl

/-- A record whose bytes read well goes to the body. -/
theorem withRecord_ok {s : State} {a n : Nat} (h : hostReadEnd s a (4 * n) = .ok) (body : List Dword → Reply) :
    withRecord s a n body = body (hostDws s a n) := by
  simp [withRecord, h]

end Sys2Proof.Machine
end

