-- ==== Sys2Proof/Laws/Frames.lean ====
section
/-! SUPPORT. Frame laws of the shared operations: what sending, counting, logging, triggering, writing host memory and
completing a command leave alone. One law per operation, so that no later proof unfolds it. -/

set_option Elab.async false

namespace Sys2Proof.Machine

/-- What leaves the chip changes nothing else. -/
@[simp] theorem emit_frame (s : State) (x : Sent) :
    (emit s x).pending = s.pending ∧ (emit s x).boot = s.boot ∧ (emit s x).mbx = s.mbx ∧
    (emit s x).host = s.host ∧ (emit s x).obs = s.obs ∧ (emit s x).quench = s.quench ∧ (emit s x).sec = s.sec ∧
    (emit s x).pwr = s.pwr ∧ (emit s x).anneal = s.anneal ∧ (emit s x).pins = s.pins ∧
    (emit s x).cease = s.cease ∧ (emit s x).time = s.time ∧ (emit s x).ports = s.ports ∧
    (emit s x).ptp = s.ptp ∧ (emit s x).ptpx = s.ptpx ∧ (emit s x).job = s.job ∧ (emit s x).web = s.web ∧
    (emit s x).pages = s.pages ∧ (emit s x).tables = s.tables ∧ (emit s x).slices = s.slices ∧
    (emit s x).map = s.map ∧ (emit s x).csc = s.csc ∧ (emit s x).encs = s.encs ∧ (emit s x).webCfg = s.webCfg ∧
    (emit s x).ftb = s.ftb ∧ (emit s x).cues = s.cues ∧ (emit s x).pulses = s.pulses ∧ (emit s x).dxl = s.dxl ∧
    (emit s x).asy = s.asy ∧ (emit s x).par = s.par ∧ (emit s x).mem = s.mem ∧ (emit s x).mot = s.mot ∧
    (emit s x).free = s.free := by
  simp [emit]

/-- What leaves the chip changes nothing else. -/
@[simp] theorem emitAll_frame (s : State) (xs : List Sent) :
    (emitAll s xs).pending = s.pending ∧ (emitAll s xs).boot = s.boot ∧ (emitAll s xs).mbx = s.mbx ∧
    (emitAll s xs).host = s.host ∧ (emitAll s xs).obs = s.obs ∧ (emitAll s xs).quench = s.quench ∧
    (emitAll s xs).sec = s.sec ∧ (emitAll s xs).pwr = s.pwr ∧ (emitAll s xs).anneal = s.anneal ∧
    (emitAll s xs).pins = s.pins ∧ (emitAll s xs).cease = s.cease ∧ (emitAll s xs).time = s.time ∧
    (emitAll s xs).ports = s.ports ∧ (emitAll s xs).ptp = s.ptp ∧ (emitAll s xs).ptpx = s.ptpx ∧
    (emitAll s xs).job = s.job ∧ (emitAll s xs).web = s.web ∧ (emitAll s xs).pages = s.pages ∧
    (emitAll s xs).tables = s.tables ∧ (emitAll s xs).slices = s.slices ∧ (emitAll s xs).map = s.map ∧
    (emitAll s xs).csc = s.csc ∧ (emitAll s xs).encs = s.encs ∧ (emitAll s xs).webCfg = s.webCfg ∧
    (emitAll s xs).ftb = s.ftb ∧ (emitAll s xs).cues = s.cues ∧ (emitAll s xs).pulses = s.pulses ∧
    (emitAll s xs).dxl = s.dxl ∧ (emitAll s xs).asy = s.asy ∧ (emitAll s xs).par = s.par ∧
    (emitAll s xs).mem = s.mem ∧ (emitAll s xs).mot = s.mot ∧ (emitAll s xs).free = s.free := by
  simp [emitAll]

/-- Sending a vector changes the pending bits and what has left the chip. -/
@[simp] theorem sendVector_frame (s : State) (v : Nat) :
    (sendVector s v).pending = s.pending ∧ (sendVector s v).boot = s.boot ∧ (sendVector s v).host = s.host ∧
    (sendVector s v).obs = s.obs ∧ (sendVector s v).quench = s.quench ∧ (sendVector s v).sec = s.sec ∧
    (sendVector s v).pwr = s.pwr ∧ (sendVector s v).anneal = s.anneal ∧ (sendVector s v).pins = s.pins ∧
    (sendVector s v).cease = s.cease ∧ (sendVector s v).time = s.time ∧ (sendVector s v).ports = s.ports ∧
    (sendVector s v).ptp = s.ptp ∧ (sendVector s v).ptpx = s.ptpx ∧ (sendVector s v).job = s.job ∧
    (sendVector s v).web = s.web ∧ (sendVector s v).pages = s.pages ∧ (sendVector s v).tables = s.tables ∧
    (sendVector s v).slices = s.slices ∧ (sendVector s v).map = s.map ∧ (sendVector s v).csc = s.csc ∧
    (sendVector s v).encs = s.encs ∧ (sendVector s v).webCfg = s.webCfg ∧ (sendVector s v).ftb = s.ftb ∧
    (sendVector s v).cues = s.cues ∧ (sendVector s v).pulses = s.pulses ∧ (sendVector s v).dxl = s.dxl ∧
    (sendVector s v).asy = s.asy ∧ (sendVector s v).par = s.par ∧ (sendVector s v).mem = s.mem ∧
    (sendVector s v).mot = s.mot ∧ (sendVector s v).free = s.free ∧ (sendVector s v).mbx.enable = s.mbx.enable ∧
    (sendVector s v).mbx.sqTail = s.mbx.sqTail ∧ (sendVector s v).mbx.sqHead = s.mbx.sqHead ∧
    (sendVector s v).mbx.cqHead = s.mbx.cqHead ∧ (sendVector s v).mbx.cqBase = s.mbx.cqBase ∧
    (sendVector s v).mbx.cqIndex = s.mbx.cqIndex ∧ (sendVector s v).mbx.cqUnread = s.mbx.cqUnread ∧
    (sendVector s v).mbx.phase = s.mbx.phase ∧ (sendVector s v).mbx.ring = s.mbx.ring ∧
    (sendVector s v).mbx.inFlight = s.mbx.inFlight ∧ (sendVector s v).mbx.scratch = s.mbx.scratch ∧
    (sendVector s v).mbx.msix = s.mbx.msix ∧ (sendVector s v).mbx.pcieWidth = s.mbx.pcieWidth ∧
    (sendVector s v).mbx.pcieMts = s.mbx.pcieMts ∧ (sendVector s v).mbx.maxPayload = s.mbx.maxPayload ∧
    (sendVector s v).mbx.maxRead = s.mbx.maxRead := by
  unfold sendVector; split; · simp
  split <;> simp

/-- Counting changes the counters alone. -/
@[simp] theorem bump_frame (s : State) (k n : Nat) :
    ((bump s k n).1).pending = s.pending ∧ ((bump s k n).1).boot = s.boot ∧ ((bump s k n).1).mbx = s.mbx ∧
    ((bump s k n).1).host = s.host ∧ ((bump s k n).1).quench = s.quench ∧ ((bump s k n).1).sec = s.sec ∧
    ((bump s k n).1).pwr = s.pwr ∧ ((bump s k n).1).anneal = s.anneal ∧ ((bump s k n).1).pins = s.pins ∧
    ((bump s k n).1).cease = s.cease ∧ ((bump s k n).1).time = s.time ∧ ((bump s k n).1).ports = s.ports ∧
    ((bump s k n).1).ptp = s.ptp ∧ ((bump s k n).1).ptpx = s.ptpx ∧ ((bump s k n).1).job = s.job ∧
    ((bump s k n).1).web = s.web ∧ ((bump s k n).1).pages = s.pages ∧ ((bump s k n).1).tables = s.tables ∧
    ((bump s k n).1).slices = s.slices ∧ ((bump s k n).1).map = s.map ∧ ((bump s k n).1).csc = s.csc ∧
    ((bump s k n).1).encs = s.encs ∧ ((bump s k n).1).webCfg = s.webCfg ∧ ((bump s k n).1).ftb = s.ftb ∧
    ((bump s k n).1).cues = s.cues ∧ ((bump s k n).1).pulses = s.pulses ∧ ((bump s k n).1).dxl = s.dxl ∧
    ((bump s k n).1).asy = s.asy ∧ ((bump s k n).1).par = s.par ∧ ((bump s k n).1).mem = s.mem ∧
    ((bump s k n).1).mot = s.mot ∧ ((bump s k n).1).out = s.out ∧ ((bump s k n).1).free = s.free ∧
    (bump s k n).1.obs.log = s.obs.log ∧ (bump s k n).1.obs.logOff = s.obs.logOff := by
  simp [bump]

/-- A lost entry changes the log alone. -/
@[simp] theorem loseEntry_frame (s : State)  :
    (loseEntry s).pending = s.pending ∧ (loseEntry s).boot = s.boot ∧ (loseEntry s).mbx = s.mbx ∧
    (loseEntry s).host = s.host ∧ (loseEntry s).quench = s.quench ∧ (loseEntry s).sec = s.sec ∧
    (loseEntry s).pwr = s.pwr ∧ (loseEntry s).anneal = s.anneal ∧ (loseEntry s).pins = s.pins ∧
    (loseEntry s).cease = s.cease ∧ (loseEntry s).time = s.time ∧ (loseEntry s).ports = s.ports ∧
    (loseEntry s).ptp = s.ptp ∧ (loseEntry s).ptpx = s.ptpx ∧ (loseEntry s).job = s.job ∧
    (loseEntry s).web = s.web ∧ (loseEntry s).pages = s.pages ∧ (loseEntry s).tables = s.tables ∧
    (loseEntry s).slices = s.slices ∧ (loseEntry s).map = s.map ∧ (loseEntry s).csc = s.csc ∧
    (loseEntry s).encs = s.encs ∧ (loseEntry s).webCfg = s.webCfg ∧ (loseEntry s).ftb = s.ftb ∧
    (loseEntry s).cues = s.cues ∧ (loseEntry s).pulses = s.pulses ∧ (loseEntry s).dxl = s.dxl ∧
    (loseEntry s).asy = s.asy ∧ (loseEntry s).par = s.par ∧ (loseEntry s).mem = s.mem ∧
    (loseEntry s).mot = s.mot ∧ (loseEntry s).out = s.out ∧ (loseEntry s).free = s.free ∧
    (loseEntry s).obs.logOff = s.obs.logOff := by
  simp [loseEntry]

/-- An entry changes the log alone. -/
@[simp] theorem putEntry_frame (s : State) (code : Nat) (cont : Bool) (pay : List Dword) :
    (putEntry s code cont pay).pending = s.pending ∧ (putEntry s code cont pay).boot = s.boot ∧
    (putEntry s code cont pay).mbx = s.mbx ∧ (putEntry s code cont pay).host = s.host ∧
    (putEntry s code cont pay).quench = s.quench ∧ (putEntry s code cont pay).sec = s.sec ∧
    (putEntry s code cont pay).pwr = s.pwr ∧ (putEntry s code cont pay).anneal = s.anneal ∧
    (putEntry s code cont pay).pins = s.pins ∧ (putEntry s code cont pay).cease = s.cease ∧
    (putEntry s code cont pay).time = s.time ∧ (putEntry s code cont pay).ports = s.ports ∧
    (putEntry s code cont pay).ptp = s.ptp ∧ (putEntry s code cont pay).ptpx = s.ptpx ∧
    (putEntry s code cont pay).job = s.job ∧ (putEntry s code cont pay).web = s.web ∧
    (putEntry s code cont pay).pages = s.pages ∧ (putEntry s code cont pay).tables = s.tables ∧
    (putEntry s code cont pay).slices = s.slices ∧ (putEntry s code cont pay).map = s.map ∧
    (putEntry s code cont pay).csc = s.csc ∧ (putEntry s code cont pay).encs = s.encs ∧
    (putEntry s code cont pay).webCfg = s.webCfg ∧ (putEntry s code cont pay).ftb = s.ftb ∧
    (putEntry s code cont pay).cues = s.cues ∧ (putEntry s code cont pay).pulses = s.pulses ∧
    (putEntry s code cont pay).dxl = s.dxl ∧ (putEntry s code cont pay).asy = s.asy ∧
    (putEntry s code cont pay).par = s.par ∧ (putEntry s code cont pay).mem = s.mem ∧
    (putEntry s code cont pay).mot = s.mot ∧ (putEntry s code cont pay).out = s.out ∧
    (putEntry s code cont pay).free = s.free ∧ (putEntry s code cont pay).obs.logOff = s.obs.logOff := by
  unfold putEntry storeEntry
  dsimp only
  split <;> simp

/-- The rest of a list item changes the log alone. -/
@[simp] theorem putRest_frame (s : State) (code fuel : Nat) (pay : List Dword) :
    (putRest s code fuel pay).pending = s.pending ∧ (putRest s code fuel pay).boot = s.boot ∧
    (putRest s code fuel pay).mbx = s.mbx ∧ (putRest s code fuel pay).host = s.host ∧
    (putRest s code fuel pay).quench = s.quench ∧ (putRest s code fuel pay).sec = s.sec ∧
    (putRest s code fuel pay).pwr = s.pwr ∧ (putRest s code fuel pay).anneal = s.anneal ∧
    (putRest s code fuel pay).pins = s.pins ∧ (putRest s code fuel pay).cease = s.cease ∧
    (putRest s code fuel pay).time = s.time ∧ (putRest s code fuel pay).ports = s.ports ∧
    (putRest s code fuel pay).ptp = s.ptp ∧ (putRest s code fuel pay).ptpx = s.ptpx ∧
    (putRest s code fuel pay).job = s.job ∧ (putRest s code fuel pay).web = s.web ∧
    (putRest s code fuel pay).pages = s.pages ∧ (putRest s code fuel pay).tables = s.tables ∧
    (putRest s code fuel pay).slices = s.slices ∧ (putRest s code fuel pay).map = s.map ∧
    (putRest s code fuel pay).csc = s.csc ∧ (putRest s code fuel pay).encs = s.encs ∧
    (putRest s code fuel pay).webCfg = s.webCfg ∧ (putRest s code fuel pay).ftb = s.ftb ∧
    (putRest s code fuel pay).cues = s.cues ∧ (putRest s code fuel pay).pulses = s.pulses ∧
    (putRest s code fuel pay).dxl = s.dxl ∧ (putRest s code fuel pay).asy = s.asy ∧
    (putRest s code fuel pay).par = s.par ∧ (putRest s code fuel pay).mem = s.mem ∧
    (putRest s code fuel pay).mot = s.mot ∧ (putRest s code fuel pay).out = s.out ∧
    (putRest s code fuel pay).free = s.free ∧ (putRest s code fuel pay).obs.logOff = s.obs.logOff := by
  induction fuel generalizing s pay with
  | zero => simp [putRest]
  | succ n ih => cases pay <;> simp [putRest, ih]

/-- Vector 30 changes the log, the pending bits and what has left the chip. -/
@[simp] theorem signalLog_frame (s : State)  :
    (signalLog s).pending = s.pending ∧ (signalLog s).boot = s.boot ∧ (signalLog s).host = s.host ∧
    (signalLog s).quench = s.quench ∧ (signalLog s).sec = s.sec ∧ (signalLog s).pwr = s.pwr ∧
    (signalLog s).anneal = s.anneal ∧ (signalLog s).pins = s.pins ∧ (signalLog s).cease = s.cease ∧
    (signalLog s).time = s.time ∧ (signalLog s).ports = s.ports ∧ (signalLog s).ptp = s.ptp ∧
    (signalLog s).ptpx = s.ptpx ∧ (signalLog s).job = s.job ∧ (signalLog s).web = s.web ∧
    (signalLog s).pages = s.pages ∧ (signalLog s).tables = s.tables ∧ (signalLog s).slices = s.slices ∧
    (signalLog s).map = s.map ∧ (signalLog s).csc = s.csc ∧ (signalLog s).encs = s.encs ∧
    (signalLog s).webCfg = s.webCfg ∧ (signalLog s).ftb = s.ftb ∧ (signalLog s).cues = s.cues ∧
    (signalLog s).pulses = s.pulses ∧ (signalLog s).dxl = s.dxl ∧ (signalLog s).asy = s.asy ∧
    (signalLog s).par = s.par ∧ (signalLog s).mem = s.mem ∧ (signalLog s).mot = s.mot ∧
    (signalLog s).free = s.free ∧ (signalLog s).mbx.enable = s.mbx.enable ∧
    (signalLog s).mbx.sqTail = s.mbx.sqTail ∧ (signalLog s).mbx.sqHead = s.mbx.sqHead ∧
    (signalLog s).mbx.cqHead = s.mbx.cqHead ∧ (signalLog s).mbx.cqBase = s.mbx.cqBase ∧
    (signalLog s).mbx.cqIndex = s.mbx.cqIndex ∧ (signalLog s).mbx.cqUnread = s.mbx.cqUnread ∧
    (signalLog s).mbx.phase = s.mbx.phase ∧ (signalLog s).mbx.ring = s.mbx.ring ∧
    (signalLog s).mbx.inFlight = s.mbx.inFlight ∧ (signalLog s).mbx.scratch = s.mbx.scratch ∧
    (signalLog s).mbx.msix = s.mbx.msix ∧ (signalLog s).mbx.pcieWidth = s.mbx.pcieWidth ∧
    (signalLog s).mbx.pcieMts = s.mbx.pcieMts ∧ (signalLog s).mbx.maxPayload = s.mbx.maxPayload ∧
    (signalLog s).mbx.maxRead = s.mbx.maxRead ∧ (signalLog s).obs.logOff = s.obs.logOff := by
  unfold signalLog; split <;> simp

/-- One entry changes the log, the pending bits and what has left the chip. -/
@[simp] theorem logOnly_frame (s : State) (code : Nat) (pay : List Dword) :
    (logOnly s code pay).pending = s.pending ∧ (logOnly s code pay).boot = s.boot ∧
    (logOnly s code pay).host = s.host ∧ (logOnly s code pay).quench = s.quench ∧
    (logOnly s code pay).sec = s.sec ∧ (logOnly s code pay).pwr = s.pwr ∧
    (logOnly s code pay).anneal = s.anneal ∧ (logOnly s code pay).pins = s.pins ∧
    (logOnly s code pay).cease = s.cease ∧ (logOnly s code pay).time = s.time ∧
    (logOnly s code pay).ports = s.ports ∧ (logOnly s code pay).ptp = s.ptp ∧
    (logOnly s code pay).ptpx = s.ptpx ∧ (logOnly s code pay).job = s.job ∧
    (logOnly s code pay).web = s.web ∧ (logOnly s code pay).pages = s.pages ∧
    (logOnly s code pay).tables = s.tables ∧ (logOnly s code pay).slices = s.slices ∧
    (logOnly s code pay).map = s.map ∧ (logOnly s code pay).csc = s.csc ∧
    (logOnly s code pay).encs = s.encs ∧ (logOnly s code pay).webCfg = s.webCfg ∧
    (logOnly s code pay).ftb = s.ftb ∧ (logOnly s code pay).cues = s.cues ∧
    (logOnly s code pay).pulses = s.pulses ∧ (logOnly s code pay).dxl = s.dxl ∧
    (logOnly s code pay).asy = s.asy ∧ (logOnly s code pay).par = s.par ∧ (logOnly s code pay).mem = s.mem ∧
    (logOnly s code pay).mot = s.mot ∧ (logOnly s code pay).free = s.free ∧
    (logOnly s code pay).mbx.enable = s.mbx.enable ∧ (logOnly s code pay).mbx.sqTail = s.mbx.sqTail ∧
    (logOnly s code pay).mbx.sqHead = s.mbx.sqHead ∧ (logOnly s code pay).mbx.cqHead = s.mbx.cqHead ∧
    (logOnly s code pay).mbx.cqBase = s.mbx.cqBase ∧ (logOnly s code pay).mbx.cqIndex = s.mbx.cqIndex ∧
    (logOnly s code pay).mbx.cqUnread = s.mbx.cqUnread ∧ (logOnly s code pay).mbx.phase = s.mbx.phase ∧
    (logOnly s code pay).mbx.ring = s.mbx.ring ∧ (logOnly s code pay).mbx.inFlight = s.mbx.inFlight ∧
    (logOnly s code pay).mbx.scratch = s.mbx.scratch ∧ (logOnly s code pay).mbx.msix = s.mbx.msix ∧
    (logOnly s code pay).mbx.pcieWidth = s.mbx.pcieWidth ∧ (logOnly s code pay).mbx.pcieMts = s.mbx.pcieMts ∧ (logOnly s code pay).mbx.maxPayload = s.mbx.maxPayload ∧
    (logOnly s code pay).mbx.maxRead = s.mbx.maxRead ∧
    (logOnly s code pay).obs.logOff = s.obs.logOff := by
  unfold logOnly; split; · simp
  dsimp only; split <;> simp

/-- Logging changes the log, the pending bits and what has left the chip. -/
@[simp] theorem logEvent_frame (s : State) (code : Nat) (pay : List Dword) :
    (logEvent s code pay).pending = s.pending ∧ (logEvent s code pay).boot = s.boot ∧
    (logEvent s code pay).host = s.host ∧ (logEvent s code pay).quench = s.quench ∧
    (logEvent s code pay).sec = s.sec ∧ (logEvent s code pay).pwr = s.pwr ∧
    (logEvent s code pay).anneal = s.anneal ∧ (logEvent s code pay).pins = s.pins ∧
    (logEvent s code pay).cease = s.cease ∧ (logEvent s code pay).time = s.time ∧
    (logEvent s code pay).ports = s.ports ∧ (logEvent s code pay).ptp = s.ptp ∧
    (logEvent s code pay).ptpx = s.ptpx ∧ (logEvent s code pay).job = s.job ∧
    (logEvent s code pay).web = s.web ∧ (logEvent s code pay).pages = s.pages ∧
    (logEvent s code pay).tables = s.tables ∧ (logEvent s code pay).slices = s.slices ∧
    (logEvent s code pay).map = s.map ∧ (logEvent s code pay).csc = s.csc ∧
    (logEvent s code pay).encs = s.encs ∧ (logEvent s code pay).webCfg = s.webCfg ∧
    (logEvent s code pay).ftb = s.ftb ∧ (logEvent s code pay).cues = s.cues ∧
    (logEvent s code pay).pulses = s.pulses ∧ (logEvent s code pay).dxl = s.dxl ∧
    (logEvent s code pay).asy = s.asy ∧ (logEvent s code pay).par = s.par ∧ (logEvent s code pay).mem = s.mem ∧
    (logEvent s code pay).mot = s.mot ∧ (logEvent s code pay).free = s.free ∧
    (logEvent s code pay).mbx.enable = s.mbx.enable ∧ (logEvent s code pay).mbx.sqTail = s.mbx.sqTail ∧
    (logEvent s code pay).mbx.sqHead = s.mbx.sqHead ∧ (logEvent s code pay).mbx.cqHead = s.mbx.cqHead ∧
    (logEvent s code pay).mbx.cqBase = s.mbx.cqBase ∧ (logEvent s code pay).mbx.cqIndex = s.mbx.cqIndex ∧
    (logEvent s code pay).mbx.cqUnread = s.mbx.cqUnread ∧ (logEvent s code pay).mbx.phase = s.mbx.phase ∧
    (logEvent s code pay).mbx.ring = s.mbx.ring ∧ (logEvent s code pay).mbx.inFlight = s.mbx.inFlight ∧
    (logEvent s code pay).mbx.scratch = s.mbx.scratch ∧ (logEvent s code pay).mbx.msix = s.mbx.msix ∧
    (logEvent s code pay).mbx.pcieWidth = s.mbx.pcieWidth ∧ (logEvent s code pay).mbx.pcieMts = s.mbx.pcieMts ∧ (logEvent s code pay).mbx.maxPayload = s.mbx.maxPayload ∧
    (logEvent s code pay).mbx.maxRead = s.mbx.maxRead ∧
    (logEvent s code pay).obs.logOff = s.obs.logOff := by
  unfold logEvent; dsimp only; split <;> simp

/-- A count of the quench block itself. -/
@[simp] theorem countLog_frame (s : State) (k : Nat) :
    (countLog s k).pending = s.pending ∧ (countLog s k).boot = s.boot ∧ (countLog s k).host = s.host ∧
    (countLog s k).quench = s.quench ∧ (countLog s k).sec = s.sec ∧ (countLog s k).pwr = s.pwr ∧
    (countLog s k).anneal = s.anneal ∧ (countLog s k).pins = s.pins ∧ (countLog s k).cease = s.cease ∧
    (countLog s k).time = s.time ∧ (countLog s k).ports = s.ports ∧ (countLog s k).ptp = s.ptp ∧
    (countLog s k).ptpx = s.ptpx ∧ (countLog s k).job = s.job ∧ (countLog s k).web = s.web ∧
    (countLog s k).pages = s.pages ∧ (countLog s k).tables = s.tables ∧ (countLog s k).slices = s.slices ∧
    (countLog s k).map = s.map ∧ (countLog s k).csc = s.csc ∧ (countLog s k).encs = s.encs ∧
    (countLog s k).webCfg = s.webCfg ∧ (countLog s k).ftb = s.ftb ∧ (countLog s k).cues = s.cues ∧
    (countLog s k).pulses = s.pulses ∧ (countLog s k).dxl = s.dxl ∧ (countLog s k).asy = s.asy ∧
    (countLog s k).par = s.par ∧ (countLog s k).mem = s.mem ∧ (countLog s k).mot = s.mot ∧
    (countLog s k).free = s.free ∧ (countLog s k).mbx.enable = s.mbx.enable ∧
    (countLog s k).mbx.sqTail = s.mbx.sqTail ∧ (countLog s k).mbx.sqHead = s.mbx.sqHead ∧
    (countLog s k).mbx.cqHead = s.mbx.cqHead ∧ (countLog s k).mbx.cqBase = s.mbx.cqBase ∧
    (countLog s k).mbx.cqIndex = s.mbx.cqIndex ∧ (countLog s k).mbx.cqUnread = s.mbx.cqUnread ∧
    (countLog s k).mbx.phase = s.mbx.phase ∧ (countLog s k).mbx.ring = s.mbx.ring ∧
    (countLog s k).mbx.inFlight = s.mbx.inFlight ∧ (countLog s k).mbx.scratch = s.mbx.scratch ∧
    (countLog s k).mbx.msix = s.mbx.msix ∧ (countLog s k).mbx.pcieWidth = s.mbx.pcieWidth ∧
    (countLog s k).mbx.pcieMts = s.mbx.pcieMts ∧ (countLog s k).mbx.maxPayload = s.mbx.maxPayload ∧
    (countLog s k).mbx.maxRead = s.mbx.maxRead ∧ (countLog s k).obs.logOff = s.obs.logOff := by
  unfold countLog; dsimp only; split <;> simp

/-- A word on every lane. -/
@[simp] theorem onEveryLane_frame (s : State) (w : Qword) :
    (onEveryLane s w).pending = s.pending ∧ (onEveryLane s w).boot = s.boot ∧ (onEveryLane s w).mbx = s.mbx ∧
    (onEveryLane s w).host = s.host ∧ (onEveryLane s w).obs = s.obs ∧ (onEveryLane s w).quench = s.quench ∧
    (onEveryLane s w).sec = s.sec ∧ (onEveryLane s w).pwr = s.pwr ∧ (onEveryLane s w).anneal = s.anneal ∧
    (onEveryLane s w).pins = s.pins ∧ (onEveryLane s w).cease = s.cease ∧ (onEveryLane s w).time = s.time ∧
    (onEveryLane s w).ports = s.ports ∧ (onEveryLane s w).ptp = s.ptp ∧ (onEveryLane s w).ptpx = s.ptpx ∧
    (onEveryLane s w).job = s.job ∧ (onEveryLane s w).web = s.web ∧ (onEveryLane s w).pages = s.pages ∧
    (onEveryLane s w).tables = s.tables ∧ (onEveryLane s w).slices = s.slices ∧ (onEveryLane s w).map = s.map ∧
    (onEveryLane s w).csc = s.csc ∧ (onEveryLane s w).encs = s.encs ∧ (onEveryLane s w).webCfg = s.webCfg ∧
    (onEveryLane s w).ftb = s.ftb ∧ (onEveryLane s w).cues = s.cues ∧ (onEveryLane s w).pulses = s.pulses ∧
    (onEveryLane s w).dxl = s.dxl ∧ (onEveryLane s w).asy = s.asy ∧ (onEveryLane s w).par = s.par ∧
    (onEveryLane s w).mem = s.mem ∧ (onEveryLane s w).mot = s.mot ∧ (onEveryLane s w).free = s.free := by
  simp [onEveryLane, onLanes]

/-- A word on every group. -/
@[simp] theorem onEveryGroup_frame (s : State) (w : Qword) :
    (onEveryGroup s w).pending = s.pending ∧ (onEveryGroup s w).boot = s.boot ∧ (onEveryGroup s w).mbx = s.mbx ∧
    (onEveryGroup s w).host = s.host ∧ (onEveryGroup s w).obs = s.obs ∧ (onEveryGroup s w).quench = s.quench ∧
    (onEveryGroup s w).sec = s.sec ∧ (onEveryGroup s w).pwr = s.pwr ∧ (onEveryGroup s w).anneal = s.anneal ∧
    (onEveryGroup s w).pins = s.pins ∧ (onEveryGroup s w).cease = s.cease ∧ (onEveryGroup s w).time = s.time ∧
    (onEveryGroup s w).ports = s.ports ∧ (onEveryGroup s w).ptp = s.ptp ∧ (onEveryGroup s w).ptpx = s.ptpx ∧
    (onEveryGroup s w).job = s.job ∧ (onEveryGroup s w).web = s.web ∧ (onEveryGroup s w).pages = s.pages ∧
    (onEveryGroup s w).tables = s.tables ∧ (onEveryGroup s w).slices = s.slices ∧
    (onEveryGroup s w).map = s.map ∧ (onEveryGroup s w).csc = s.csc ∧ (onEveryGroup s w).encs = s.encs ∧
    (onEveryGroup s w).webCfg = s.webCfg ∧ (onEveryGroup s w).ftb = s.ftb ∧ (onEveryGroup s w).cues = s.cues ∧
    (onEveryGroup s w).pulses = s.pulses ∧ (onEveryGroup s w).dxl = s.dxl ∧ (onEveryGroup s w).asy = s.asy ∧
    (onEveryGroup s w).par = s.par ∧ (onEveryGroup s w).mem = s.mem ∧ (onEveryGroup s w).mot = s.mot ∧
    (onEveryGroup s w).free = s.free := by
  simp [onEveryGroup]

/-- A CEASE changes the CEASE state, CEASE_ACK and what has left the chip. -/
@[simp] theorem sendCease_frame (s : State) (cause : Nat) :
    (sendCease s cause).pending = s.pending ∧ (sendCease s cause).boot = s.boot ∧
    (sendCease s cause).mbx = s.mbx ∧ (sendCease s cause).host = s.host ∧ (sendCease s cause).obs = s.obs ∧
    (sendCease s cause).quench = s.quench ∧ (sendCease s cause).sec = s.sec ∧ (sendCease s cause).pwr = s.pwr ∧
    (sendCease s cause).anneal = s.anneal ∧ (sendCease s cause).time = s.time ∧
    (sendCease s cause).ports = s.ports ∧ (sendCease s cause).ptp = s.ptp ∧ (sendCease s cause).ptpx = s.ptpx ∧
    (sendCease s cause).job = s.job ∧ (sendCease s cause).web = s.web ∧ (sendCease s cause).pages = s.pages ∧
    (sendCease s cause).tables = s.tables ∧ (sendCease s cause).slices = s.slices ∧
    (sendCease s cause).map = s.map ∧ (sendCease s cause).csc = s.csc ∧ (sendCease s cause).encs = s.encs ∧
    (sendCease s cause).webCfg = s.webCfg ∧ (sendCease s cause).ftb = s.ftb ∧
    (sendCease s cause).cues = s.cues ∧ (sendCease s cause).pulses = s.pulses ∧
    (sendCease s cause).dxl = s.dxl ∧ (sendCease s cause).asy = s.asy ∧ (sendCease s cause).par = s.par ∧
    (sendCease s cause).mem = s.mem ∧ (sendCease s cause).mot = s.mot ∧ (sendCease s cause).free = s.free ∧
    (sendCease s cause).pins.ceaseN = s.pins.ceaseN ∧ (sendCease s cause).pins.roleSel = s.pins.roleSel ∧
    (sendCease s cause).pins.healthHigh = s.pins.healthHigh ∧
    (sendCease s cause).pins.healthReady = s.pins.healthReady ∧
    (sendCease s cause).pins.axSwitch = s.pins.axSwitch ∧
    (sendCease s cause).pins.resetHeld = s.pins.resetHeld ∧ (sendCease s cause).pins.driven = s.pins.driven ∧ (sendCease s cause).pins.outs = s.pins.outs ∧
    (sendCease s cause).cease.inForce = true := by
  unfold sendCease ceaseInSave startCease; split
  · split <;> simp [onLanes]
  · simp [onLanes]

/-- A quench trigger changes the log, the counters, the quench block and, where it sends CEASE, the CEASE state. -/
@[simp] theorem takeTrigger_frame (s : State) (source evCode evSeq : Nat) :
    (takeTrigger s source evCode evSeq).pending = s.pending ∧ (takeTrigger s source evCode evSeq).boot = s.boot ∧
    (takeTrigger s source evCode evSeq).host = s.host ∧ (takeTrigger s source evCode evSeq).sec = s.sec ∧
    (takeTrigger s source evCode evSeq).pwr = s.pwr ∧ (takeTrigger s source evCode evSeq).anneal = s.anneal ∧
    (takeTrigger s source evCode evSeq).time = s.time ∧ (takeTrigger s source evCode evSeq).ports = s.ports ∧
    (takeTrigger s source evCode evSeq).ptp = s.ptp ∧ (takeTrigger s source evCode evSeq).ptpx = s.ptpx ∧
    (takeTrigger s source evCode evSeq).job = s.job ∧ (takeTrigger s source evCode evSeq).web = s.web ∧
    (takeTrigger s source evCode evSeq).pages = s.pages ∧ (takeTrigger s source evCode evSeq).tables = s.tables ∧
    (takeTrigger s source evCode evSeq).slices = s.slices ∧ (takeTrigger s source evCode evSeq).map = s.map ∧
    (takeTrigger s source evCode evSeq).csc = s.csc ∧ (takeTrigger s source evCode evSeq).encs = s.encs ∧
    (takeTrigger s source evCode evSeq).webCfg = s.webCfg ∧ (takeTrigger s source evCode evSeq).ftb = s.ftb ∧
    (takeTrigger s source evCode evSeq).cues = s.cues ∧ (takeTrigger s source evCode evSeq).pulses = s.pulses ∧
    (takeTrigger s source evCode evSeq).dxl = s.dxl ∧ (takeTrigger s source evCode evSeq).asy = s.asy ∧
    (takeTrigger s source evCode evSeq).par = s.par ∧ (takeTrigger s source evCode evSeq).mem = s.mem ∧
    (takeTrigger s source evCode evSeq).mot = s.mot ∧ (takeTrigger s source evCode evSeq).free = s.free ∧
    (takeTrigger s source evCode evSeq).mbx.enable = s.mbx.enable ∧
    (takeTrigger s source evCode evSeq).mbx.sqTail = s.mbx.sqTail ∧
    (takeTrigger s source evCode evSeq).mbx.sqHead = s.mbx.sqHead ∧
    (takeTrigger s source evCode evSeq).mbx.cqHead = s.mbx.cqHead ∧
    (takeTrigger s source evCode evSeq).mbx.cqBase = s.mbx.cqBase ∧
    (takeTrigger s source evCode evSeq).mbx.cqIndex = s.mbx.cqIndex ∧
    (takeTrigger s source evCode evSeq).mbx.cqUnread = s.mbx.cqUnread ∧
    (takeTrigger s source evCode evSeq).mbx.phase = s.mbx.phase ∧
    (takeTrigger s source evCode evSeq).mbx.ring = s.mbx.ring ∧
    (takeTrigger s source evCode evSeq).mbx.inFlight = s.mbx.inFlight ∧
    (takeTrigger s source evCode evSeq).mbx.scratch = s.mbx.scratch ∧
    (takeTrigger s source evCode evSeq).mbx.msix = s.mbx.msix ∧
    (takeTrigger s source evCode evSeq).mbx.pcieWidth = s.mbx.pcieWidth ∧
    (takeTrigger s source evCode evSeq).mbx.pcieMts = s.mbx.pcieMts ∧ (takeTrigger s source evCode evSeq).mbx.maxPayload = s.mbx.maxPayload ∧
    (takeTrigger s source evCode evSeq).mbx.maxRead = s.mbx.maxRead ∧
    (takeTrigger s source evCode evSeq).pins.ceaseN = s.pins.ceaseN ∧
    (takeTrigger s source evCode evSeq).pins.roleSel = s.pins.roleSel ∧
    (takeTrigger s source evCode evSeq).pins.healthHigh = s.pins.healthHigh ∧
    (takeTrigger s source evCode evSeq).pins.healthReady = s.pins.healthReady ∧
    (takeTrigger s source evCode evSeq).pins.axSwitch = s.pins.axSwitch ∧
    (takeTrigger s source evCode evSeq).pins.resetHeld = s.pins.resetHeld ∧
    (takeTrigger s source evCode evSeq).pins.driven = s.pins.driven ∧ (takeTrigger s source evCode evSeq).pins.outs = s.pins.outs ∧
    (takeTrigger s source evCode evSeq).obs.logOff = s.obs.logOff := by
  unfold takeTrigger; dsimp only; split
  · split <;> simp
  · split <;> simp

/-- The trigger of a QCH_COUNT_SAT changes the log, the counters, the quench block and, where it sends CEASE, the CEASE state. -/
@[simp] theorem satTrigger_frame (s0 s : State) :
    (satTrigger s0 s).pending = s.pending ∧ (satTrigger s0 s).boot = s.boot ∧
    (satTrigger s0 s).host = s.host ∧ (satTrigger s0 s).sec = s.sec ∧
    (satTrigger s0 s).pwr = s.pwr ∧ (satTrigger s0 s).anneal = s.anneal ∧
    (satTrigger s0 s).time = s.time ∧ (satTrigger s0 s).ports = s.ports ∧
    (satTrigger s0 s).ptp = s.ptp ∧ (satTrigger s0 s).ptpx = s.ptpx ∧
    (satTrigger s0 s).job = s.job ∧ (satTrigger s0 s).web = s.web ∧
    (satTrigger s0 s).pages = s.pages ∧ (satTrigger s0 s).tables = s.tables ∧
    (satTrigger s0 s).slices = s.slices ∧ (satTrigger s0 s).map = s.map ∧
    (satTrigger s0 s).csc = s.csc ∧ (satTrigger s0 s).encs = s.encs ∧
    (satTrigger s0 s).webCfg = s.webCfg ∧ (satTrigger s0 s).ftb = s.ftb ∧
    (satTrigger s0 s).cues = s.cues ∧ (satTrigger s0 s).pulses = s.pulses ∧
    (satTrigger s0 s).dxl = s.dxl ∧ (satTrigger s0 s).asy = s.asy ∧
    (satTrigger s0 s).par = s.par ∧ (satTrigger s0 s).mem = s.mem ∧
    (satTrigger s0 s).mot = s.mot ∧ (satTrigger s0 s).free = s.free ∧
    (satTrigger s0 s).mbx.enable = s.mbx.enable ∧
    (satTrigger s0 s).mbx.sqTail = s.mbx.sqTail ∧
    (satTrigger s0 s).mbx.sqHead = s.mbx.sqHead ∧
    (satTrigger s0 s).mbx.cqHead = s.mbx.cqHead ∧
    (satTrigger s0 s).mbx.cqBase = s.mbx.cqBase ∧
    (satTrigger s0 s).mbx.cqIndex = s.mbx.cqIndex ∧
    (satTrigger s0 s).mbx.cqUnread = s.mbx.cqUnread ∧
    (satTrigger s0 s).mbx.phase = s.mbx.phase ∧
    (satTrigger s0 s).mbx.ring = s.mbx.ring ∧
    (satTrigger s0 s).mbx.inFlight = s.mbx.inFlight ∧
    (satTrigger s0 s).mbx.scratch = s.mbx.scratch ∧
    (satTrigger s0 s).mbx.msix = s.mbx.msix ∧
    (satTrigger s0 s).mbx.pcieWidth = s.mbx.pcieWidth ∧
    (satTrigger s0 s).mbx.pcieMts = s.mbx.pcieMts ∧ (satTrigger s0 s).mbx.maxPayload = s.mbx.maxPayload ∧
    (satTrigger s0 s).mbx.maxRead = s.mbx.maxRead ∧
    (satTrigger s0 s).pins.ceaseN = s.pins.ceaseN ∧
    (satTrigger s0 s).pins.roleSel = s.pins.roleSel ∧
    (satTrigger s0 s).pins.healthHigh = s.pins.healthHigh ∧
    (satTrigger s0 s).pins.healthReady = s.pins.healthReady ∧
    (satTrigger s0 s).pins.axSwitch = s.pins.axSwitch ∧
    (satTrigger s0 s).pins.resetHeld = s.pins.resetHeld ∧
    (satTrigger s0 s).pins.driven = s.pins.driven ∧ (satTrigger s0 s).pins.outs = s.pins.outs ∧
    (satTrigger s0 s).obs.logOff = s.obs.logOff := by
  unfold satTrigger; dsimp only; split <;> simp

/-- A quench trigger changes the log, the counters, the quench block and, where it sends CEASE, the CEASE state. -/
@[simp] theorem fireQuench_frame (s : State) (source evCode evSeq : Nat) :
    (fireQuench s source evCode evSeq).pending = s.pending ∧ (fireQuench s source evCode evSeq).boot = s.boot ∧
    (fireQuench s source evCode evSeq).host = s.host ∧ (fireQuench s source evCode evSeq).sec = s.sec ∧
    (fireQuench s source evCode evSeq).pwr = s.pwr ∧ (fireQuench s source evCode evSeq).anneal = s.anneal ∧
    (fireQuench s source evCode evSeq).time = s.time ∧ (fireQuench s source evCode evSeq).ports = s.ports ∧
    (fireQuench s source evCode evSeq).ptp = s.ptp ∧ (fireQuench s source evCode evSeq).ptpx = s.ptpx ∧
    (fireQuench s source evCode evSeq).job = s.job ∧ (fireQuench s source evCode evSeq).web = s.web ∧
    (fireQuench s source evCode evSeq).pages = s.pages ∧ (fireQuench s source evCode evSeq).tables = s.tables ∧
    (fireQuench s source evCode evSeq).slices = s.slices ∧ (fireQuench s source evCode evSeq).map = s.map ∧
    (fireQuench s source evCode evSeq).csc = s.csc ∧ (fireQuench s source evCode evSeq).encs = s.encs ∧
    (fireQuench s source evCode evSeq).webCfg = s.webCfg ∧ (fireQuench s source evCode evSeq).ftb = s.ftb ∧
    (fireQuench s source evCode evSeq).cues = s.cues ∧ (fireQuench s source evCode evSeq).pulses = s.pulses ∧
    (fireQuench s source evCode evSeq).dxl = s.dxl ∧ (fireQuench s source evCode evSeq).asy = s.asy ∧
    (fireQuench s source evCode evSeq).par = s.par ∧ (fireQuench s source evCode evSeq).mem = s.mem ∧
    (fireQuench s source evCode evSeq).mot = s.mot ∧ (fireQuench s source evCode evSeq).free = s.free ∧
    (fireQuench s source evCode evSeq).mbx.enable = s.mbx.enable ∧
    (fireQuench s source evCode evSeq).mbx.sqTail = s.mbx.sqTail ∧
    (fireQuench s source evCode evSeq).mbx.sqHead = s.mbx.sqHead ∧
    (fireQuench s source evCode evSeq).mbx.cqHead = s.mbx.cqHead ∧
    (fireQuench s source evCode evSeq).mbx.cqBase = s.mbx.cqBase ∧
    (fireQuench s source evCode evSeq).mbx.cqIndex = s.mbx.cqIndex ∧
    (fireQuench s source evCode evSeq).mbx.cqUnread = s.mbx.cqUnread ∧
    (fireQuench s source evCode evSeq).mbx.phase = s.mbx.phase ∧
    (fireQuench s source evCode evSeq).mbx.ring = s.mbx.ring ∧
    (fireQuench s source evCode evSeq).mbx.inFlight = s.mbx.inFlight ∧
    (fireQuench s source evCode evSeq).mbx.scratch = s.mbx.scratch ∧
    (fireQuench s source evCode evSeq).mbx.msix = s.mbx.msix ∧
    (fireQuench s source evCode evSeq).mbx.pcieWidth = s.mbx.pcieWidth ∧
    (fireQuench s source evCode evSeq).mbx.pcieMts = s.mbx.pcieMts ∧ (fireQuench s source evCode evSeq).mbx.maxPayload = s.mbx.maxPayload ∧
    (fireQuench s source evCode evSeq).mbx.maxRead = s.mbx.maxRead ∧
    (fireQuench s source evCode evSeq).pins.ceaseN = s.pins.ceaseN ∧
    (fireQuench s source evCode evSeq).pins.roleSel = s.pins.roleSel ∧
    (fireQuench s source evCode evSeq).pins.healthHigh = s.pins.healthHigh ∧
    (fireQuench s source evCode evSeq).pins.healthReady = s.pins.healthReady ∧
    (fireQuench s source evCode evSeq).pins.axSwitch = s.pins.axSwitch ∧
    (fireQuench s source evCode evSeq).pins.resetHeld = s.pins.resetHeld ∧
    (fireQuench s source evCode evSeq).pins.driven = s.pins.driven ∧ (fireQuench s source evCode evSeq).pins.outs = s.pins.outs ∧
    (fireQuench s source evCode evSeq).obs.logOff = s.obs.logOff := by
  simp [fireQuench]

/-- An event changes the log and what a quench it triggers changes. -/
@[simp] theorem raise_frame (s : State) (code : Nat) (pay : List Dword) :
    (raise s code pay).pending = s.pending ∧ (raise s code pay).boot = s.boot ∧
    (raise s code pay).host = s.host ∧ (raise s code pay).sec = s.sec ∧ (raise s code pay).pwr = s.pwr ∧
    (raise s code pay).anneal = s.anneal ∧ (raise s code pay).time = s.time ∧
    (raise s code pay).ports = s.ports ∧ (raise s code pay).ptp = s.ptp ∧ (raise s code pay).ptpx = s.ptpx ∧
    (raise s code pay).job = s.job ∧ (raise s code pay).web = s.web ∧ (raise s code pay).pages = s.pages ∧
    (raise s code pay).tables = s.tables ∧ (raise s code pay).slices = s.slices ∧
    (raise s code pay).map = s.map ∧ (raise s code pay).csc = s.csc ∧ (raise s code pay).encs = s.encs ∧
    (raise s code pay).webCfg = s.webCfg ∧ (raise s code pay).ftb = s.ftb ∧ (raise s code pay).cues = s.cues ∧
    (raise s code pay).pulses = s.pulses ∧ (raise s code pay).dxl = s.dxl ∧ (raise s code pay).asy = s.asy ∧
    (raise s code pay).par = s.par ∧ (raise s code pay).mem = s.mem ∧ (raise s code pay).mot = s.mot ∧
    (raise s code pay).free = s.free ∧ (raise s code pay).mbx.enable = s.mbx.enable ∧
    (raise s code pay).mbx.sqTail = s.mbx.sqTail ∧ (raise s code pay).mbx.sqHead = s.mbx.sqHead ∧
    (raise s code pay).mbx.cqHead = s.mbx.cqHead ∧ (raise s code pay).mbx.cqBase = s.mbx.cqBase ∧
    (raise s code pay).mbx.cqIndex = s.mbx.cqIndex ∧ (raise s code pay).mbx.cqUnread = s.mbx.cqUnread ∧
    (raise s code pay).mbx.phase = s.mbx.phase ∧ (raise s code pay).mbx.ring = s.mbx.ring ∧
    (raise s code pay).mbx.inFlight = s.mbx.inFlight ∧ (raise s code pay).mbx.scratch = s.mbx.scratch ∧
    (raise s code pay).mbx.msix = s.mbx.msix ∧ (raise s code pay).mbx.pcieWidth = s.mbx.pcieWidth ∧
    (raise s code pay).mbx.pcieMts = s.mbx.pcieMts ∧ (raise s code pay).mbx.maxPayload = s.mbx.maxPayload ∧
    (raise s code pay).mbx.maxRead = s.mbx.maxRead ∧ (raise s code pay).pins.ceaseN = s.pins.ceaseN ∧
    (raise s code pay).pins.roleSel = s.pins.roleSel ∧ (raise s code pay).pins.healthHigh = s.pins.healthHigh ∧
    (raise s code pay).pins.healthReady = s.pins.healthReady ∧
    (raise s code pay).pins.axSwitch = s.pins.axSwitch ∧ (raise s code pay).pins.resetHeld = s.pins.resetHeld ∧
    (raise s code pay).pins.driven = s.pins.driven ∧ (raise s code pay).pins.outs = s.pins.outs ∧ (raise s code pay).obs.logOff = s.obs.logOff := by
  unfold raise; dsimp only; split <;> simp

/-- An event changes the log and what a quench it triggers changes. -/
@[simp] theorem raiseIf_frame (s : State) (b : Bool) (code : Nat) (pay : List Dword) :
    (raiseIf b s code pay).pending = s.pending ∧ (raiseIf b s code pay).boot = s.boot ∧
    (raiseIf b s code pay).host = s.host ∧ (raiseIf b s code pay).sec = s.sec ∧
    (raiseIf b s code pay).pwr = s.pwr ∧ (raiseIf b s code pay).anneal = s.anneal ∧
    (raiseIf b s code pay).time = s.time ∧ (raiseIf b s code pay).ports = s.ports ∧
    (raiseIf b s code pay).ptp = s.ptp ∧ (raiseIf b s code pay).ptpx = s.ptpx ∧
    (raiseIf b s code pay).job = s.job ∧ (raiseIf b s code pay).web = s.web ∧
    (raiseIf b s code pay).pages = s.pages ∧ (raiseIf b s code pay).tables = s.tables ∧
    (raiseIf b s code pay).slices = s.slices ∧ (raiseIf b s code pay).map = s.map ∧
    (raiseIf b s code pay).csc = s.csc ∧ (raiseIf b s code pay).encs = s.encs ∧
    (raiseIf b s code pay).webCfg = s.webCfg ∧ (raiseIf b s code pay).ftb = s.ftb ∧
    (raiseIf b s code pay).cues = s.cues ∧ (raiseIf b s code pay).pulses = s.pulses ∧
    (raiseIf b s code pay).dxl = s.dxl ∧ (raiseIf b s code pay).asy = s.asy ∧
    (raiseIf b s code pay).par = s.par ∧ (raiseIf b s code pay).mem = s.mem ∧
    (raiseIf b s code pay).mot = s.mot ∧ (raiseIf b s code pay).free = s.free ∧
    (raiseIf b s code pay).mbx.enable = s.mbx.enable ∧ (raiseIf b s code pay).mbx.sqTail = s.mbx.sqTail ∧
    (raiseIf b s code pay).mbx.sqHead = s.mbx.sqHead ∧ (raiseIf b s code pay).mbx.cqHead = s.mbx.cqHead ∧
    (raiseIf b s code pay).mbx.cqBase = s.mbx.cqBase ∧ (raiseIf b s code pay).mbx.cqIndex = s.mbx.cqIndex ∧
    (raiseIf b s code pay).mbx.cqUnread = s.mbx.cqUnread ∧ (raiseIf b s code pay).mbx.phase = s.mbx.phase ∧
    (raiseIf b s code pay).mbx.ring = s.mbx.ring ∧ (raiseIf b s code pay).mbx.inFlight = s.mbx.inFlight ∧
    (raiseIf b s code pay).mbx.scratch = s.mbx.scratch ∧ (raiseIf b s code pay).mbx.msix = s.mbx.msix ∧
    (raiseIf b s code pay).mbx.pcieWidth = s.mbx.pcieWidth ∧
    (raiseIf b s code pay).mbx.pcieMts = s.mbx.pcieMts ∧ (raiseIf b s code pay).mbx.maxPayload = s.mbx.maxPayload ∧
    (raiseIf b s code pay).mbx.maxRead = s.mbx.maxRead ∧ (raiseIf b s code pay).pins.ceaseN = s.pins.ceaseN ∧
    (raiseIf b s code pay).pins.roleSel = s.pins.roleSel ∧
    (raiseIf b s code pay).pins.healthHigh = s.pins.healthHigh ∧
    (raiseIf b s code pay).pins.healthReady = s.pins.healthReady ∧
    (raiseIf b s code pay).pins.axSwitch = s.pins.axSwitch ∧
    (raiseIf b s code pay).pins.resetHeld = s.pins.resetHeld ∧
    (raiseIf b s code pay).pins.driven = s.pins.driven ∧ (raiseIf b s code pay).pins.outs = s.pins.outs ∧ (raiseIf b s code pay).obs.logOff = s.obs.logOff := by
  unfold raiseIf; split <;> simp

/-- A count changes the counters and what its COUNT_SAT changes. -/
@[simp] theorem countN_frame (s : State) (k n : Nat) :
    (countN s k n).pending = s.pending ∧ (countN s k n).boot = s.boot ∧ (countN s k n).host = s.host ∧
    (countN s k n).sec = s.sec ∧ (countN s k n).pwr = s.pwr ∧ (countN s k n).anneal = s.anneal ∧
    (countN s k n).time = s.time ∧ (countN s k n).ports = s.ports ∧ (countN s k n).ptp = s.ptp ∧
    (countN s k n).ptpx = s.ptpx ∧ (countN s k n).job = s.job ∧ (countN s k n).web = s.web ∧
    (countN s k n).pages = s.pages ∧ (countN s k n).tables = s.tables ∧ (countN s k n).slices = s.slices ∧
    (countN s k n).map = s.map ∧ (countN s k n).csc = s.csc ∧ (countN s k n).encs = s.encs ∧
    (countN s k n).webCfg = s.webCfg ∧ (countN s k n).ftb = s.ftb ∧ (countN s k n).cues = s.cues ∧
    (countN s k n).pulses = s.pulses ∧ (countN s k n).dxl = s.dxl ∧ (countN s k n).asy = s.asy ∧
    (countN s k n).par = s.par ∧ (countN s k n).mem = s.mem ∧ (countN s k n).mot = s.mot ∧
    (countN s k n).free = s.free ∧ (countN s k n).mbx.enable = s.mbx.enable ∧
    (countN s k n).mbx.sqTail = s.mbx.sqTail ∧ (countN s k n).mbx.sqHead = s.mbx.sqHead ∧
    (countN s k n).mbx.cqHead = s.mbx.cqHead ∧ (countN s k n).mbx.cqBase = s.mbx.cqBase ∧
    (countN s k n).mbx.cqIndex = s.mbx.cqIndex ∧ (countN s k n).mbx.cqUnread = s.mbx.cqUnread ∧
    (countN s k n).mbx.phase = s.mbx.phase ∧ (countN s k n).mbx.ring = s.mbx.ring ∧
    (countN s k n).mbx.inFlight = s.mbx.inFlight ∧ (countN s k n).mbx.scratch = s.mbx.scratch ∧
    (countN s k n).mbx.msix = s.mbx.msix ∧ (countN s k n).mbx.pcieWidth = s.mbx.pcieWidth ∧
    (countN s k n).mbx.pcieMts = s.mbx.pcieMts ∧ (countN s k n).mbx.maxPayload = s.mbx.maxPayload ∧
    (countN s k n).mbx.maxRead = s.mbx.maxRead ∧ (countN s k n).pins.ceaseN = s.pins.ceaseN ∧
    (countN s k n).pins.roleSel = s.pins.roleSel ∧ (countN s k n).pins.healthHigh = s.pins.healthHigh ∧
    (countN s k n).pins.healthReady = s.pins.healthReady ∧ (countN s k n).pins.axSwitch = s.pins.axSwitch ∧
    (countN s k n).pins.resetHeld = s.pins.resetHeld ∧ (countN s k n).pins.driven = s.pins.driven ∧ (countN s k n).pins.outs = s.pins.outs ∧
    (countN s k n).obs.logOff = s.obs.logOff := by
  unfold countN; dsimp only; simp

/-- A count changes the counters and what its COUNT_SAT changes. -/
@[simp] theorem count_frame (s : State) (k : Nat) :
    (count s k).pending = s.pending ∧ (count s k).boot = s.boot ∧ (count s k).host = s.host ∧
    (count s k).sec = s.sec ∧ (count s k).pwr = s.pwr ∧ (count s k).anneal = s.anneal ∧
    (count s k).time = s.time ∧ (count s k).ports = s.ports ∧ (count s k).ptp = s.ptp ∧
    (count s k).ptpx = s.ptpx ∧ (count s k).job = s.job ∧ (count s k).web = s.web ∧
    (count s k).pages = s.pages ∧ (count s k).tables = s.tables ∧ (count s k).slices = s.slices ∧
    (count s k).map = s.map ∧ (count s k).csc = s.csc ∧ (count s k).encs = s.encs ∧
    (count s k).webCfg = s.webCfg ∧ (count s k).ftb = s.ftb ∧ (count s k).cues = s.cues ∧
    (count s k).pulses = s.pulses ∧ (count s k).dxl = s.dxl ∧ (count s k).asy = s.asy ∧
    (count s k).par = s.par ∧ (count s k).mem = s.mem ∧ (count s k).mot = s.mot ∧ (count s k).free = s.free ∧
    (count s k).mbx.enable = s.mbx.enable ∧ (count s k).mbx.sqTail = s.mbx.sqTail ∧
    (count s k).mbx.sqHead = s.mbx.sqHead ∧ (count s k).mbx.cqHead = s.mbx.cqHead ∧
    (count s k).mbx.cqBase = s.mbx.cqBase ∧ (count s k).mbx.cqIndex = s.mbx.cqIndex ∧
    (count s k).mbx.cqUnread = s.mbx.cqUnread ∧ (count s k).mbx.phase = s.mbx.phase ∧
    (count s k).mbx.ring = s.mbx.ring ∧ (count s k).mbx.inFlight = s.mbx.inFlight ∧
    (count s k).mbx.scratch = s.mbx.scratch ∧ (count s k).mbx.msix = s.mbx.msix ∧
    (count s k).mbx.pcieWidth = s.mbx.pcieWidth ∧ (count s k).mbx.pcieMts = s.mbx.pcieMts ∧ (count s k).mbx.maxPayload = s.mbx.maxPayload ∧
    (count s k).mbx.maxRead = s.mbx.maxRead ∧
    (count s k).pins.ceaseN = s.pins.ceaseN ∧ (count s k).pins.roleSel = s.pins.roleSel ∧
    (count s k).pins.healthHigh = s.pins.healthHigh ∧ (count s k).pins.healthReady = s.pins.healthReady ∧
    (count s k).pins.axSwitch = s.pins.axSwitch ∧ (count s k).pins.resetHeld = s.pins.resetHeld ∧
    (count s k).pins.driven = s.pins.driven ∧ (count s k).pins.outs = s.pins.outs ∧ (count s k).obs.logOff = s.obs.logOff := by
  simp [count]

/-- Taking a free value advances the counter alone. -/
@[simp] theorem drawFree_frame (s : State)  :
    ((drawFree s).1).pending = s.pending ∧ ((drawFree s).1).boot = s.boot ∧ ((drawFree s).1).mbx = s.mbx ∧
    ((drawFree s).1).host = s.host ∧ ((drawFree s).1).obs = s.obs ∧ ((drawFree s).1).quench = s.quench ∧
    ((drawFree s).1).sec = s.sec ∧ ((drawFree s).1).pwr = s.pwr ∧ ((drawFree s).1).anneal = s.anneal ∧
    ((drawFree s).1).pins = s.pins ∧ ((drawFree s).1).cease = s.cease ∧ ((drawFree s).1).time = s.time ∧
    ((drawFree s).1).ports = s.ports ∧ ((drawFree s).1).ptp = s.ptp ∧ ((drawFree s).1).ptpx = s.ptpx ∧
    ((drawFree s).1).job = s.job ∧ ((drawFree s).1).web = s.web ∧ ((drawFree s).1).pages = s.pages ∧
    ((drawFree s).1).tables = s.tables ∧ ((drawFree s).1).slices = s.slices ∧ ((drawFree s).1).map = s.map ∧
    ((drawFree s).1).csc = s.csc ∧ ((drawFree s).1).encs = s.encs ∧ ((drawFree s).1).webCfg = s.webCfg ∧
    ((drawFree s).1).ftb = s.ftb ∧ ((drawFree s).1).cues = s.cues ∧ ((drawFree s).1).pulses = s.pulses ∧
    ((drawFree s).1).dxl = s.dxl ∧ ((drawFree s).1).asy = s.asy ∧ ((drawFree s).1).par = s.par ∧
    ((drawFree s).1).mem = s.mem ∧ ((drawFree s).1).mot = s.mot ∧ ((drawFree s).1).out = s.out := by
  simp [drawFree]

/-- A write of host memory changes host memory alone. -/
@[simp] theorem hostPut_frame (s : State) (a : Nat) (bs : List Byte) :
    (hostPut s a bs).pending = s.pending ∧ (hostPut s a bs).boot = s.boot ∧ (hostPut s a bs).mbx = s.mbx ∧
    (hostPut s a bs).obs = s.obs ∧ (hostPut s a bs).quench = s.quench ∧ (hostPut s a bs).sec = s.sec ∧
    (hostPut s a bs).pwr = s.pwr ∧ (hostPut s a bs).anneal = s.anneal ∧ (hostPut s a bs).pins = s.pins ∧
    (hostPut s a bs).cease = s.cease ∧ (hostPut s a bs).time = s.time ∧ (hostPut s a bs).ports = s.ports ∧
    (hostPut s a bs).ptp = s.ptp ∧ (hostPut s a bs).ptpx = s.ptpx ∧ (hostPut s a bs).job = s.job ∧
    (hostPut s a bs).web = s.web ∧ (hostPut s a bs).pages = s.pages ∧ (hostPut s a bs).tables = s.tables ∧
    (hostPut s a bs).slices = s.slices ∧ (hostPut s a bs).map = s.map ∧ (hostPut s a bs).csc = s.csc ∧
    (hostPut s a bs).encs = s.encs ∧ (hostPut s a bs).webCfg = s.webCfg ∧ (hostPut s a bs).ftb = s.ftb ∧
    (hostPut s a bs).cues = s.cues ∧ (hostPut s a bs).pulses = s.pulses ∧ (hostPut s a bs).dxl = s.dxl ∧
    (hostPut s a bs).asy = s.asy ∧ (hostPut s a bs).par = s.par ∧ (hostPut s a bs).mem = s.mem ∧
    (hostPut s a bs).mot = s.mot ∧ (hostPut s a bs).out = s.out ∧ (hostPut s a bs).free = s.free ∧
    (hostPut s a bs).host.failing = s.host.failing ∧ (hostPut s a bs).host.poisoned = s.host.poisoned := by
  simp [hostPut]

/-- A write of host memory changes host memory alone. -/
@[simp] theorem hostPutDws_frame (s : State) (a : Nat) (ds : List Dword) :
    (hostPutDws s a ds).pending = s.pending ∧ (hostPutDws s a ds).boot = s.boot ∧
    (hostPutDws s a ds).mbx = s.mbx ∧ (hostPutDws s a ds).obs = s.obs ∧ (hostPutDws s a ds).quench = s.quench ∧
    (hostPutDws s a ds).sec = s.sec ∧ (hostPutDws s a ds).pwr = s.pwr ∧ (hostPutDws s a ds).anneal = s.anneal ∧
    (hostPutDws s a ds).pins = s.pins ∧ (hostPutDws s a ds).cease = s.cease ∧
    (hostPutDws s a ds).time = s.time ∧ (hostPutDws s a ds).ports = s.ports ∧ (hostPutDws s a ds).ptp = s.ptp ∧
    (hostPutDws s a ds).ptpx = s.ptpx ∧ (hostPutDws s a ds).job = s.job ∧ (hostPutDws s a ds).web = s.web ∧
    (hostPutDws s a ds).pages = s.pages ∧ (hostPutDws s a ds).tables = s.tables ∧
    (hostPutDws s a ds).slices = s.slices ∧ (hostPutDws s a ds).map = s.map ∧ (hostPutDws s a ds).csc = s.csc ∧
    (hostPutDws s a ds).encs = s.encs ∧ (hostPutDws s a ds).webCfg = s.webCfg ∧
    (hostPutDws s a ds).ftb = s.ftb ∧ (hostPutDws s a ds).cues = s.cues ∧
    (hostPutDws s a ds).pulses = s.pulses ∧ (hostPutDws s a ds).dxl = s.dxl ∧ (hostPutDws s a ds).asy = s.asy ∧
    (hostPutDws s a ds).par = s.par ∧ (hostPutDws s a ds).mem = s.mem ∧ (hostPutDws s a ds).mot = s.mot ∧
    (hostPutDws s a ds).out = s.out ∧ (hostPutDws s a ds).free = s.free ∧
    (hostPutDws s a ds).host.failing = s.host.failing ∧
    (hostPutDws s a ds).host.poisoned = s.host.poisoned := by
  simp [hostPutDws]

/-- A completion changes the mailbox, host memory and what has left the chip. -/
@[simp] theorem finish_frame (s : State) (r : InFlight) (st : Nat) (res : List Dword) :
    (finish s r st res).pending = s.pending ∧ (finish s r st res).boot = s.boot ∧
    (finish s r st res).obs = s.obs ∧ (finish s r st res).quench = s.quench ∧ (finish s r st res).sec = s.sec ∧
    (finish s r st res).pwr = s.pwr ∧ (finish s r st res).anneal = s.anneal ∧
    (finish s r st res).pins = s.pins ∧ (finish s r st res).cease = s.cease ∧
    (finish s r st res).time = s.time ∧ (finish s r st res).ports = s.ports ∧ (finish s r st res).ptp = s.ptp ∧
    (finish s r st res).ptpx = s.ptpx ∧ (finish s r st res).job = s.job ∧ (finish s r st res).web = s.web ∧
    (finish s r st res).pages = s.pages ∧ (finish s r st res).tables = s.tables ∧
    (finish s r st res).slices = s.slices ∧ (finish s r st res).map = s.map ∧ (finish s r st res).csc = s.csc ∧
    (finish s r st res).encs = s.encs ∧ (finish s r st res).webCfg = s.webCfg ∧
    (finish s r st res).ftb = s.ftb ∧ (finish s r st res).cues = s.cues ∧
    (finish s r st res).pulses = s.pulses ∧ (finish s r st res).dxl = s.dxl ∧ (finish s r st res).asy = s.asy ∧
    (finish s r st res).par = s.par ∧ (finish s r st res).mem = s.mem ∧ (finish s r st res).mot = s.mot ∧
    (finish s r st res).free = s.free ∧ (finish s r st res).mbx.enable = s.mbx.enable ∧
    (finish s r st res).mbx.sqTail = s.mbx.sqTail ∧ (finish s r st res).mbx.sqHead = s.mbx.sqHead ∧
    (finish s r st res).mbx.cqHead = s.mbx.cqHead ∧ (finish s r st res).mbx.cqBase = s.mbx.cqBase ∧
    (finish s r st res).mbx.ring = s.mbx.ring ∧ (finish s r st res).mbx.scratch = s.mbx.scratch ∧
    (finish s r st res).mbx.msix = s.mbx.msix ∧ (finish s r st res).mbx.pcieWidth = s.mbx.pcieWidth ∧
    (finish s r st res).mbx.pcieMts = s.mbx.pcieMts ∧ (finish s r st res).mbx.maxPayload = s.mbx.maxPayload ∧
    (finish s r st res).mbx.maxRead = s.mbx.maxRead ∧
    (finish s r st res).mbx.inFlight = s.mbx.inFlight.erase r ∧
    (finish s r st res).host.failing = s.host.failing ∧
    (finish s r st res).host.poisoned = s.host.poisoned := by
  unfold finish; dsimp only; split <;> simp

/-- Committing changes the command in flight alone. -/
@[simp] theorem commitRunning_frame (s : State) (r : InFlight) (note : List Nat) :
    (commitRunning s r note).pending = s.pending ∧ (commitRunning s r note).boot = s.boot ∧
    (commitRunning s r note).host = s.host ∧ (commitRunning s r note).obs = s.obs ∧
    (commitRunning s r note).quench = s.quench ∧ (commitRunning s r note).sec = s.sec ∧
    (commitRunning s r note).pwr = s.pwr ∧ (commitRunning s r note).anneal = s.anneal ∧
    (commitRunning s r note).pins = s.pins ∧ (commitRunning s r note).cease = s.cease ∧
    (commitRunning s r note).time = s.time ∧ (commitRunning s r note).ports = s.ports ∧
    (commitRunning s r note).ptp = s.ptp ∧ (commitRunning s r note).ptpx = s.ptpx ∧
    (commitRunning s r note).job = s.job ∧ (commitRunning s r note).web = s.web ∧
    (commitRunning s r note).pages = s.pages ∧ (commitRunning s r note).tables = s.tables ∧
    (commitRunning s r note).slices = s.slices ∧ (commitRunning s r note).map = s.map ∧
    (commitRunning s r note).csc = s.csc ∧ (commitRunning s r note).encs = s.encs ∧
    (commitRunning s r note).webCfg = s.webCfg ∧ (commitRunning s r note).ftb = s.ftb ∧
    (commitRunning s r note).cues = s.cues ∧ (commitRunning s r note).pulses = s.pulses ∧
    (commitRunning s r note).dxl = s.dxl ∧ (commitRunning s r note).asy = s.asy ∧
    (commitRunning s r note).par = s.par ∧ (commitRunning s r note).mem = s.mem ∧
    (commitRunning s r note).mot = s.mot ∧ (commitRunning s r note).out = s.out ∧
    (commitRunning s r note).free = s.free ∧ (commitRunning s r note).mbx.enable = s.mbx.enable ∧
    (commitRunning s r note).mbx.sqTail = s.mbx.sqTail ∧ (commitRunning s r note).mbx.sqHead = s.mbx.sqHead ∧
    (commitRunning s r note).mbx.cqHead = s.mbx.cqHead ∧ (commitRunning s r note).mbx.cqBase = s.mbx.cqBase ∧
    (commitRunning s r note).mbx.cqIndex = s.mbx.cqIndex ∧
    (commitRunning s r note).mbx.cqUnread = s.mbx.cqUnread ∧ (commitRunning s r note).mbx.phase = s.mbx.phase ∧
    (commitRunning s r note).mbx.ring = s.mbx.ring ∧ (commitRunning s r note).mbx.scratch = s.mbx.scratch ∧
    (commitRunning s r note).mbx.msix = s.mbx.msix ∧ (commitRunning s r note).mbx.pcieWidth = s.mbx.pcieWidth ∧
    (commitRunning s r note).mbx.pcieMts = s.mbx.pcieMts ∧ (commitRunning s r note).mbx.maxPayload = s.mbx.maxPayload ∧
    (commitRunning s r note).mbx.maxRead = s.mbx.maxRead ∧ (commitRunning s r note).mbx.pba = s.mbx.pba := by
  simp [commitRunning]

/-- A waiting mark changes the command in flight alone. -/
@[simp] theorem markWaiting_frame (s : State) (r : InFlight) :
    (markWaiting s r).pending = s.pending ∧ (markWaiting s r).boot = s.boot ∧ (markWaiting s r).host = s.host ∧
    (markWaiting s r).obs = s.obs ∧ (markWaiting s r).quench = s.quench ∧ (markWaiting s r).sec = s.sec ∧
    (markWaiting s r).pwr = s.pwr ∧ (markWaiting s r).anneal = s.anneal ∧ (markWaiting s r).pins = s.pins ∧
    (markWaiting s r).cease = s.cease ∧ (markWaiting s r).time = s.time ∧ (markWaiting s r).ports = s.ports ∧
    (markWaiting s r).ptp = s.ptp ∧ (markWaiting s r).ptpx = s.ptpx ∧ (markWaiting s r).job = s.job ∧
    (markWaiting s r).web = s.web ∧ (markWaiting s r).pages = s.pages ∧ (markWaiting s r).tables = s.tables ∧
    (markWaiting s r).slices = s.slices ∧ (markWaiting s r).map = s.map ∧ (markWaiting s r).csc = s.csc ∧
    (markWaiting s r).encs = s.encs ∧ (markWaiting s r).webCfg = s.webCfg ∧ (markWaiting s r).ftb = s.ftb ∧
    (markWaiting s r).cues = s.cues ∧ (markWaiting s r).pulses = s.pulses ∧ (markWaiting s r).dxl = s.dxl ∧
    (markWaiting s r).asy = s.asy ∧ (markWaiting s r).par = s.par ∧ (markWaiting s r).mem = s.mem ∧
    (markWaiting s r).mot = s.mot ∧ (markWaiting s r).out = s.out ∧ (markWaiting s r).free = s.free ∧
    (markWaiting s r).mbx.enable = s.mbx.enable ∧ (markWaiting s r).mbx.sqTail = s.mbx.sqTail ∧
    (markWaiting s r).mbx.sqHead = s.mbx.sqHead ∧ (markWaiting s r).mbx.cqHead = s.mbx.cqHead ∧
    (markWaiting s r).mbx.cqBase = s.mbx.cqBase ∧ (markWaiting s r).mbx.cqIndex = s.mbx.cqIndex ∧
    (markWaiting s r).mbx.cqUnread = s.mbx.cqUnread ∧ (markWaiting s r).mbx.phase = s.mbx.phase ∧
    (markWaiting s r).mbx.ring = s.mbx.ring ∧ (markWaiting s r).mbx.scratch = s.mbx.scratch ∧
    (markWaiting s r).mbx.msix = s.mbx.msix ∧ (markWaiting s r).mbx.pcieWidth = s.mbx.pcieWidth ∧
    (markWaiting s r).mbx.pcieMts = s.mbx.pcieMts ∧ (markWaiting s r).mbx.maxPayload = s.mbx.maxPayload ∧
    (markWaiting s r).mbx.maxRead = s.mbx.maxRead ∧ (markWaiting s r).mbx.pba = s.mbx.pba := by
  simp [markWaiting]

end Sys2Proof.Machine
end

