-- ==== Sys2Proof/Laws/Keeps.lean ====
section
/-! SUPPORT. What a fold of updates keeps, and what a mailbox command keeps when its completion, its commit and its own effect
keep it: `p` is any view of the state. -/

namespace Sys2Proof.Machine

/-- What every update of a list leaves as it was, their fold leaves as it was. -/
theorem foldl_keeps {α β : Type} (p : State → β) (g : State → α → State) (h : ∀ b a, p (g b a) = p b) (l : List α) (s : State) :
    p (l.foldl g s) = p s :=
  List.foldlRecOn l g (motive := fun t => p t = p s) rfl fun b hb a _ => (h b a).trans hb

/-- The same where the fold carries a value beside the state. -/
theorem foldl_fst {α β γ : Type} (p : State → γ) (g : State × β → α → State × β) (h : ∀ b a, p (g b a).1 = p b.1) (l : List α)
    (s : State × β) : p (l.foldl g s).1 = p s.1 :=
  List.foldlRecOn l g (motive := fun t => p t.1 = p s.1) rfl fun b hb a _ => (h b a).trans hb

/-! A mailbox command. -/

/-- What a command's own effect keeps, by the kind of its reply. -/
def ReplyKeeps {γ : Type} (p : State → γ) (s : State) : Reply → Prop
  | .done u _ _ => p u = p s
  | .waits => True
  | .runs u _ => p u = p s

theorem replyKeeps_checked {γ : Type} (p : State → γ) (s u : State) (cs : List (Bool × Nat)) (body : State → Reply)
    (hu : p u = p s) (hb : ReplyKeeps p s (body u)) : ReplyKeeps p s (checked u cs body) := by
  unfold checked
  split
  · exact hu
  · exact hb

theorem replyKeeps_withRecord {γ : Type} (p : State → γ) (s u : State) (a n : Nat) (body : List Dword → Reply)
    (hu : p u = p s) (hb : ∀ ds, ReplyKeeps p s (body ds)) : ReplyKeeps p s (withRecord u a n body) := by
  unfold withRecord
  split
  · exact hb _
  · exact hu

/-- A mailbox command keeps what its completion, its commit and its own effect keep. -/
theorem command_keeps {γ : Type} (p : State → γ) (hf : ∀ u r st res, p (finish u r st res) = p u)
    (hr : ∀ u r n, p (commitRunning u r n) = p u) (hm : ∀ u r, p (markWaiting u r) = p u) {ops e body s v}
    (hu : p s = p v) (hb : ∀ r, ReplyKeeps p v (body r s)) : p (command ops e body s) = p v := by
  unfold command
  split
  · split
    · exact hu
    · rename_i r _
      split
      · rw [hf, hu]
      · have h := hb r
        revert h
        unfold settle
        cases body r s <;> simp [ReplyKeeps, hf, hr, hm, hu]
  · exact hu

end Sys2Proof.Machine
end

