-- ==== Sys2Proof/WellFormed.lean ====
section
/-! DEFINITION. Well-formed commands: the operands a sender can form. A submission entry has 16 dwords and its row's opcode
(R385, R394 to R397); indices name lanes, groups, modules, ports and axes that exist; message words keep their widths. A
command that is not well formed is not in the table; the machine gives it no effect of its own. -/

namespace Sys2Proof

/-- A number below a bound. -/
def below (n k : Nat) : Bool := decide (k < n)

/-- A submission entry: 16 dwords, opcode `op` in dword 0 bits 31 to 16 (R385). -/
def entryOk (op : Nat) (e : Entry) : Bool :=
  decide (e.words.length = 16) && decide ((e.words.getD 0 0).toNat / 2 ^ 16 = op)

/-- A store into the submission ring: one of its 256 entries (R385). -/
def ringStoreOk (r : RingStore) : Bool := below 256 r.index && decide (r.entry.words.length = 16)

/-- A byte of host memory: a 64-bit address. -/
def hostCellOk (c : Host.Cell) : Bool := decide (c.1 < 2 ^ 64)

/-- A module-plane: module 0 to 39, plane-in-module 0 to 3 (R31). -/
def planeOk (m q : Nat) : Bool := below 40 m && below 4 q

/-- A row in DRAM: channel 0 to 11, rank 0 to 3, bank group 0 to 7, bank 0 to 3, row 0 to 131,071 (R293, R314). -/
def placeFits (p : Place) : Bool :=
  below 12 p.channel && below 4 p.rank && below 8 p.bg && below 4 p.bank && below 131072 p.row

/-- A write of one burst, 64 bytes aligned (R295). -/
def writeFits (w : BurstWrite) : Bool := placeFits w.place && w.other.all placeFits && decide (w.addr % 64 = 0)

/-- A read of one burst, 64 bytes aligned (R301). -/
def readFits (r : BurstRead) : Bool :=
  placeFits r.copy0.place && (r.copy1.all fun c => placeFits c.place) && r.newer.all writeFits && decide (r.addr % 64 = 0)

/-- A partner message: its sequence number has 24 bits (R268). -/
def msgOk (m : PMsg) : Bool := below (2 ^ 24) m.mseq

/-- A command that its sender can form. -/
def Instr.wellFormed (i : Instr) : Bool :=
  match i with
  | .powerOnReset => true
  | .resetN => true
  | .endpointReset => true
  | .chipReset _ => true
  | .bootGo _ image => decide (image.length ≤ 0x00F00000)
  | .bootVerifyDone => true
  | .bootStartDone => true
  | .mbxEnable => true
  | .mbxDisable => true
  | .doorbell _ ring stores => ring.all ringStoreOk && stores.all hostCellOk
  | .timNsecRead => true
  | .registerWrite offset _ => decide (offset % 4 = 0 ∧ offset < 0x100000)
  | .commandFetch => true
  | .unknownOpcode e => decide (e.words.length = 16)
  | .jobOpen e => entryOk 0x0101 e
  | .jobClose e => entryOk 0x0102 e
  | .pageLoad e => entryOk 0x0103 e
  | .pageCommit e => entryOk 0x0104 e
  | .pageAbort e => entryOk 0x0105 e
  | .pageStatus e => entryOk 0x0106 e
  | .doffsetSet e => entryOk 0x0107 e
  | .xshiftSet e => entryOk 0x0108 e
  | .webConfig e => entryOk 0x0109 e
  | .encConfig e => entryOk 0x010A e
  | .gearSet e => entryOk 0x010B e
  | .lineReference e => entryOk 0x010C e
  | .paceSet e => entryOk 0x010D e
  | .cueConfig e => entryOk 0x010E e
  | .cueRead e => entryOk 0x010F e
  | .pulseConfig e => entryOk 0x0110 e
  | .fireTrim e => entryOk 0x0111 e
  | .linkEqLoad e => entryOk 0x0112 e
  | .ceaseClear e => entryOk 0x0113 e
  | .webStatus e => entryOk 0x0114 e
  | .linkStatus e => entryOk 0x0115 e
  | .mapPush e => entryOk 0x0201 e
  | .curveLoad e => entryOk 0x0202 e
  | .screenLoad e => entryOk 0x0203 e
  | .stitchLoad e => entryOk 0x0204 e
  | .mapRead e => entryOk 0x0205 e
  | .assaySetup e => entryOk 0x0301 e
  | .assayStop e => entryOk 0x0302 e
  | .assayLock e => entryOk 0x0303 e
  | .censusRequest e => entryOk 0x0304 e
  | .assayResults e => entryOk 0x0305 e
  | .assayPixels e => entryOk 0x0306 e
  | .memConfig e _ => entryOk 0x0401 e
  | .memRegions e => entryOk 0x0402 e
  | .burnishRun e => entryOk 0x0403 e
  | .burnishStop e => entryOk 0x0404 e
  | .memMigrate e => entryOk 0x0405 e
  | .memRetire turn => entryOk 0x0406 turn.entry && turn.row.all readFits
  | .culletRead e => entryOk 0x0407 e
  | .memStatus e => entryOk 0x0408 e
  | .axisConfig e => entryOk 0x0501 e
  | .axisMove e => entryOk 0x0502 e
  | .axisStop e => entryOk 0x0503 e
  | .axisLimits e => entryOk 0x0504 e
  | .axisHome e => entryOk 0x0505 e
  | .tableLoad e => entryOk 0x0506 e
  | .tableRun e => entryOk 0x0507 e
  | .axisScale e => entryOk 0x0508 e
  | .axisStatus e => entryOk 0x0509 e
  | .cspiConfig e => entryOk 0x0601 e
  | .loopConfig e => entryOk 0x0602 e
  | .loopMode e => entryOk 0x0603 e
  | .loopTune e => entryOk 0x0604 e
  | .loopSetpoint e => entryOk 0x0605 e
  | .loopStatus e => entryOk 0x0606 e
  | .netConfig e => entryOk 0x0701 e
  | .ptpConfig e => entryOk 0x0702 e
  | .servoConfig e => entryOk 0x0703 e
  | .timeSet e => entryOk 0x0704 e
  | .timeStep e => entryOk 0x0704 e
  | .timeAdj e => entryOk 0x0705 e
  | .timeRead e => entryOk 0x0706 e
  | .ptpStatus e => entryOk 0x0707 e
  | .netStatus e => entryOk 0x0708 e
  | .pairConfig e => entryOk 0x0801 e
  | .roleFound e => entryOk 0x0802 e
  | .pairRejoin e _ => entryOk 0x0803 e
  | .rejoinAuto _ => true
  | .pairStatus e => entryOk 0x0804 e
  | .powerState e => entryOk 0x0901 e
  | .vcoreSet turn => entryOk 0x0902 turn.entry
  | .annealIfDue e => entryOk 0x0903 e
  | .annealForce e => entryOk 0x0903 e
  | .annealInhibit e => entryOk 0x0903 e
  | .keepApplyRecord e _ => entryOk 0x0904 e
  | .keepReadImage e => entryOk 0x0904 e
  | .keepClearSlots e _ => entryOk 0x0904 e
  | .powerStatus e => entryOk 0x0905 e
  | .ceaseIssue e => entryOk 0x0906 e
  | .seal e _ => entryOk 0x0907 e
  | .retire e _ => entryOk 0x0907 e
  | .rollbackAdvance e _ => entryOk 0x0907 e
  | .debugChallenge e => entryOk 0x0908 e
  | .debugUnlock e => entryOk 0x0909 e
  | .moduleAuth e => entryOk 0x090A e
  | .secStatus e => entryOk 0x090B e
  | .quenchArm e => entryOk 0x0A01 e
  | .quenchDisarm e => entryOk 0x0A01 e
  | .quenchFire e => entryOk 0x0A02 e
  | .quenchRead e => entryOk 0x0A03 e
  | .eventRead e => entryOk 0x0A04 e
  | .eventMask e => entryOk 0x0A05 e
  | .counterRead e => entryOk 0x0A06 e
  | .counterClear e => entryOk 0x0A07 e
  | .telemetryRead e _ => entryOk 0x0A08 e
  | .dmaReadCompletion addr len _ => decide (1 ≤ len ∧ len ≤ 512) && decide (addr < 2 ^ 64)
  | .blockStore => true
  | .encCount ch _ _ _ => below 12 ch
  | .indexRise ch _ => below 12 ch
  | .lineTick _ => true
  | .heldTickIssue _ => true
  | .pacingTick _ => true
  | .webStill _ => true
  | .rateReading _ => true
  | .paceReading pace => decide (pace.length = 40) && pace.all (below (2 ^ 16))
  | .cueCapture ch _ _ => below 4 ch
  | .recordComplete m q _ => planeOk m q
  | .sliceDeadline m q _ => planeOk m q
  | .refillFix => true
  | .schedLate m q _ => planeOk m q
  | .recordRelease m => below 40 m
  | .overspeed => true
  | .mapApplied => true
  | .generationForm => true
  | .healthPulse => true
  | .sentinelLapse _ => true
  | .roleSelRise => true
  | .roleSelFall => true
  | .ceaseN => true
  | .ceaseNRelease => true
  | .ceaseUnconfirmed => true
  | .supplySag => true
  | .saveDone _ => true
  | .quenchPin => true
  | .quenchLatch => true
  | .laneDetect lane => below 172 lane
  | .polarityCount lane _ => below 172 lane
  | .slipTrial lane _ => below 172 lane
  | .markLock lane logical => below 172 lane && below 4 logical
  | .groupBringup x => below 45 x.g && below 4 x.rate
  | .spareAbsent g => below 45 g
  | .los lane => below 172 lane
  | .lol lane _ => below 172 lane
  | .restripeReq g llane _ => below 45 g && below 3 llane
  | .restripe g llane phys _ _ => below 45 g && below 4 llane && below 4 phys
  | .restripeSwitch g _ => below 45 g
  | .mark g body => below 45 g && below 64 body.echo
  | .held g q rseq _ => planeOk g q && below 256 rseq
  | .resend g q rseq => planeOk g q && below 256 rseq
  | .status g _ => below 40 g
  | .mapack g _ _ _ => below 40 g
  | .mcrcTimeout g => below 40 g
  | .ehr g _ _ => below 40 g
  | .tmdata g offset _ => below 45 g && below 16384 offset
  | .temp g _ _ => below 45 g
  | .echoRsp g _ _ _ => below 45 g
  | .latencyMeasure g => below 45 g
  | .fault g q _ _ => planeOk g q
  | .ceased g cseq => below 40 g && below 256 cseq
  | .scan k trig _ _ _ => below 4 k && below (2 ^ 16) trig
  | .scanend k trig _ _ => below 4 k && below (2 ^ 16) trig
  | .censusDone plane => below 16 plane
  | .assayMap => true
  | .assayCurves => true
  | .gen msg => msgOk msg
  | .curves msg => msgOk msg
  | .page msg => msgOk msg
  | .pageend msg => msgOk msg
  | .posref msg _ _ => msgOk msg
  | .motion msg => msgOk msg
  | .tsync msg _ => msgOk msg
  | .digest msg => msgOk msg
  | .block msg => msgOk msg
  | .locks msg => msgOk msg
  | .prho tickLo rho => below (2 ^ 16) tickLo && below (2 ^ 21) rho
  | .poos m q _ _ => planeOk m q
  | .ptsync token => below 256 token
  | .ptsyncSend => true
  | .posrefSend => true
  | .motionSend => true
  | .locksSend => true
  | .partnerMark role _ => below 4 role
  | .partnerDown => true
  | .partnerUp => true
  | .memRead x => (x.arrived.all fun q => placeFits q.place) && readFits x.read
  | .writeDrain ch arrived => below 12 ch && arrived.all writeFits
  | .refreshDue ch rank arrived => below 12 ch && below 4 rank && arrived.all fun q => placeFits q.place
  | .dramTempRead ch rank _ => below 12 ch && below 4 rank
  | .burnishDone => true
  | .migrationStart ch rank => below 12 ch && below 4 rank
  | .rankMigrated ch => below 12 ch
  | .fwReload _ => true
  | .planningStep => true
  | .switchSample _ => true
  | .stall ax => below 8 ax
  | .holdCurrent ax => below 8 ax
  | .loopSample late => late.all (below 32)
  | .cspiTransfer dev _ => below 32 dev
  | .ainConversion i _ => below 5 i
  | .timeTick => true
  | .sync port _ _ _ _ _ => below 2 port
  | .followUp port _ _ _ => below 2 port
  | .delayReq port _ _ _ => below 2 port
  | .delayResp port _ _ _ => below 2 port
  | .announce port _ _ _ => below 2 port
  | .arpRequest port _ => below 2 port
  | .frameForward port _ _ _ _ _ => below 2 port
  | .syncSend => true
  | .announceSend => true
  | .delayReqSend _ => true
  | .syncTimeout => true
  | .announceTimeout => true
  | .netLink port _ => below 2 port
  | .rateWindow => true
  | .challengeLapse => true
  | .temperatureSample _ => true
  | .annealStart => true
  | .annealDone _ => true
  | .ainRecalibrate i => below 4 i
  | .calibRecompute => true
  | .jtagInstruction _ => true
  | .dbgAccessRead _ => true
  | .dbgAccessWrite _ => true
  | .chkFail lane => below 172 lane
  | .stuffingViolation lane => below 172 lane
  | .cmdError ch rank _ => below 12 ch && below 4 rank
  | .frameDiscarded port => below 2 port
  | .refTimeout => true
  | .powerLoss => true
  | .voutSettled _ => true

end Sys2Proof
end

