-- ==== Sys2Proof/Laws/PerInstr.lean ====
section
/-! SUPPORT. A statement of every command's syntax: a well-formed mailbox command is a submission entry of 16 dwords that
carries an assigned opcode, the one of its row (R385, R393). One lemma per command. -/

set_option Elab.async false

namespace Sys2Proof.Laws
open Sys2Proof Sys2Proof.Machine

/-- What the entry of a well-formed mailbox command is. -/
def EntryForm.Statement (i : Instr) : Prop :=
  i.wellFormed = true → ∀ (op : Nat) (e : Entry), mailboxOf i = some (op, e) →
    e.words.length = 16 ∧ (rdw e.words 0).toNat / 2 ^ 16 = op ∧ assigned op = true

theorem EntryForm.of_entry {op : Nat} {e : Entry} (h : entryOk op e = true) (ha : assigned op = true) :
    e.words.length = 16 ∧ (rdw e.words 0).toNat / 2 ^ 16 = op ∧ assigned op = true := by
  simp only [entryOk, Bool.and_eq_true, decide_eq_true_eq] at h
  exact ⟨h.1, h.2, ha⟩

theorem EntryForm.powerOnReset : EntryForm.Statement (.powerOnReset) := nofun
theorem EntryForm.resetN : EntryForm.Statement (.resetN) := nofun
theorem EntryForm.endpointReset : EntryForm.Statement (.endpointReset) := nofun
theorem EntryForm.chipReset (value : Dword) : EntryForm.Statement (.chipReset value) := nofun
theorem EntryForm.bootGo (value : Dword) (image : List Byte) : EntryForm.Statement (.bootGo value image) := nofun
theorem EntryForm.bootVerifyDone : EntryForm.Statement (.bootVerifyDone) := nofun
theorem EntryForm.bootStartDone : EntryForm.Statement (.bootStartDone) := nofun
theorem EntryForm.mbxEnable : EntryForm.Statement (.mbxEnable) := nofun
theorem EntryForm.mbxDisable : EntryForm.Statement (.mbxDisable) := nofun
theorem EntryForm.doorbell (tail : Dword) (ring : List RingStore) (stores : List Host.Cell) : EntryForm.Statement (.doorbell tail ring stores) := nofun
theorem EntryForm.timNsecRead : EntryForm.Statement (.timNsecRead) := nofun
theorem EntryForm.registerWrite (offset : Nat) (value : Dword) : EntryForm.Statement (.registerWrite offset value) := nofun
theorem EntryForm.commandFetch : EntryForm.Statement (.commandFetch) := nofun
theorem EntryForm.unknownOpcode (e : Entry) : EntryForm.Statement (.unknownOpcode e) := nofun
theorem EntryForm.jobOpen (e : Entry) : EntryForm.Statement (.jobOpen e) := by
  rintro h _ _ ⟨⟩; exact EntryForm.of_entry h (by decide)
theorem EntryForm.jobClose (e : Entry) : EntryForm.Statement (.jobClose e) := by
  rintro h _ _ ⟨⟩; exact EntryForm.of_entry h (by decide)
theorem EntryForm.pageLoad (e : Entry) : EntryForm.Statement (.pageLoad e) := by
  rintro h _ _ ⟨⟩; exact EntryForm.of_entry h (by decide)
theorem EntryForm.pageCommit (e : Entry) : EntryForm.Statement (.pageCommit e) := by
  rintro h _ _ ⟨⟩; exact EntryForm.of_entry h (by decide)
theorem EntryForm.pageAbort (e : Entry) : EntryForm.Statement (.pageAbort e) := by
  rintro h _ _ ⟨⟩; exact EntryForm.of_entry h (by decide)
theorem EntryForm.pageStatus (e : Entry) : EntryForm.Statement (.pageStatus e) := by
  rintro h _ _ ⟨⟩; exact EntryForm.of_entry h (by decide)
theorem EntryForm.doffsetSet (e : Entry) : EntryForm.Statement (.doffsetSet e) := by
  rintro h _ _ ⟨⟩; exact EntryForm.of_entry h (by decide)
theorem EntryForm.xshiftSet (e : Entry) : EntryForm.Statement (.xshiftSet e) := by
  rintro h _ _ ⟨⟩; exact EntryForm.of_entry h (by decide)
theorem EntryForm.webConfig (e : Entry) : EntryForm.Statement (.webConfig e) := by
  rintro h _ _ ⟨⟩; exact EntryForm.of_entry h (by decide)
theorem EntryForm.encConfig (e : Entry) : EntryForm.Statement (.encConfig e) := by
  rintro h _ _ ⟨⟩; exact EntryForm.of_entry h (by decide)
theorem EntryForm.gearSet (e : Entry) : EntryForm.Statement (.gearSet e) := by
  rintro h _ _ ⟨⟩; exact EntryForm.of_entry h (by decide)
theorem EntryForm.lineReference (e : Entry) : EntryForm.Statement (.lineReference e) := by
  rintro h _ _ ⟨⟩; exact EntryForm.of_entry h (by decide)
theorem EntryForm.paceSet (e : Entry) : EntryForm.Statement (.paceSet e) := by
  rintro h _ _ ⟨⟩; exact EntryForm.of_entry h (by decide)
theorem EntryForm.cueConfig (e : Entry) : EntryForm.Statement (.cueConfig e) := by
  rintro h _ _ ⟨⟩; exact EntryForm.of_entry h (by decide)
theorem EntryForm.cueRead (e : Entry) : EntryForm.Statement (.cueRead e) := by
  rintro h _ _ ⟨⟩; exact EntryForm.of_entry h (by decide)
theorem EntryForm.pulseConfig (e : Entry) : EntryForm.Statement (.pulseConfig e) := by
  rintro h _ _ ⟨⟩; exact EntryForm.of_entry h (by decide)
theorem EntryForm.fireTrim (e : Entry) : EntryForm.Statement (.fireTrim e) := by
  rintro h _ _ ⟨⟩; exact EntryForm.of_entry h (by decide)
theorem EntryForm.linkEqLoad (e : Entry) : EntryForm.Statement (.linkEqLoad e) := by
  rintro h _ _ ⟨⟩; exact EntryForm.of_entry h (by decide)
theorem EntryForm.ceaseClear (e : Entry) : EntryForm.Statement (.ceaseClear e) := by
  rintro h _ _ ⟨⟩; exact EntryForm.of_entry h (by decide)
theorem EntryForm.webStatus (e : Entry) : EntryForm.Statement (.webStatus e) := by
  rintro h _ _ ⟨⟩; exact EntryForm.of_entry h (by decide)
theorem EntryForm.linkStatus (e : Entry) : EntryForm.Statement (.linkStatus e) := by
  rintro h _ _ ⟨⟩; exact EntryForm.of_entry h (by decide)
theorem EntryForm.mapPush (e : Entry) : EntryForm.Statement (.mapPush e) := by
  rintro h _ _ ⟨⟩; exact EntryForm.of_entry h (by decide)
theorem EntryForm.curveLoad (e : Entry) : EntryForm.Statement (.curveLoad e) := by
  rintro h _ _ ⟨⟩; exact EntryForm.of_entry h (by decide)
theorem EntryForm.screenLoad (e : Entry) : EntryForm.Statement (.screenLoad e) := by
  rintro h _ _ ⟨⟩; exact EntryForm.of_entry h (by decide)
theorem EntryForm.stitchLoad (e : Entry) : EntryForm.Statement (.stitchLoad e) := by
  rintro h _ _ ⟨⟩; exact EntryForm.of_entry h (by decide)
theorem EntryForm.mapRead (e : Entry) : EntryForm.Statement (.mapRead e) := by
  rintro h _ _ ⟨⟩; exact EntryForm.of_entry h (by decide)
theorem EntryForm.assaySetup (e : Entry) : EntryForm.Statement (.assaySetup e) := by
  rintro h _ _ ⟨⟩; exact EntryForm.of_entry h (by decide)
theorem EntryForm.assayStop (e : Entry) : EntryForm.Statement (.assayStop e) := by
  rintro h _ _ ⟨⟩; exact EntryForm.of_entry h (by decide)
theorem EntryForm.assayLock (e : Entry) : EntryForm.Statement (.assayLock e) := by
  rintro h _ _ ⟨⟩; exact EntryForm.of_entry h (by decide)
theorem EntryForm.censusRequest (e : Entry) : EntryForm.Statement (.censusRequest e) := by
  rintro h _ _ ⟨⟩; exact EntryForm.of_entry h (by decide)
theorem EntryForm.assayResults (e : Entry) : EntryForm.Statement (.assayResults e) := by
  rintro h _ _ ⟨⟩; exact EntryForm.of_entry h (by decide)
theorem EntryForm.assayPixels (e : Entry) : EntryForm.Statement (.assayPixels e) := by
  rintro h _ _ ⟨⟩; exact EntryForm.of_entry h (by decide)
theorem EntryForm.memConfig (e : Entry) (found : Population) : EntryForm.Statement (.memConfig e found) := by
  rintro h _ _ ⟨⟩; exact EntryForm.of_entry h (by decide)
theorem EntryForm.memRegions (e : Entry) : EntryForm.Statement (.memRegions e) := by
  rintro h _ _ ⟨⟩; exact EntryForm.of_entry h (by decide)
theorem EntryForm.burnishRun (e : Entry) : EntryForm.Statement (.burnishRun e) := by
  rintro h _ _ ⟨⟩; exact EntryForm.of_entry h (by decide)
theorem EntryForm.burnishStop (e : Entry) : EntryForm.Statement (.burnishStop e) := by
  rintro h _ _ ⟨⟩; exact EntryForm.of_entry h (by decide)
theorem EntryForm.memMigrate (e : Entry) : EntryForm.Statement (.memMigrate e) := by
  rintro h _ _ ⟨⟩; exact EntryForm.of_entry h (by decide)
theorem EntryForm.memRetire (turn : RetireTurn) : EntryForm.Statement (.memRetire turn) := by
  rintro h _ _ ⟨⟩; exact EntryForm.of_entry ((Bool.and_eq_true _ _).mp h).1 (by decide)
theorem EntryForm.culletRead (e : Entry) : EntryForm.Statement (.culletRead e) := by
  rintro h _ _ ⟨⟩; exact EntryForm.of_entry h (by decide)
theorem EntryForm.memStatus (e : Entry) : EntryForm.Statement (.memStatus e) := by
  rintro h _ _ ⟨⟩; exact EntryForm.of_entry h (by decide)
theorem EntryForm.axisConfig (e : Entry) : EntryForm.Statement (.axisConfig e) := by
  rintro h _ _ ⟨⟩; exact EntryForm.of_entry h (by decide)
theorem EntryForm.axisMove (e : Entry) : EntryForm.Statement (.axisMove e) := by
  rintro h _ _ ⟨⟩; exact EntryForm.of_entry h (by decide)
theorem EntryForm.axisStop (e : Entry) : EntryForm.Statement (.axisStop e) := by
  rintro h _ _ ⟨⟩; exact EntryForm.of_entry h (by decide)
theorem EntryForm.axisLimits (e : Entry) : EntryForm.Statement (.axisLimits e) := by
  rintro h _ _ ⟨⟩; exact EntryForm.of_entry h (by decide)
theorem EntryForm.axisHome (e : Entry) : EntryForm.Statement (.axisHome e) := by
  rintro h _ _ ⟨⟩; exact EntryForm.of_entry h (by decide)
theorem EntryForm.tableLoad (e : Entry) : EntryForm.Statement (.tableLoad e) := by
  rintro h _ _ ⟨⟩; exact EntryForm.of_entry h (by decide)
theorem EntryForm.tableRun (e : Entry) : EntryForm.Statement (.tableRun e) := by
  rintro h _ _ ⟨⟩; exact EntryForm.of_entry h (by decide)
theorem EntryForm.axisScale (e : Entry) : EntryForm.Statement (.axisScale e) := by
  rintro h _ _ ⟨⟩; exact EntryForm.of_entry h (by decide)
theorem EntryForm.axisStatus (e : Entry) : EntryForm.Statement (.axisStatus e) := by
  rintro h _ _ ⟨⟩; exact EntryForm.of_entry h (by decide)
theorem EntryForm.cspiConfig (e : Entry) : EntryForm.Statement (.cspiConfig e) := by
  rintro h _ _ ⟨⟩; exact EntryForm.of_entry h (by decide)
theorem EntryForm.loopConfig (e : Entry) : EntryForm.Statement (.loopConfig e) := by
  rintro h _ _ ⟨⟩; exact EntryForm.of_entry h (by decide)
theorem EntryForm.loopMode (e : Entry) : EntryForm.Statement (.loopMode e) := by
  rintro h _ _ ⟨⟩; exact EntryForm.of_entry h (by decide)
theorem EntryForm.loopTune (e : Entry) : EntryForm.Statement (.loopTune e) := by
  rintro h _ _ ⟨⟩; exact EntryForm.of_entry h (by decide)
theorem EntryForm.loopSetpoint (e : Entry) : EntryForm.Statement (.loopSetpoint e) := by
  rintro h _ _ ⟨⟩; exact EntryForm.of_entry h (by decide)
theorem EntryForm.loopStatus (e : Entry) : EntryForm.Statement (.loopStatus e) := by
  rintro h _ _ ⟨⟩; exact EntryForm.of_entry h (by decide)
theorem EntryForm.netConfig (e : Entry) : EntryForm.Statement (.netConfig e) := by
  rintro h _ _ ⟨⟩; exact EntryForm.of_entry h (by decide)
theorem EntryForm.ptpConfig (e : Entry) : EntryForm.Statement (.ptpConfig e) := by
  rintro h _ _ ⟨⟩; exact EntryForm.of_entry h (by decide)
theorem EntryForm.servoConfig (e : Entry) : EntryForm.Statement (.servoConfig e) := by
  rintro h _ _ ⟨⟩; exact EntryForm.of_entry h (by decide)
theorem EntryForm.timeSet (e : Entry) : EntryForm.Statement (.timeSet e) := by
  intro h op e' he
  simp only [mailboxOf] at he
  split at he <;> cases he
  exact EntryForm.of_entry h (by decide)
theorem EntryForm.timeStep (e : Entry) : EntryForm.Statement (.timeStep e) := by
  intro h op e' he
  simp only [mailboxOf] at he
  split at he <;> cases he
  exact EntryForm.of_entry h (by decide)
theorem EntryForm.timeAdj (e : Entry) : EntryForm.Statement (.timeAdj e) := by
  rintro h _ _ ⟨⟩; exact EntryForm.of_entry h (by decide)
theorem EntryForm.timeRead (e : Entry) : EntryForm.Statement (.timeRead e) := by
  rintro h _ _ ⟨⟩; exact EntryForm.of_entry h (by decide)
theorem EntryForm.ptpStatus (e : Entry) : EntryForm.Statement (.ptpStatus e) := by
  rintro h _ _ ⟨⟩; exact EntryForm.of_entry h (by decide)
theorem EntryForm.netStatus (e : Entry) : EntryForm.Statement (.netStatus e) := by
  rintro h _ _ ⟨⟩; exact EntryForm.of_entry h (by decide)
theorem EntryForm.pairConfig (e : Entry) : EntryForm.Statement (.pairConfig e) := by
  rintro h _ _ ⟨⟩; exact EntryForm.of_entry h (by decide)
theorem EntryForm.roleFound (e : Entry) : EntryForm.Statement (.roleFound e) := by
  rintro h _ _ ⟨⟩; exact EntryForm.of_entry h (by decide)
theorem EntryForm.pairRejoin (e : Entry) (partnerVersion : Dword) : EntryForm.Statement (.pairRejoin e partnerVersion) := by
  rintro h _ _ ⟨⟩; exact EntryForm.of_entry h (by decide)
theorem EntryForm.rejoinAuto (partnerVersion : Dword) : EntryForm.Statement (.rejoinAuto partnerVersion) := nofun
theorem EntryForm.pairStatus (e : Entry) : EntryForm.Statement (.pairStatus e) := by
  rintro h _ _ ⟨⟩; exact EntryForm.of_entry h (by decide)
theorem EntryForm.powerState (e : Entry) : EntryForm.Statement (.powerState e) := by
  rintro h _ _ ⟨⟩; exact EntryForm.of_entry h (by decide)
theorem EntryForm.vcoreSet (turn : VcoreTurn) : EntryForm.Statement (.vcoreSet turn) := by
  rintro h _ _ ⟨⟩; exact EntryForm.of_entry h (by decide)
theorem EntryForm.annealIfDue (e : Entry) : EntryForm.Statement (.annealIfDue e) := by
  intro h op e' he
  simp only [mailboxOf] at he
  split at he <;> cases he
  exact EntryForm.of_entry h (by decide)
theorem EntryForm.annealForce (e : Entry) : EntryForm.Statement (.annealForce e) := by
  intro h op e' he
  simp only [mailboxOf] at he
  split at he <;> cases he
  exact EntryForm.of_entry h (by decide)
theorem EntryForm.annealInhibit (e : Entry) : EntryForm.Statement (.annealInhibit e) := by
  intro h op e' he
  simp only [mailboxOf] at he
  split at he <;> cases he
  exact EntryForm.of_entry h (by decide)
theorem EntryForm.keepApplyRecord (e : Entry) (sfdp : Dword) : EntryForm.Statement (.keepApplyRecord e sfdp) := by
  intro h op e' he
  simp only [mailboxOf] at he
  split at he <;> cases he
  exact EntryForm.of_entry h (by decide)
theorem EntryForm.keepReadImage (e : Entry) : EntryForm.Statement (.keepReadImage e) := by
  intro h op e' he
  simp only [mailboxOf] at he
  split at he <;> cases he
  exact EntryForm.of_entry h (by decide)
theorem EntryForm.keepClearSlots (e : Entry) (sfdp : Dword) : EntryForm.Statement (.keepClearSlots e sfdp) := by
  intro h op e' he
  simp only [mailboxOf] at he
  split at he <;> cases he
  exact EntryForm.of_entry h (by decide)
theorem EntryForm.powerStatus (e : Entry) : EntryForm.Statement (.powerStatus e) := by
  rintro h _ _ ⟨⟩; exact EntryForm.of_entry h (by decide)
theorem EntryForm.ceaseIssue (e : Entry) : EntryForm.Statement (.ceaseIssue e) := by
  rintro h _ _ ⟨⟩; exact EntryForm.of_entry h (by decide)
theorem EntryForm.seal (e : Entry) (stopAfter : Option Nat) : EntryForm.Statement (.seal e stopAfter) := by
  intro h op e' he
  simp only [mailboxOf] at he
  split at he <;> cases he
  exact EntryForm.of_entry h (by decide)
theorem EntryForm.retire (e : Entry) (stopAfter : Option Nat) : EntryForm.Statement (.retire e stopAfter) := by
  intro h op e' he
  simp only [mailboxOf] at he
  split at he <;> cases he
  exact EntryForm.of_entry h (by decide)
theorem EntryForm.rollbackAdvance (e : Entry) (stopAfter : Option Nat) : EntryForm.Statement (.rollbackAdvance e stopAfter) := by
  intro h op e' he
  simp only [mailboxOf] at he
  split at he <;> cases he
  exact EntryForm.of_entry h (by decide)
theorem EntryForm.debugChallenge (e : Entry) : EntryForm.Statement (.debugChallenge e) := by
  rintro h _ _ ⟨⟩; exact EntryForm.of_entry h (by decide)
theorem EntryForm.debugUnlock (e : Entry) : EntryForm.Statement (.debugUnlock e) := by
  rintro h _ _ ⟨⟩; exact EntryForm.of_entry h (by decide)
theorem EntryForm.moduleAuth (e : Entry) : EntryForm.Statement (.moduleAuth e) := by
  rintro h _ _ ⟨⟩; exact EntryForm.of_entry h (by decide)
theorem EntryForm.secStatus (e : Entry) : EntryForm.Statement (.secStatus e) := by
  rintro h _ _ ⟨⟩; exact EntryForm.of_entry h (by decide)
theorem EntryForm.quenchArm (e : Entry) : EntryForm.Statement (.quenchArm e) := by
  intro h op e' he
  simp only [mailboxOf] at he
  split at he <;> cases he
  exact EntryForm.of_entry h (by decide)
theorem EntryForm.quenchDisarm (e : Entry) : EntryForm.Statement (.quenchDisarm e) := by
  intro h op e' he
  simp only [mailboxOf] at he
  split at he <;> cases he
  exact EntryForm.of_entry h (by decide)
theorem EntryForm.quenchFire (e : Entry) : EntryForm.Statement (.quenchFire e) := by
  rintro h _ _ ⟨⟩; exact EntryForm.of_entry h (by decide)
theorem EntryForm.quenchRead (e : Entry) : EntryForm.Statement (.quenchRead e) := by
  rintro h _ _ ⟨⟩; exact EntryForm.of_entry h (by decide)
theorem EntryForm.eventRead (e : Entry) : EntryForm.Statement (.eventRead e) := by
  rintro h _ _ ⟨⟩; exact EntryForm.of_entry h (by decide)
theorem EntryForm.eventMask (e : Entry) : EntryForm.Statement (.eventMask e) := by
  rintro h _ _ ⟨⟩; exact EntryForm.of_entry h (by decide)
theorem EntryForm.counterRead (e : Entry) : EntryForm.Statement (.counterRead e) := by
  rintro h _ _ ⟨⟩; exact EntryForm.of_entry h (by decide)
theorem EntryForm.counterClear (e : Entry) : EntryForm.Statement (.counterClear e) := by
  rintro h _ _ ⟨⟩; exact EntryForm.of_entry h (by decide)
theorem EntryForm.telemetryRead (e : Entry) (rails : List Dword) : EntryForm.Statement (.telemetryRead e rails) := by
  rintro h _ _ ⟨⟩; exact EntryForm.of_entry h (by decide)
theorem EntryForm.dmaReadCompletion (addr len : Nat) (outcome : DmaEnd) : EntryForm.Statement (.dmaReadCompletion addr len outcome) := nofun
theorem EntryForm.blockStore : EntryForm.Statement (.blockStore) := nofun
theorem EntryForm.encCount (ch : Nat) (a b : Bool) (edge : Edge) : EntryForm.Statement (.encCount ch a b edge) := nofun
theorem EntryForm.indexRise (ch : Nat) (edge : Edge) : EntryForm.Statement (.indexRise ch edge) := nofun
theorem EntryForm.lineTick (t : Nat) : EntryForm.Statement (.lineTick t) := nofun
theorem EntryForm.heldTickIssue (t : Nat) : EntryForm.Statement (.heldTickIssue t) := nofun
theorem EntryForm.pacingTick (t : Nat) : EntryForm.Statement (.pacingTick t) := nofun
theorem EntryForm.webStill (t : Nat) : EntryForm.Statement (.webStill t) := nofun
theorem EntryForm.rateReading (t : Nat) : EntryForm.Statement (.rateReading t) := nofun
theorem EntryForm.paceReading (pace : List Nat) : EntryForm.Statement (.paceReading pace) := nofun
theorem EntryForm.cueCapture (ch : Nat) (rising : Bool) (edge : Edge) : EntryForm.Statement (.cueCapture ch rising edge) := nofun
theorem EntryForm.recordComplete (m q : Nat) (n : Int) : EntryForm.Statement (.recordComplete m q n) := nofun
theorem EntryForm.sliceDeadline (m q : Nat) (n : Int) : EntryForm.Statement (.sliceDeadline m q n) := nofun
theorem EntryForm.refillFix : EntryForm.Statement (.refillFix) := nofun
theorem EntryForm.schedLate (m q : Nat) (n : Int) : EntryForm.Statement (.schedLate m q n) := nofun
theorem EntryForm.recordRelease (m : Nat) : EntryForm.Statement (.recordRelease m) := nofun
theorem EntryForm.overspeed : EntryForm.Statement (.overspeed) := nofun
theorem EntryForm.mapApplied : EntryForm.Statement (.mapApplied) := nofun
theorem EntryForm.generationForm : EntryForm.Statement (.generationForm) := nofun
theorem EntryForm.healthPulse : EntryForm.Statement (.healthPulse) := nofun
theorem EntryForm.sentinelLapse (which : Sentinel) : EntryForm.Statement (.sentinelLapse which) := nofun
theorem EntryForm.roleSelRise : EntryForm.Statement (.roleSelRise) := nofun
theorem EntryForm.roleSelFall : EntryForm.Statement (.roleSelFall) := nofun
theorem EntryForm.ceaseN : EntryForm.Statement (.ceaseN) := nofun
theorem EntryForm.ceaseNRelease : EntryForm.Statement (.ceaseNRelease) := nofun
theorem EntryForm.ceaseUnconfirmed : EntryForm.Statement (.ceaseUnconfirmed) := nofun
theorem EntryForm.supplySag : EntryForm.Statement (.supplySag) := nofun
theorem EntryForm.saveDone (written : Bool) : EntryForm.Statement (.saveDone written) := nofun
theorem EntryForm.quenchPin : EntryForm.Statement (.quenchPin) := nofun
theorem EntryForm.quenchLatch : EntryForm.Statement (.quenchLatch) := nofun
theorem EntryForm.laneDetect (lane : Nat) : EntryForm.Statement (.laneDetect lane) := nofun
theorem EntryForm.polarityCount (lane ones : Nat) : EntryForm.Statement (.polarityCount lane ones) := nofun
theorem EntryForm.slipTrial (lane : Nat) (trial : Trial) : EntryForm.Statement (.slipTrial lane trial) := nofun
theorem EntryForm.markLock (lane : Nat) (logical : Nat) : EntryForm.Statement (.markLock lane logical) := nofun
theorem EntryForm.groupBringup (link : LinkUp) : EntryForm.Statement (.groupBringup link) := nofun
theorem EntryForm.spareAbsent (g : Nat) : EntryForm.Statement (.spareAbsent g) := nofun
theorem EntryForm.los (lane : Nat) : EntryForm.Statement (.los lane) := nofun
theorem EntryForm.lol (lane : Nat) (markMissing : Bool) : EntryForm.Statement (.lol lane markMissing) := nofun
theorem EntryForm.restripeReq (g llane cause : Nat) : EntryForm.Statement (.restripeReq g llane cause) := nofun
theorem EntryForm.restripe (g llane phys sfn slot : Nat) : EntryForm.Statement (.restripe g llane phys sfn slot) := nofun
theorem EntryForm.restripeSwitch (g : Nat) (upstream : Bool) : EntryForm.Statement (.restripeSwitch g upstream) := nofun
theorem EntryForm.mark (g : Nat) (body : MarkBody) : EntryForm.Statement (.mark g body) := nofun
theorem EntryForm.held (g q rseq : Nat) (nLo : Dword) : EntryForm.Statement (.held g q rseq nLo) := nofun
theorem EntryForm.resend (g q rseq : Nat) : EntryForm.Statement (.resend g q rseq) := nofun
theorem EntryForm.status (g : Nat) (body : BitVec 48) : EntryForm.Statement (.status g body) := nofun
theorem EntryForm.mapack (g : Nat) (ok unprompted : Bool) (gen : Dword) : EntryForm.Statement (.mapack g ok unprompted gen) := nofun
theorem EntryForm.mcrcTimeout (g : Nat) : EntryForm.Statement (.mcrcTimeout g) := nofun
theorem EntryForm.ehr (g cause : Nat) (addr : Dword) : EntryForm.Statement (.ehr g cause addr) := nofun
theorem EntryForm.tmdata (g offset : Nat) (data : Dword) : EntryForm.Statement (.tmdata g offset data) := nofun
theorem EntryForm.temp (g sensor : Nat) (value : BitVec 16) : EntryForm.Statement (.temp g sensor value) := nofun
theorem EntryForm.echoRsp (g : Nat) (token turn roundTrip : Nat) : EntryForm.Statement (.echoRsp g token turn roundTrip) := nofun
theorem EntryForm.latencyMeasure (g : Nat) : EntryForm.Statement (.latencyMeasure g) := nofun
theorem EntryForm.fault (g q kind count : Nat) : EntryForm.Statement (.fault g q kind count) := nofun
theorem EntryForm.ceased (g cseq : Nat) : EntryForm.Statement (.ceased g cseq) := nofun
theorem EntryForm.scan (k trig pix0 npix : Nat) (deep : Bool) : EntryForm.Statement (.scan k trig pix0 npix deep) := nofun
theorem EntryForm.scanend (k trig : Nat) (crc : Dword) (words : List Qword) :
    EntryForm.Statement (.scanend k trig crc words) := nofun
theorem EntryForm.censusDone (plane : Nat) : EntryForm.Statement (.censusDone plane) := nofun
theorem EntryForm.assayMap : EntryForm.Statement (.assayMap) := nofun
theorem EntryForm.assayCurves : EntryForm.Statement (.assayCurves) := nofun
theorem EntryForm.gen (msg : PMsg) : EntryForm.Statement (.gen msg) := nofun
theorem EntryForm.curves (msg : PMsg) : EntryForm.Statement (.curves msg) := nofun
theorem EntryForm.page (msg : PMsg) : EntryForm.Statement (.page msg) := nofun
theorem EntryForm.pageend (msg : PMsg) : EntryForm.Statement (.pageend msg) := nofun
theorem EntryForm.posref (msg : PMsg) (edgeNear : Bool) (countsSince : List Int) : EntryForm.Statement (.posref msg edgeNear countsSince) := nofun
theorem EntryForm.motion (msg : PMsg) : EntryForm.Statement (.motion msg) := nofun
theorem EntryForm.tsync (msg : PMsg) (t4 : Int) : EntryForm.Statement (.tsync msg t4) := nofun
theorem EntryForm.digest (msg : PMsg) : EntryForm.Statement (.digest msg) := nofun
theorem EntryForm.block (msg : PMsg) : EntryForm.Statement (.block msg) := nofun
theorem EntryForm.locks (msg : PMsg) : EntryForm.Statement (.locks msg) := nofun
theorem EntryForm.prho (tickLo rho : Nat) : EntryForm.Statement (.prho tickLo rho) := nofun
theorem EntryForm.poos (m q cause : Nat) (nLo : Dword) : EntryForm.Statement (.poos m q cause nLo) := nofun
theorem EntryForm.ptsync (token : Nat) : EntryForm.Statement (.ptsync token) := nofun
theorem EntryForm.ptsyncSend : EntryForm.Statement (.ptsyncSend) := nofun
theorem EntryForm.posrefSend : EntryForm.Statement (.posrefSend) := nofun
theorem EntryForm.motionSend : EntryForm.Statement (.motionSend) := nofun
theorem EntryForm.locksSend : EntryForm.Statement (.locksSend) := nofun
theorem EntryForm.partnerMark (role : Nat) (epoch : Dword) : EntryForm.Statement (.partnerMark role epoch) := nofun
theorem EntryForm.partnerDown : EntryForm.Statement (.partnerDown) := nofun
theorem EntryForm.partnerUp : EntryForm.Statement (.partnerUp) := nofun
theorem EntryForm.memRead (turn : ReadTurn) : EntryForm.Statement (.memRead turn) := nofun
theorem EntryForm.writeDrain (ch : Nat) (arrived : List BurstWrite) : EntryForm.Statement (.writeDrain ch arrived) := nofun
theorem EntryForm.refreshDue (ch rank : Nat) (arrived : List MemReq) : EntryForm.Statement (.refreshDue ch rank arrived) := nofun
theorem EntryForm.dramTempRead (ch rank : Nat) (above85 : Bool) : EntryForm.Statement (.dramTempRead ch rank above85) := nofun
theorem EntryForm.burnishDone : EntryForm.Statement (.burnishDone) := nofun
theorem EntryForm.migrationStart (ch rank : Nat) : EntryForm.Statement (.migrationStart ch rank) := nofun
theorem EntryForm.rankMigrated (ch : Nat) : EntryForm.Statement (.rankMigrated ch) := nofun
theorem EntryForm.fwReload (addr : Nat) : EntryForm.Statement (.fwReload addr) := nofun
theorem EntryForm.planningStep : EntryForm.Statement (.planningStep) := nofun
theorem EntryForm.switchSample (levels : BitVec 24) : EntryForm.Statement (.switchSample levels) := nofun
theorem EntryForm.stall (ax : Nat) : EntryForm.Statement (.stall ax) := nofun
theorem EntryForm.holdCurrent (ax : Nat) : EntryForm.Statement (.holdCurrent ax) := nofun
theorem EntryForm.loopSample (late : List Nat) : EntryForm.Statement (.loopSample late) := nofun
theorem EntryForm.cspiTransfer (dev : Nat) (frame : Dword) : EntryForm.Statement (.cspiTransfer dev frame) := nofun
theorem EntryForm.ainConversion (i : Nat) (code : BitVec 16) : EntryForm.Statement (.ainConversion i code) := nofun
theorem EntryForm.timeTick : EntryForm.Statement (.timeTick) := nofun
theorem EntryForm.sync (port : Nat) (src : PtpFrom) (twoStep : Bool) (origin rx : Ns16) (correction : Ns16) : EntryForm.Statement (.sync port src twoStep origin rx correction) := nofun
theorem EntryForm.followUp (port : Nat) (src : PtpFrom) (origin : Ns16) (correction : Ns16) : EntryForm.Statement (.followUp port src origin correction) := nofun
theorem EntryForm.delayReq (port : Nat) (src : PtpFrom) (rx : Ns16) (correction : Ns16) : EntryForm.Statement (.delayReq port src rx correction) := nofun
theorem EntryForm.delayResp (port : Nat) (src : PtpFrom) (rx : Ns16) (correction : Ns16) : EntryForm.Statement (.delayResp port src rx correction) := nofun
theorem EntryForm.announce (port : Nat) (src : PtpFrom) (quality : Quality) (utcOffset : Int) : EntryForm.Statement (.announce port src quality utcOffset) := nofun
theorem EntryForm.arpRequest (port : Nat) (target : Dword) : EntryForm.Statement (.arpRequest port target) := nofun
theorem EntryForm.frameForward (port bytes : Nat) (frame : Frame) (inMac outMac : Ns16) (correction : Ns16) :
    EntryForm.Statement (.frameForward port bytes frame inMac outMac correction) := nofun
theorem EntryForm.syncSend : EntryForm.Statement (.syncSend) := nofun
theorem EntryForm.announceSend : EntryForm.Statement (.announceSend) := nofun
theorem EntryForm.delayReqSend (txMac : Ns16) : EntryForm.Statement (.delayReqSend txMac) := nofun
theorem EntryForm.syncTimeout : EntryForm.Statement (.syncTimeout) := nofun
theorem EntryForm.announceTimeout : EntryForm.Statement (.announceTimeout) := nofun
theorem EntryForm.netLink (port : Nat) (up : Bool) : EntryForm.Statement (.netLink port up) := nofun
theorem EntryForm.rateWindow : EntryForm.Statement (.rateWindow) := nofun
theorem EntryForm.challengeLapse : EntryForm.Statement (.challengeLapse) := nofun
theorem EntryForm.temperatureSample (temps : List Int) : EntryForm.Statement (.temperatureSample temps) := nofun
theorem EntryForm.annealStart : EntryForm.Statement (.annealStart) := nofun
theorem EntryForm.annealDone (pass : Bool) : EntryForm.Statement (.annealDone pass) := nofun
theorem EntryForm.ainRecalibrate (i : Nat) : EntryForm.Statement (.ainRecalibrate i) := nofun
theorem EntryForm.calibRecompute : EntryForm.Statement (.calibRecompute) := nofun
theorem EntryForm.jtagInstruction (code : BitVec 8) : EntryForm.Statement (.jtagInstruction code) := nofun
theorem EntryForm.dbgAccessRead (reg : BitVec 96) : EntryForm.Statement (.dbgAccessRead reg) := nofun
theorem EntryForm.dbgAccessWrite (reg : BitVec 96) : EntryForm.Statement (.dbgAccessWrite reg) := nofun
theorem EntryForm.chkFail (lane : Nat) : EntryForm.Statement (.chkFail lane) := nofun
theorem EntryForm.stuffingViolation (lane : Nat) : EntryForm.Statement (.stuffingViolation lane) := nofun
theorem EntryForm.cmdError (ch rank : Nat) (recurs : Bool) : EntryForm.Statement (.cmdError ch rank recurs) := nofun
theorem EntryForm.frameDiscarded (port : Nat) : EntryForm.Statement (.frameDiscarded port) := nofun
theorem EntryForm.refTimeout : EntryForm.Statement (.refTimeout) := nofun
theorem EntryForm.powerLoss : EntryForm.Statement (.powerLoss) := nofun
theorem EntryForm.voutSettled (readback : Option Nat) : EntryForm.Statement (.voutSettled readback) := nofun

end Sys2Proof.Laws
end

