-- ==== Sys2Proof/Laws/Sparse.lean ====
section
/-! SUPPORT. Laws of sparse maps: every operation keeps the canonical form; a read after a write gives the value written,
and a write leaves every other key alone. -/

namespace Sys2Proof.Machine

section
variable {α : Type} {d : α}

theorem mapWf_iff [DecidableEq α] {m : Sparse α} :
    mapWf d m = true ↔ (m.Pairwise fun a b => a.1 < b.1) ∧ ∀ e ∈ m, e.2 ≠ d := by
  simp [mapWf]

/-- Erasing a key keeps the canonical form. -/
theorem mapErase_wf [DecidableEq α] {m : Sparse α} (k : Nat) (h : mapWf d m = true) : mapWf d (mapErase m k) = true := by
  rw [mapWf_iff] at h ⊢
  exact ⟨h.1.filter _, fun e he => h.2 e (List.mem_of_mem_filter he)⟩

/-- Listing a key at another value than `d` keeps the canonical form. -/
theorem mapInsert_wf [DecidableEq α] {m : Sparse α} (k : Nat) {v : α} (hv : v ≠ d) (h : mapWf d m = true) :
    mapWf d (mapInsert m k v) = true := by
  rw [mapWf_iff] at h ⊢
  refine ⟨?_, fun e he => ?_⟩
  · simp only [mapInsert, List.pairwise_append, List.pairwise_cons, List.mem_filter, List.mem_cons, decide_eq_true_eq]
    refine ⟨h.1.filter _, ⟨fun a ha => ha.2, h.1.filter _⟩, fun a ha b hb => ?_⟩
    rcases hb with rfl | hb
    · exact ha.2
    · exact ha.2.trans hb.2
  · simp only [mapInsert, List.mem_append, List.mem_cons, List.mem_filter] at he
    rcases he with he | rfl | he
    · exact h.2 e he.1
    · exact hv
    · exact h.2 e he.1

/-- Setting a key keeps the canonical form. -/
theorem mapSet_wf [DecidableEq α] {m : Sparse α} (k : Nat) (v : α) (h : mapWf d m = true) :
    mapWf d (mapSet d m k v) = true := by
  unfold mapSet
  split
  · exact mapErase_wf k h
  · exact mapInsert_wf k ‹_› h

/-- Setting several keys keeps the canonical form. -/
theorem mapSetAll_wf [DecidableEq α] {m : Sparse α} (kvs : List (Nat × α)) (h : mapWf d m = true) :
    mapWf d (mapSetAll d m kvs) = true :=
  List.foldlRecOn kvs (fun acc e => mapSet d acc e.1 e.2) (motive := fun b => mapWf d b = true) h
    fun _ hm e _ => mapSet_wf e.1 e.2 hm

/-- The entry of key `j` among those whose key a test keeps. -/
theorem find?_kept (m : Sparse α) (j : Nat) (keep : Nat → Bool) :
    (m.filter fun e => keep e.1).find? (fun e => e.1 == j) = if keep j then m.find? fun e => e.1 == j else none := by
  rw [List.find?_filter]
  cases h : keep j with
  | false =>
    simp only [Bool.false_eq_true, if_false, List.find?_eq_none, decide_eq_true_eq, beq_iff_eq]
    rintro e - ⟨hk, rfl⟩
    simp [h] at hk
  | true =>
    simp only [if_true]
    congr 1; funext e
    by_cases he : e.1 = j
    · simp [he, h]
    · simp [he]

/-- An erased key reads as unlisted, every other as before. -/
theorem mapGet_mapErase (m : Sparse α) (k j : Nat) :
    mapGet d (mapErase m k) j = if j = k then d else mapGet d m j := by
  rw [mapGet, mapErase, find?_kept m j (· != k)]
  by_cases h : j = k <;> simp [h, mapGet]

/-- A listed key reads its value, every other as before. -/
theorem mapGet_mapInsert (m : Sparse α) (k j : Nat) (v : α) :
    mapGet d (mapInsert m k v) j = if j = k then v else mapGet d m j := by
  rw [mapGet, mapInsert, List.find?_append, List.find?_cons, find?_kept m j fun x => decide (x < k),
    find?_kept m j fun x => decide (k < x)]
  rcases Nat.lt_trichotomy j k with h | rfl | h
  · simp [h, h.ne, beq_false_of_ne h.ne', Nat.not_lt.2 h.le, mapGet]
  · simp
  · simp [h, h.ne', beq_false_of_ne h.ne, Nat.not_lt.2 h.le, mapGet]

/-- After a write of one key that key reads the value written, every other key as before. -/
theorem mapGet_mapSet [DecidableEq α] (m : Sparse α) (k j : Nat) (v : α) :
    mapGet d (mapSet d m k v) j = if j = k then v else mapGet d m j := by
  unfold mapSet
  split
  · next h => rw [mapGet_mapErase, h]
  · exact mapGet_mapInsert m k j v

/-- A key that no entry names reads as before a write of several keys. -/
theorem mapGet_mapSetAll_other [DecidableEq α] (m : Sparse α) (kvs : List (Nat × α)) (j : Nat) (hj : ∀ e ∈ kvs, e.1 ≠ j) :
    mapGet d (mapSetAll d m kvs) j = mapGet d m j :=
  List.foldlRecOn kvs (fun acc e => mapSet d acc e.1 e.2) (motive := fun b => mapGet d b j = mapGet d m j) rfl
    fun _ hb e he => by rw [mapGet_mapSet, if_neg (hj e he).symm, hb]

/-- Several keys set, all different: each reads the value it was given. -/
theorem mapGet_mapSetAll_mem [DecidableEq α] (m : Sparse α) (kvs : List (Nat × α)) (hd : (kvs.map Prod.fst).Nodup)
    (e : Nat × α) (he : e ∈ kvs) : mapGet d (mapSetAll d m kvs) e.1 = e.2 := by
  obtain ⟨pre, post, rfl⟩ := List.append_of_mem he
  have hp : ∀ x ∈ post, x.1 ≠ e.1 := by
    simp only [List.map_append, List.map_cons, List.nodup_append, List.nodup_cons] at hd
    exact fun x hx hc => hd.2.1.1 (hc ▸ List.mem_map_of_mem hx)
  have hs : mapSetAll d m (pre ++ e :: post) = mapSetAll d (mapSet d (mapSetAll d m pre) e.1 e.2) post := by
    simp [mapSetAll, List.foldl_append]
  rw [hs, mapGet_mapSetAll_other _ _ _ hp, mapGet_mapSet, if_pos rfl]

end

end Sys2Proof.Machine
end

