-- ==== Sys2Proof/Laws/State.lean ====
section
/-! SUPPORT. Read and write laws of the named updates of State: what an update changes, that another place keeps its value,
and that every other block of the state is left as it was. -/

namespace Sys2Proof.Machine

@[simp] theorem modAt_length {α : Type} (f : α → α) (l : List α) (i : Nat) : (modAt f l i).length = l.length :=
  List.length_modify ..

/-- Every place of a list after one was changed. -/
theorem modAt_getD {α : Type} (f : α → α) (l : List α) (i j : Nat) (d : α) (h : i < l.length) :
    (modAt f l i).getD j d = if i = j then f (l.getD j d) else l.getD j d := by
  by_cases hj : i = j
  · subst hj; simp [modAt, h]
  · simp [modAt, hj]

/-- The changed place, where there is one. -/
theorem modAt_getD_self {α : Type} (f : α → α) (l : List α) (i : Nat) (d : α) (h : i < l.length) :
    (modAt f l i).getD i d = f (l.getD i d) := by simp [modAt, h]

/-- Every other place. -/
theorem modAt_getD_ne {α : Type} (f : α → α) (l : List α) {i j : Nat} (d : α) (h : i ≠ j) :
    (modAt f l i).getD j d = l.getD j d := by simp [modAt, h]

/-! A group. -/

theorem groupAt_setGroup_self (s : State) (k : Nat) (f : Group → Group) (h : k < s.dxl.groups.length) :
    groupAt (setGroup s k f) k = f (groupAt s k) := modAt_getD_self f _ _ _ h

theorem groupAt_setGroup_ne (s : State) {j k : Nat} (f : Group → Group) (h : k ≠ j) : groupAt (setGroup s k f) j = groupAt s j :=
  modAt_getD_ne f _ _ h

@[simp] theorem setGroup_length (s : State) (k : Nat) (f : Group → Group) :
    (setGroup s k f).dxl.groups.length = s.dxl.groups.length := modAt_length f _ _

/-! A lane. -/

theorem laneAt_setLane_self (s : State) (k : Nat) (f : Lane → Lane) (h : k < s.dxl.lanes.length) :
    laneAt (setLane s k f) k = f (laneAt s k) := modAt_getD_self f _ _ _ h

theorem laneAt_setLane_ne (s : State) {j k : Nat} (f : Lane → Lane) (h : k ≠ j) : laneAt (setLane s k f) j = laneAt s j :=
  modAt_getD_ne f _ _ h

@[simp] theorem setLane_length (s : State) (k : Nat) (f : Lane → Lane) :
    (setLane s k f).dxl.lanes.length = s.dxl.lanes.length := modAt_length f _ _

/-! A axis. -/

theorem axisAt_setAxis_self (s : State) (k : Nat) (f : Axis → Axis) (h : k < s.mot.axes.length) :
    axisAt (setAxis s k f) k = f (axisAt s k) := modAt_getD_self f _ _ _ h

theorem axisAt_setAxis_ne (s : State) {j k : Nat} (f : Axis → Axis) (h : k ≠ j) : axisAt (setAxis s k f) j = axisAt s j :=
  modAt_getD_ne f _ _ h

@[simp] theorem setAxis_length (s : State) (k : Nat) (f : Axis → Axis) :
    (setAxis s k f).mot.axes.length = s.mot.axes.length := modAt_length f _ _

/-! A loop slot. -/

theorem loopAt_setLoop_self (s : State) (k : Nat) (f : Loop → Loop) (h : k < s.mot.loops.length) :
    loopAt (setLoop s k f) k = f (loopAt s k) := modAt_getD_self f _ _ _ h

theorem loopAt_setLoop_ne (s : State) {j k : Nat} (f : Loop → Loop) (h : k ≠ j) : loopAt (setLoop s k f) j = loopAt s j :=
  modAt_getD_ne f _ _ h

@[simp] theorem setLoop_length (s : State) (k : Nat) (f : Loop → Loop) :
    (setLoop s k f).mot.loops.length = s.mot.loops.length := modAt_length f _ _

/-! A camera. -/

theorem camAt_setCam_self (s : State) (k : Nat) (f : Camera → Camera) (h : k < s.asy.cams.length) :
    camAt (setCam s k f) k = f (camAt s k) := modAt_getD_self f _ _ _ h

theorem camAt_setCam_ne (s : State) {j k : Nat} (f : Camera → Camera) (h : k ≠ j) : camAt (setCam s k f) j = camAt s j :=
  modAt_getD_ne f _ _ h

@[simp] theorem setCam_length (s : State) (k : Nat) (f : Camera → Camera) :
    (setCam s k f).asy.cams.length = s.asy.cams.length := modAt_length f _ _

/-! A Ethernet port. -/

theorem portAt_setPort_self (s : State) (k : Nat) (f : Port → Port) (h : k < s.ports.length) :
    portAt (setPort s k f) k = f (portAt s k) := modAt_getD_self f _ _ _ h

theorem portAt_setPort_ne (s : State) {j k : Nat} (f : Port → Port) (h : k ≠ j) : portAt (setPort s k f) j = portAt s j :=
  modAt_getD_ne f _ _ h

@[simp] theorem setPort_length (s : State) (k : Nat) (f : Port → Port) :
    (setPort s k f).ports.length = s.ports.length := modAt_length f _ _

/-! A page. -/

@[simp] theorem setPage_ids (s : State) (id : Dword) (f : Page → Page) (h : ∀ p, (f p).id = p.id) :
    (setPage s id f).pages.list.map (·.id) = s.pages.list.map (·.id) := by
  simp only [setPage, List.map_map]
  refine List.map_congr_left fun p _ => ?_
  simp only [Function.comp_apply]
  split
  · exact h p
  · rfl

theorem pageOf_setPage_ne (s : State) {id j : Dword} (f : Page → Page) (hf : ∀ p, (f p).id = p.id) (h : id ≠ j) :
    pageOf (setPage s id f) j = pageOf s j := by
  have other : ∀ p : Page, p.id = j → (if p.id = id then f p else p) = p := fun p hp => if_neg fun hc => h (hc.symm.trans hp)
  have found : ∀ p : Page, ((if p.id = id then f p else p).id == j) = (p.id == j) := fun p => by split <;> simp [hf]
  simp only [pageOf, setPage, List.find?_map, Function.comp_def, found]
  cases hp : s.pages.list.find? fun p => p.id == j with
  | none => rfl
  | some p => exact congrArg some (other p (by simpa using List.find?_some hp))

/-! A rank. -/

theorem rankAt_setRank_ne (s : State) {ch rank c r : Nat} (f : Rank → Rank) (hf : ∀ x, (f x).ch = x.ch ∧ (f x).rank = x.rank)
    (h : ¬(ch = c ∧ rank = r)) : rankAt (setRank s ch rank f) c r = rankAt s c r := by
  have found : ∀ x : Rank, ((if x.ch = ch ∧ x.rank = rank then f x else x).ch == c &&
      (if x.ch = ch ∧ x.rank = rank then f x else x).rank == r) = (x.ch == c && x.rank == r) := fun x => by
    split <;> simp [hf]
  simp only [rankAt, setRank, List.find?_map, Function.comp_def, found]
  cases hx : s.mem.ranks.find? fun x => x.ch == c && x.rank == r with
  | none => rfl
  | some x =>
    have e : x.ch = c ∧ x.rank = r := by simpa using List.find?_some hx
    exact congrArg some (if_neg fun hc => h ⟨hc.1.symm.trans e.1, hc.2.symm.trans e.2⟩)

end Sys2Proof.Machine
end

