-- ==== Sys2Proof/Laws/Time.lean ====
section
/-! SUPPORT. Laws of the time counter: what a TIME tick makes of each field. -/

namespace Sys2Proof.Machine

@[simp] theorem tickTime_adj (t : Time) : (tickTime t).adj = t.adj := by unfold tickTime; split <;> rfl

@[simp] theorem tickTime_clk (t : Time) : (tickTime t).clk = t.clk + 1 := by unfold tickTime; split <;> rfl

@[simp] theorem tickTime_latched (t : Time) : (tickTime t).latched = t.latched := by unfold tickTime; split <;> rfl

/-- A tick short of a whole second adds INC (R364). -/
theorem tickTime_short {t : Time} (h : tickSum t < secondUnits) :
    (tickTime t).sec = t.sec ∧ (tickTime t).nsec = tickSum t / 2 ^ 32 % 2 ^ 32 ∧ (tickTime t).frac = tickSum t % 2 ^ 32 := by
  unfold tickTime; rw [if_neg (Nat.not_le_of_lt h)]; exact ⟨rfl, rfl, rfl⟩

/-- A tick that reaches a whole second carries into SEC, which wraps at 2⁴⁸ (R364). -/
theorem tickTime_carry {t : Time} (h : secondUnits ≤ tickSum t) :
    (tickTime t).sec = (t.sec + 1) % 2 ^ 48 ∧ (tickTime t).nsec = (tickSum t - secondUnits) / 2 ^ 32 % 2 ^ 32 ∧
    (tickTime t).frac = (tickSum t - secondUnits) % 2 ^ 32 := by
  unfold tickTime; rw [if_pos h]; exact ⟨rfl, rfl, rfl⟩

/-- A tick keeps the counter within R364. -/
theorem tickTime_legal {t : Time} (h1 : t.sec < 2 ^ 48) (h2 : t.nsec < 1000000000) (h3 : t.frac < 2 ^ 32)
    (h4 : -8000000 ≤ t.adj) (h5 : t.adj ≤ 8000000) :
    (tickTime t).sec < 2 ^ 48 ∧ (tickTime t).nsec < 1000000000 ∧ (tickTime t).frac < 2 ^ 32 := by
  have hi : timeInc t.adj ≤ 10742786949 := by unfold timeInc; omega
  have hs : tickSum t = 2 ^ 32 * t.nsec + t.frac + timeInc t.adj := rfl
  have hu : secondUnits = 1000000000 * 2 ^ 32 := rfl
  rcases Nat.lt_or_ge (tickSum t) secondUnits with h | h
  · obtain ⟨a, b, c⟩ := tickTime_short h
    rw [a, b, c]
    exact ⟨h1, by omega, by omega⟩
  · obtain ⟨a, b, c⟩ := tickTime_carry h
    rw [a, b, c]
    exact ⟨by omega, by omega, by omega⟩

end Sys2Proof.Machine
end

