-- ==== Sys2Proof/Laws/Total.lean ====
section
/-! SUPPORT. Every command, in every form and from every state, answers a next state: no path faults and none is refused. -/

set_option Elab.async false

namespace Sys2Proof.Machine

theorem exec_next (c : Instr) (s : State) : ∃ t, exec c s = .next t := by
  cases c <;> first | exact ⟨_, rfl⟩ | (simp only [exec,
    execAinConversion, execAinRecalibrate, execAnnealDone, execAnnealForce, execAnnealIfDue, execAnnealInhibit,
    execAnnealStart, execAnnounce, execAnnounceSend, execAnnounceTimeout, execArpRequest, execAssayCurves,
    execAssayMap, execBlockStore, execBootStartDone, execBootVerifyDone, execBurnishDone, execCeaseN,
    execCeaseUnconfirmed, execCeased, execCensusDone, execChkFail, execCmdError, execCommandFetch, execCspiTransfer,
    execCueCapture, execDbgAccessRead, execDbgAccessWrite, execDelayReq, execDelayReqSend, execDelayResp,
    execDmaReadCompletion, execEchoRsp, execEhr, execEncCount, execFault, execFollowUp,
    execFrameDiscarded, execFrameForward, execFwReload, execGenerationForm, execGroupBringup, execHealthPulse,
    execHeld, execHeldTickIssue, execHoldCurrent, execIndexRise, execJtagInstruction, execKeepApplyRecord,
    execKeepClearSlots, execKeepReadImage, execLaneDetect, execLatencyMeasure, execLineTick, execLol, execLoopSample,
    execLos, execMapApplied, execMapack, execMark, execMarkLock, execMcrcTimeout, execMemRead, execMigrationStart,
    execMotionSend, execNetLink, execOverspeed, execPaceReading, execPacingTick, execPartnerDown, execPartnerMark,
    execPartnerUp, execPlanningStep, execPolarityCount, execPoos, execPosrefSend, execPrho, execPtsync, execQuenchArm,
    execQuenchDisarm, execQuenchLatch, execQuenchPin, execRankMigrated, execRateReading, execRecordComplete,
    execRecordRelease, execRefTimeout, execRefillFix, execRefreshDue, execRejoinAuto, execResend, execRestripe,
    execRestripeReq, execRestripeSwitch, execRetire, execRoleSelFall, execRoleSelRise, execRollbackAdvance,
    execSaveDone, execScan, execScanend, execSchedLate, execSeal, execSentinelLapse, execSliceDeadline, execSlipTrial,
    execSpareAbsent, execStall, execStatus, execStuffingViolation, execSupplySag, execSync, execSyncSend,
    execSyncTimeout, execTemp, execTemperatureSample, execTimeSet, execTimeStep, execTimeTick, execTmdata,
    execUnknownOpcode, execVoutSettled, execWebStill, execWriteDrain] <;> (repeat' split) <;>
      exact ⟨_, rfl⟩)

theorem step_next (s : State) : ∃ t, step s = .next t := by
  unfold step
  split
  · exact ⟨_, rfl⟩
  · exact exec_next _ _

end Sys2Proof.Machine
end

