-- ==== Sys2Proof/Laws/Words.lean ====
section
/-! SUPPORT. The CRCs of link words stay in their width (R188, R198). -/

namespace Sys2Proof.Machine

theorem crcBit_lt {width poly crc : Nat} {b : Bool} (hp : poly < 2 ^ width) : crcBit width poly crc b < 2 ^ width := by
  have h : crc * 2 % 2 ^ width < 2 ^ width := Nat.mod_lt _ (Nat.two_pow_pos _)
  simp only [crcBit]
  split
  · exact Nat.xor_lt_two_pow h hp
  · exact h

theorem crcBits_lt {width poly crc len v : Nat} (hp : poly < 2 ^ width) (hc : crc < 2 ^ width) :
    crcBits width poly crc len v < 2 ^ width := by
  unfold crcBits
  generalize (List.range len).reverse = l
  induction l generalizing crc with
  | nil => exact hc
  | cons i l ih => exact ih (crcBit_lt hp)

theorem crc32d_lt (ws : List Dword) : crc32d ws < 2 ^ 32 := by
  unfold crc32d
  refine Nat.xor_lt_two_pow ?_ (by decide)
  generalize hc : 0xFFFFFFFF = c
  have h : c < 2 ^ 32 := by omega
  clear hc
  induction ws generalizing c with
  | nil => exact h
  | cons w ws ih => exact ih _ (crcBits_lt (by decide) h)

theorem crc32q_lt (ws : List Qword) : crc32q ws < 2 ^ 32 := by
  unfold crc32q
  refine Nat.xor_lt_two_pow ?_ (by decide)
  generalize hc : 0xFFFFFFFF = c
  have h : c < 2 ^ 32 := by omega
  clear hc
  induction ws generalizing c with
  | nil => exact h
  | cons w ws ih => exact ih _ (crcBits_lt (by decide) h)

theorem crc8_lt (v : Nat) : crc8 v < 2 ^ 8 := crcBits_lt (by decide) (by decide)

end Sys2Proof.Machine
end

