-- ==== Sys2Proof/Machine/Bounds.lean ====
section
/-! DEFINITION. The bounds and figures the manual states as closed formulas over time, web lines and charge. A bound says when
an event comes at the latest; the events themselves are commands, so no command calls these (log 17). Times are in seconds,
rates in lines, bytes or bits per second; every figure is an exact rational. -/

namespace Sys2Proof.Machine.Bounds

/-- r_enc at VT = 1.0, in samples per second, by EFFORT (R62). -/
def encoderRate (effort : Nat) : ℚ :=
  if effort ≤ 1 then 8000000000 else if effort ≤ 3 then 6000000000 else if effort ≤ 5 then 4000000000 else 3000000000

/-- T_load (R62): ingest bytes over C_PCIe, coded samples, raw samples. -/
def load (bPage cPcie sCode sRaw vt : ℚ) (effort : Nat) : ℚ :=
  10 / 1000000 + bPage / cPcie + sCode / (12000000000 * vt) + sRaw / (encoderRate effort * vt)

/-- T_setup (R82). -/
def setup (vt : ℚ) : ℚ := 8 / 1000000 + 16 / 1000000 / vt

/-- T_first (R83): from commit to the first web line at row 0 of every module in use. -/
def firstLine (vt lead dSpan stagger s l : ℚ) : ℚ := setup vt + (lead + dSpan + ⌈stagger / s⌉ + 2) / l

/-- The first drop of the page (R83). -/
def firstDrop (vt lead l : ℚ) : ℚ := setup vt + (lead + 2) / l

/-- T_map (R118) for a generation that changes `e` ejectors in one module. -/
def mapDelivery (e : ℚ) : ℚ := 20 / 1000000 + 40 / 1000000000 * e

/-- T_SF (R214): the longest superframe at lane rate `r` in bits per second. -/
def superframe (r : ℚ) : ℚ := 1024 * 69 / r

/-- T_RS (R214): from a lane's failure to the first word on the spare. -/
def restripe (r : ℚ) : ℚ := 2 / 1000000 + superframe r

/-- C_g (R187): the share open to record levels while a group recovers. -/
def recoveryShare (r : ℚ) (onebit : Bool) : ℚ := 3 * r * (64 / 69 * (1016 / 1024)) * (if onebit then 260 / 263 else 520 / 523)

/-- D_m (R214): a module-plane's largest demand in bits per second. -/
def demand (pm b l : ℚ) : ℚ := 16640 * pm * b * l

/-- The lines a module may fall behind while its group recovers a lane; none is lost while it does not exceed LEAD (R214). -/
def recoveryLines (r pm l : ℚ) (onebit : Bool) : ℚ :=
  let c := recoveryShare r onebit
  restripe r * l * c / (c - demand pm (if onebit then 1 else 2) l) + 4

/-- T_an (R254). -/
def assayTime (vt : ℚ) : ℚ := 40 / 1000000 / vt

/-- C_p with periodic bands only (R254). -/
def bandSpacing (pObs censusG censusEvery linesMax lBand : ℚ) : ℚ := ⌈pObs / censusG⌉ * (censusEvery * linesMax + lBand)

/-- T_excl (R254): from an ejector's first missed drop to the first record assigned with it excluded. -/
def exclusion (vt e cp lBand dCam div lead dp dMin l : ℚ) : ℚ :=
  assayTime vt + setup vt + mapDelivery e + (cp + lBand + dCam + div + lead + dp - dMin + 35) / l

/-- T_TO (R275). -/
def takeover : ℚ := 50 / 1000000

/-- A take-over loses no line (R277). -/
def takeoverLosesNone (l : ℚ) (lead : ℤ) : Bool := ⌈takeover * l⌉ + 4 ≤ lead

/-- T_rejoin (R283), with the partner lane rate in Gb/s. -/
def rejoin (pAuto rp tRef : ℚ) : ℚ :=
  5 / 1000 + 8 * (10649600 + 262144 + 332800 * pAuto) / (2625 / 1000 * rp * 1000000000) + tRef

/-- T_burnish (R308). -/
def burnish (b b2 nWb rate g : ℚ) : ℚ := 1 / 1000 + (b + b2 + 64 * nWb) / (rate / 100 * g)

/-- T_build (R391). -/
def build (b cPcie vt : ℚ) : ℚ := 30 / 1000000 + b / cPcie + b / (4000000000 * vt)

/-- T_cmd (R391): from doorbell to completion. -/
def command (nAhead vt wait bound : ℚ) : ℚ :=
  (3 / 1000000 + 25 / 100000000 * nAhead) / vt + wait + bound + 2 / 1000000

/-- T_save (R420). -/
def save (len fXspi : ℚ) : ℚ := 30 / 1000000 + 105 / 100 * len / (2 * fXspi)

/-- The least capacitance on the held bus, in farad (R421). -/
def capacitor (pMax pSave pBrd tSave eta vTh vMin : ℚ) : ℚ :=
  2 * (pMax * (20 / 1000000) + (pSave + pBrd) * tSave) / (eta * (vTh ^ 2 - vMin ^ 2))

/-- The gap an anneal needs between consecutive pages, in web lines (R424). -/
def annealGap (w dSpan stagger s : ℚ) : ℚ := w + dSpan + ⌈stagger / s⌉ + 176 / s + 1

end Sys2Proof.Machine.Bounds
end

