-- ==== Sys2Proof/Tests/Slice0.lean ====
section
/-! SUPPORT. The model's own tests. Terms that are not well formed; the manual's worked examples; and for each clause of each
statement with hypotheses a concrete state and operands that meet all of them together (witness_<statement>_<clause>). The frame
statements ask only that a command answers a next state: exec_next (Laws/Total.lean) says that every one does. -/

namespace Sys2Proof.Tests
open Sys2Proof Sys2Proof.Machine
set_option Elab.async false

/-! Small states. -/

/-- Three facts before a fourth. -/
theorem lead3 {a b c d : Prop} (h : a ∧ b ∧ c) (k : d) : a ∧ b ∧ c ∧ d := ⟨h.1, h.2.1, h.2.2, k⟩

/-- A submission entry with opcode `op` and payload `ps`. -/
def cmd (op : Nat) (ps : List Dword) : Entry :=
  { words := BitVec.ofNat 32 (op * 65536) :: 0 :: 0 :: 0 :: (ps ++ List.replicate (12 - ps.length) 0) }

/-- An entry just fetched. -/
def fly (e : Entry) : InFlight :=
  { entry := e, latch := .gaffer, epoch := 0, seen := 0, committed := false, discard := false, note := [] }

/-- A running gaffer in PRINT, its memory ready. -/
def up : State :=
  let z := State.reset
  { z with boot := { z.boot with state := .running, imgRollback := 5 }, par := { z.par with state := .gaffer }
           mem := { z.mem with ready := true }, pwr := { z.pwr with state := .print } }

/-- A state in which `e` is the one command in flight. -/
def turn (s : State) (e : Entry) : State := { s with mbx := { s.mbx with inFlight := [fly e] } }

/-- A state in a power state. -/
def inPower (p : PowerState) : State := { up with pwr := { up.pwr with state := p } }

/-- Both Ethernet ports on and forwarding, PTP in role `r` with parent and foreign master 1. -/
def net (r : Nat) : State :=
  let p := { Port.reset with configured := true, enable := true, fwd := true, mac := 1, ipv4 := 5 }
  { up with ports := [p, p], ptp := { up.ptp with role := r, parent := some ⟨1, 1⟩, servo := .locked } }

/-- Dwords placed in host memory at address `a`. -/
def mems (s : State) (a : Nat) (ds : List Dword) : State := hostPutDws s a ds

/-- A job of 1,200 native lines with plane 0 in use: contone, drop size 3. -/
def job1 : Job :=
  { jobId := 7, s := 1, onebit := false, lead := 128, lDecl := 10, tDecl := 0, ctSlot := 0, lwSlot := 0, bpSlot := 0, accelMax := 0
    iDecl := 0, reserve := 0, stagger := 16, planes := [{ inUse := true, format := 0, planish := false, force := 0, screen := 0 }]
    vcore := 750, once := [], raw := [], geo := [] }

/-- A memory of six channel pairs. -/
def mem6 : MemCfg :=
  { speed := 3, chPairs := 6, density := 1, ranks := 1, spareEn := false, wmHigh := 48, wmLow := 16, retirePages := 0, ceRowThr := 8, excluded := [] }

/-- A module group in RUN whose touchmark lists every depth, plane and rate, 300,000 lines and 1,000 buffered lines. -/
def runGroup : Group :=
  { Group.reset with run := true, joined := true
                     touch := { Touch.none with dwords := [(5, 0xFFFFF), (6, 600000), (7, 1000)], total := 256, got := 256, valid := true } }

/-- Memory configured and every group in RUN. -/
def linked : State :=
  { up with mem := { up.mem with cfg := some mem6, regions := [{ kind := 4, code := 0, size := 1 }] }, dxl := { up.dxl with groups := List.replicate 45 runGroup } }

/-- The job open. -/
def jobUp : State := { linked with job := some job1 }

/-- A page of 64 lines and 2 column groups with one bypass layer. -/
def page1 (st : PageState) : Page :=
  { id := 9, state := st, lines := 64, ncol64 := 2, col64 := 0, cueCh := 0, startMode := 0, startArg := 0, startLine := 0
    layers := [{ plane := 0, layer := 2, effort := 0, rows := 4, rowTable := 512 }], blocks := [], rowPoison := [], emptyDead := [], ctChain := [], twoChain := [], footprint := 64
    nContone := 0, nTwoBit := 0, fPage := 0, ingest := 0, n0 := none, adm := 0, thin := false, cueSkips := 0, band := none, cuts := []
    cut := false, holds := true, deadBlocks := 0, once := [] }

/-- The job open and the one page in state `st`. -/
def pageUp (st : PageState) : State := { jobUp with pages := { jobUp.pages with list := [page1 st] } }

/-- The load of that page at its first block, whose bytes are `bs` and lie from 1025. -/
def load1 (bs : List Byte) : Load :=
  { pageId := 9, entry := cmd 0x0103 [256], arrived := (1024, 0xC0) :: (List.range bs.length).map fun i => (1025 + i, bs.getD i 0)
    have_ := [(1024, 1 + bs.length)], tables := [[(1024, 1 + bs.length)]], layerIx := 0, row := 0, col := 0, pos := 1, rowBegun := true }

/-- A coded 2-bit block of 12 bytes, too long for its slot of 4: eight samples, then zeros. -/
def noisy : List Byte := [40, 85, 21, 20, 164, 196, 41, 4, 37, 255, 252, 224]

/-- That load under way. -/
def loading (bs : List Byte) : State :=
  let s := mems (pageUp .loading) 512 [1024, 0, BitVec.ofNat 32 (1 + bs.length), 0]
  { s with pages := { s.pages with load := some (load1 bs) } }

/-- The record of module 0, plane-in-module 0, web line 51. -/
def rec1 (k : RecKind) (a : Bool) : Rec := { newRec jobUp 0 0 51 k [] 0 with assigned := a }

/-- The job open, line 50 of that module-plane handed over, and records `rs` waiting. -/
def lining (rs : List Rec) : State :=
  { pageUp .printing with
    pages := { jobUp.pages with list := [{ page1 .printing with n0 := some 51 }] }
    slices := { jobUp.slices with handed := [(mp 0 0, 50)], recs := rs } }

/-- Lane 0 in a state, after `t` trials and `n` searches, as logical lane `l` of a module group `g`. -/
def laned (st : LaneState) (t n : Nat) (l : Option Nat) : Lane :=
  { Lane.reset 0 with state := st, trials := t, searches := n, logical := l }

/-- The block with that lane 0 and groups all `g`. -/
def laneUp (x : Lane) (g : Group) : State :=
  { up with dxl := { up.dxl with lanes := [x], groups := List.replicate 45 g } }

theorem all_of {l l' : List Dword} {p : Dword → Bool} (h : l = l') (h' : l'.all p = true) : ∀ w ∈ l, p w = true := by
  subst h; exact List.all_eq_true.mp h'

theorem bound_of {o : Option Int} {a : Int} (h : o.all (fun b => decide (a ≤ b)) = true) : ∀ b, o = some b → a ≤ b := by
  rintro b rfl; simpa using h

theorem prop_of {α : Type} {o : Option α} {P : α → Prop} [DecidablePred P] (h : o.all (fun b => decide (P b)) = true) :
    ∀ b, o = some b → P b := by
  rintro b rfl; simpa using h

/-- The block with group 0 replaced. -/
def grouped (g : Group) : State := { linked with dxl := { linked.dxl with groups := g :: List.replicate 44 runGroup } }

/-- The block with the first lanes replaced and no group in RUN. -/
def lanesUp (ls : List Lane) : State := { up with dxl := { up.dxl with lanes := ls ++ List.replicate 172 (Lane.reset 0) } }

/-- A touchmark of 33 dwords, but for its CRC, read up to dword 31. -/
def fresh32 : Touch :=
  { dwords := [(0, 0xA7164D31), (1, 0x01000000), (5, 0x8000)], total := 33, asked := 33, got := 32, tries := 0, valid := false }

theorem touch32 (d : Dword) (hd : d.toNat = crc32d ((List.range 32).map (fdw fresh32))) :
    touchOk { fresh32 with dwords := mapSet 0 fresh32.dwords 32 d, got := 33 } = true ∧
    bitOf (fdw { fresh32 with dwords := mapSet 0 fresh32.dwords 32 d, got := 33 } 5) (12 + 3) = true := by
  generalize ht : ({ fresh32 with dwords := mapSet 0 fresh32.dwords 32 d, got := 33 } : Touch) = t
  have hf : ∀ i, fdw t i = if i = 32 then d else fdw fresh32 i := by
    subst ht; exact fun i => by simp only [fdw]; rw [mapGet_mapSet]
  have h33 : t.total = 33 := by subst ht; rfl
  have hl : (List.range 32).map (fdw t) = (List.range 32).map (fdw fresh32) :=
    List.map_congr_left fun i hi => by rw [hf, if_neg (by simp at hi; omega)]
  have h8 : fdw t 8 = 0 := by rw [hf, if_neg (by decide)]; decide
  have hr : (List.range 33).take 32 = List.range 32 := by decide
  refine ⟨?_, by rw [hf, if_neg (by decide)]; decide⟩
  simp only [touchOk, exclN, h33, h8, Bool.and_eq_true, beq_iff_eq, Nat.reduceSub, ← List.map_take, hr, hl]
  exact ⟨⟨⟨by rw [hf, if_neg (by decide)]; decide, by rw [hf, if_neg (by decide)]; decide⟩, by decide⟩, by rw [hf, if_pos rfl]; exact hd⟩

theorem crc_word (l : List Dword) : (BitVec.ofNat 32 (crc32d l)).toNat = crc32d l := by
  rw [BitVec.toNat_ofNat, Nat.mod_eq_of_lt (crc32d_lt l)]

/-- An assay setup record with camera 0 enabled. -/
def asyRec : List Dword :=
  [0x01000100, 0x00100000, 0, 0, 0x80000000, 0x30000010, 0, 0, 0, 0x30000001, 0, 0, 0, 0x30000001, 0, 0, 0, 0x30000001, 0, 0]

/-- The setup it describes. -/
def asy1 : AsySetup := setupOf (asyRec ++ List.replicate 44 0)

/-- The assay set up, its output 0 enabled with one pulse at web line 5, a scan of camera 0 under way, and `f` of the rest. -/
def assaying (f : Asy → Asy) : State :=
  { jobUp with
    pulses := List.replicate 4 { Pulse.reset with enable := true, total := 1, ring := [5] }
    asy := f { jobUp.asy with setup := some asy1
                              cams := List.replicate 4 { Camera.reset with open_ := some { trig := 1, pix0 := 0, npix := 16, deep := false, totals := [1, 1, 1, 1] }, aligned := some (1, 1) } } }

/-- A paired chip in a pair state, the partner link in RUN. -/
def paired (st : PairState) : State :=
  { linked with par := { up.par with enabled := true, linkRun := true, state := st, partnerRole := 2 } }

/-- A partner message of words `ws`. -/
def pmsg (ws : List Qword) : PMsg := { mseq := 0, crcOk := true, words := ws }

/-- One map generation, number 1. -/
def gen1 : Gen := { number := 1, boundary := none, full := false, codes := [], delta := [] }

/-- A paired servitor in SHADOW that holds page 9 in state `st`. -/
def pairedPage (st : PageState) : State := { pageUp st with par := (paired .shadow).par }

/-- Twelve counts, a line counter and a ratio as POSREF carries them, every count 0. -/
def refWords (g : Qword) : List Qword := List.replicate 18 0 ++ [g]

theorem digest_fields (s : State) (t : Nat × Nat) (h1 : t.1 < 256) (h2 : t.2 < 65536) :
    fld (digestWord s t) 56 8 = t.1 ∧ fld (digestWord s t) 40 16 = t.2 := by
  have h := crc32d_lt (tableImage s t.1 t.2)
  simp only [fld, digestWord, BitVec.toNat_ofNat]
  omega

theorem digest_bad (l : List (Nat × Nat)) (f : Nat × Nat → Qword) : (l.map f).filterMap (fun w =>
      if (l.map fun t => (t, f t)).any (fun x => x.2 == w) then none else some (fld w 56 8, fld w 40 16)) = [] := by
  simp only [List.filterMap_eq_nil_iff, List.mem_map]
  rintro w ⟨t, ht, rfl⟩
  rw [if_pos]
  simp only [List.any_map, List.any_eq_true]
  exact ⟨t, ht, by simp⟩

theorem digest_more (l : List (Nat × Nat)) (f : Nat × Nat → Qword) (h : ∀ t ∈ l, fld (f t) 56 8 = t.1 ∧ fld (f t) 40 16 = t.2) :
    ((l.map fun t => (t, f t)).filter fun x => !(l.map f).any fun w => fld w 56 8 == x.1.1 && fld w 40 16 == x.1.2) = [] := by
  simp only [List.filter_eq_nil_iff, List.mem_map]
  rintro x ⟨t, ht, rfl⟩
  simp only [List.any_map, Bool.not_eq_true', Bool.not_eq_false, List.any_eq_true]
  exact ⟨t, ht, by simp [h t ht]⟩

theorem digest_self (s : State) (h : ∀ t ∈ digestTables s, t.1 < 256 ∧ t.2 < 65536) :
    digestDiffers s ((digestTables s).map (digestWord s)) = none := by
  have hm := digest_more (digestTables s) (digestWord s) fun t ht => digest_fields s t (h t ht).1 (h t ht).2
  unfold digestDiffers
  simp only [digest_bad, hm, List.map_nil, List.append_nil, List.head?_nil, Option.map_none]

/-- Two ranks of channel 0 in states `a` and `b`. -/
def ranked (a b : RankState) (failing : Bool) : State :=
  let k : Rank := { ch := 0, rank := 0, state := a, failing := failing, cause := 2, noSpareRaised := false, fast := false, owed := 0 }
  { up with mem := { up.mem with cfg := some { mem6 with retirePages := 16, ranks := 2 }, ranks := [k, { k with rank := 1, state := b, failing := false }] } }

/-- The first of the two. -/
def rank0 (a : RankState) (failing : Bool) : Rank :=
  { ch := 0, rank := 0, state := a, failing := failing, cause := 2, noSpareRaised := false, fast := false, owed := 0 }

/-- One region of code `c` with the writes `ws` queued. -/
def regioned (c : Nat) (ws : List QueuedWrite) : State :=
  let ks := [rank0 .inService false, { rank0 .inService false with ch := 6 }]
  { up with mem := { up.mem with cfg := some mem6, regions := [{ kind := 3, code := c, size := 1 }], writes := ws, ranks := ks } }

/-- A copy on channel `ch` with `n` errors on the read and on the retry. -/
def copyOf (ch n : Nat) : CopyRead :=
  { place := { channel := ch, rank := 0, bg := 0, bank := 0, row := 0 }, errors := n, retryErrors := n }

/-- A read of the burst at address 64. -/
def read64 (a : CopyRead) (b : Option CopyRead) (u : BurstUse) : BurstRead :=
  { region := 0, addr := 64, use := u, copy0 := a, copy1 := b, data := 0, newer := [], by_ := .other }

/-- A write of the whole burst at address 64, queued. -/
def queued64 : QueuedWrite :=
  { write := { place := (copyOf 0 0).place, other := none, addr := 64, mask := BitVec.allOnes 64, data := 0 }, poison := false, clk := 0 }

/-- A burnish pass of region 0, begun by `e`. -/
def pass1 (e : Entry) : Burnish :=
  { region := 0, first := 0, pages := 8, rate := 1, maxAddr := 0, summary := 256, next := 0, pagesDone := 0, ceBursts := 0, ueNew := 0, poisonSeen := 0
    mirrorFix := 0, wbDropped := 0, ceRows := [], addrs := [], stopping := false, entry := e }

/-- An axis enabled and able to run, in state `st`. -/
def axis1 (st : AxisState) : Axis :=
  { Axis.reset with cfg := { Axis.reset.cfg with enable := true, vHard := 5000, aHard := 5000, jHard := 5000 }, state := st }

/-- The block with that axis as axis 0 and loop slot 0 as `l`. -/
def moved (a : Axis) (l : Loop) : State :=
  { up with mot := { up.mot with axes := a :: List.replicate 7 Axis.reset, loops := l :: List.replicate 31 Loop.reset } }

/-- The search of a homing under way. -/
def search1 : Homing :=
  { phase := 1, neg := false, sw := 0, debounce := 1, seekV := 5, latchV := 1, hacc := 100, backoff := 0, homePos := 0, seekCapture := 0, latched := 0
    released := none, wasOn := false, stopping := false, limitSeen := false, toBack := false, aborted := false, atSet := false }

/-- A table of two knots. -/
def knots1 : List Knot := [{ dt := 0, vel := 0, pos := 0 }, { dt := 100, vel := 0, pos := 5 }]

/-- A state with that table in slot 0. -/
def withTable (s : State) : State := { s with mot := { s.mot with tables := [(0, knots1)] } }

/-- A loop from analogue input 0 to axis 0. -/
def loopDws : List Dword := [0x00000800, 0x00800000, 0, 0, 0, 0, 0, 1, 0, 1, 0, 0, 0, 0, 0, 0]

/-- The slot that holds it. -/
def loop1 : Loop := { Loop.reset with desc := { dw := loopDws } }

/-- A JOB_CLOSE with ROLE_REQ `q`, in flight with latch `l`. -/
def closing (q : Nat) (l : PairState) (s : State) : Entry × InFlight × State :=
  let e : Entry := { words := BitVec.ofNat 32 (0x0102 * 65536 + q * 16384) :: List.replicate 15 0 }
  (e, { fly e with latch := l }, { s with mbx := { s.mbx with inFlight := [{ fly e with latch := l }] } })

theorem lapse_exec : exec .challengeLapse up = .next up := rfl

theorem lapse_step : step { up with pending := [.challengeLapse] } = .next up := rfl

/-- A record of two drops for the scheduler. -/
def sched (row : Nat) : Rec := { rec1 .print false with levels := [(0, 3), (7, 1)], refill := 16, directRow := row, b := 51 }

/-! Terms that are not well formed, one for each check. -/

theorem test_wf_accepts : (Instr.jobClose (cmd 0x0102 [])).wellFormed = true := by decide

theorem test_wf_opcode : (Instr.jobClose (cmd 0x0101 [])).wellFormed = false := by decide

theorem test_wf_entry_length : (Instr.jobClose { words := [0x01020000] }).wellFormed = false := by decide

theorem test_wf_unknown_entry_length : (Instr.unknownOpcode { words := [] }).wellFormed = false := by decide

theorem test_wf_ring_index : (Instr.doorbell 0 [{ index := 256, entry := cmd 0x0102 [] }] []).wellFormed = false := by decide

theorem test_wf_ring_entry : (Instr.doorbell 0 [{ index := 0, entry := { words := [] } }] []).wellFormed = false := by decide

theorem test_wf_host_cell : (Instr.doorbell 0 [] [(2 ^ 64, 1)]).wellFormed = false := by decide

theorem test_wf_register_offset : (Instr.registerWrite 0x16 0).wellFormed = false := by decide

theorem test_wf_image : (Instr.bootGo 0 (List.replicate 0x00F00001 0)).wellFormed = false := by
  simp only [Instr.wellFormed, List.length_replicate]; decide

theorem test_wf_read_length : (Instr.dmaReadCompletion 0 513 .ok).wellFormed = false := by decide

theorem test_wf_plane : (Instr.sliceDeadline 40 0 0).wellFormed = false := by decide

theorem test_wf_pim : (Instr.sliceDeadline 0 4 0).wellFormed = false := by decide

theorem test_wf_lane : (Instr.laneDetect 172).wellFormed = false := by decide

theorem test_wf_group : (Instr.groupBringup ⟨45, 0⟩).wellFormed = false := by decide

theorem test_wf_pace : (Instr.paceReading [0]).wellFormed = false := by decide

theorem test_wf_message : (Instr.gen { mseq := 2 ^ 24, crcOk := true, words := [] }).wellFormed = false := by decide

theorem test_wf_copy : (Instr.memRead ⟨[], read64 (copyOf 12 0) none .plain⟩).wellFormed = false := by decide

theorem test_wf_burst : (Instr.memRead ⟨[], { read64 (copyOf 0 0) none .plain with addr := 65 }⟩).wellFormed = false := by decide

/-! The manual's worked examples. -/

/-- Plane 9 of *Locating one drop*: D = 5,000.25 lines, STAGGER 2,835, LEAD 128; row 7 of module 25, plane-in-module 1 has trim −3. -/
def drop9 (s : Nat) : State :=
  { jobUp with job := some { job1 with s := s, stagger := 2835 }
               web := { jobUp.web with dOff := { base := [(9, 1280064)], changes := [] } }
               dxl := { jobUp.dxl with groups := List.replicate 45 { runGroup with touch := { runGroup.touch with dwords := [(13, 0xFD000000)] } } } }

/-- *Locating one drop*, step 3: module 25, plane-in-module 1, column 108, row 7. The word is R37's layout of them; the example
prints 0x6501_6C70, in which R37's PCOL is 364 (log 12). -/
theorem test_packed_address : unpack 0x65006C70 = some 20168983 ∧ ordinal 25 1 108 7 = 20168983 := by decide +kernel

theorem test_drop_tick : 0 + rowU (drop9 1) 25 1 7 0 / 256 = 7947 ∧ rowU (drop9 1) 25 1 7 0 % 256 = 64 := by decide +kernel

theorem test_drop_tick_1200 : rowU (drop9 2) 25 1 7 0 / 512 = 3973 ∧ rowU (drop9 2) 25 1 7 0 % 512 = 320 := by decide +kernel

theorem test_hold_depth : holdDepth { job1 with stagger := 2835 } = 3139 ∧ holdDepth { job1 with s := 2, stagger := 2835 } = 1634 := by
  decide +kernel

/-- *Placing one row*: φ = 61 and the period code at 600,000 lines/s. -/
theorem test_row_phase : phaseRaw (drop9 1) 25 1 7 0 = 61 := by decide +kernel

theorem test_period_code : periodCode { up with ftb := { up.ftb with speed := 614400000 } } = 42666 := by decide +kernel

/-- *A line-work block with a rule*. -/
theorem test_linework_block : encodeBlock 2 1 (List.replicate 96 0 ++ List.replicate 64 3 ++ List.replicate 96 0) =
    [0x17, 0xFF, 0x75, 0x7F, 0x66, 0xBF, 0xFB, 0x00] := by decide +kernel

/-- Its spilled slot: unit 0x1234. -/
theorem test_spill_slot : spillSlot 4 0x1234 = [0x80, 0x00, 0x12, 0x34] := by decide +kernel

/-- *A contone block of stripes*. -/
theorem test_contone_block : encodeBlock 8 3 ((List.range 256).map fun i => if i % 2 = 0 then 10 else 200) =
    [0x29, 0x47, 0x87, 0xBF, 0xFF, 0xFC] := by decide +kernel

/-- *One column of plane 6*: the upsampled tone 1,443 of a contone edge, and the planished tone. -/
theorem test_upsample :
    upsample jobUp (fun i _ => if i < 17602 then 40 else if i = 17602 then 100 else 200) 70409 1000 = 1443 := by decide +kernel

theorem test_curve_tone : curveTone ((List.range 256).map fun g => if g = 90 then 1500 else 1520) 1443 = 1504 := by decide +kernel

theorem test_unit_curve : curveTone unitCurve 1443 = 1448 := by decide +kernel

/-- *A column at 300,000 lines/s* and *the same cluster at 600,000*: REFILL 6 and 12, for FMAX 50,000. -/
theorem test_refill :
    let s := { jobUp with job := some { job1 with stagger := 2835, accelMax := 283000 } }
    refillFor s 300000 50000 = (6, false) ∧ refillFor s 600000 50000 = (12, false) := by decide +kernel

/-- *Fitting a twelve-plane press*: E1 allows 504,807 lines/s at 25.6 Gb/s. -/
theorem test_e1 : lmax (cLink 2) (16640 * 4 * 2) = 504807 := by decide +kernel

/-- *First line at full speed*: the set-up takes 15 lines. -/
theorem test_setup_lines : setupLines { up with pwr := { up.pwr with vcore := 800 }, job := some { job1 with tDecl := 105, vcore := 800 } } 600000 = 15 := by
  decide +kernel

/-- *A correction and a rate*. -/
theorem test_residence :
    let p := { Port.reset with configured := true, enable := true }
    residence { up with ports := [{ p with fast := true, boardRx := 1024 }, { p with boardTx := 768 }] } 0 1
      (500000100 * 65536) (500001900 * 65536) = 123708375 := by decide +kernel

theorem test_time_rate : timeInc 200000 = 10737552457 := by decide +kernel

/-- The registers R380 gives a value after reset. -/
theorem test_id_register : bar0Read State.reset 0 = 0x1640B001 := by decide +kernel

/-- R96's unit curve ends at 4,095, and R101's middle cut gives zone columns 128 to 255 to the upper module. -/
theorem test_middle_cut : (middleCut.getD 0 0).getLsbD 127 = false ∧ (middleCut.getD 0 0).getLsbD 128 = true := by decide +kernel

/-! The worked examples of the stated bounds (Machine/Bounds.lean) and of the symbol coding. -/

/-- *First line at full speed*: 240.7 µs and 24.966 ms. -/
theorem test_first_line :
    Bounds.firstDrop 1 128 600000 = 361 / 1500000 ∧ Bounds.firstLine 1 128 12000 2835 1 600000 = 74897 / 3000000 := by
  decide +kernel

/-- R214's largest case stays below 123.2 lines, and *losing a lane* falls 29.2 lines behind. -/
theorem test_recovery_lines :
    Bounds.recoveryLines 8000000000 3 420673 true ≤ 1232 / 10 ∧ Bounds.recoveryLines 25600000000 4 480000 false < 2925 / 100 := by
  decide +kernel

/-- *Exclusion on the twelve-plane press*: 3.1490 s. -/
theorem test_exclusion :
    let t := Bounds.exclusion (94 / 100) 1 (Bounds.bandSpacing 12 4 50 9600 3072) 3072 48000 4 128 12000 1000 480000
    31489 / 10000 < t ∧ t < 31491 / 10000 := by decide +kernel

/-- R277 at 600,000 lines/s: 34 lines. -/
theorem test_takeover : Bounds.takeoverLosesNone 600000 34 = true ∧ Bounds.takeoverLosesNone 600000 33 = false := by decide +kernel

/-- R420 at 100 MHz: at most 718.1 µs for the largest image. -/
theorem test_save_time : Bounds.save 131072 100000000 ≤ 7182 / 10000000 := by decide +kernel

/-- R208: 49 of the 66 bits of a training symbol are 1. -/
theorem test_training_density : (trainingSymbol false).count true = 49 ∧ (trainingSymbol true).count true = 49 := by decide +kernel

/-- R183: 30 zeros are followed by a stuffed 1. -/
theorem test_stuffing : (stuffBits { bit := true, count := 0 } (List.replicate 31 false)).1 =
    List.replicate 30 false ++ [true, false] := by decide +kernel

/-! Witnesses of the statements' hypotheses. -/

theorem witness_ResetAndBoot_4 : ∃ (s : State) (v : Dword),
    fld v 0 8 = 0xA5 ∧ s.pwr.state ≠ .off ∧ s.pins.resetHeld = false :=
  ⟨up, 0xA5,
    by decide +kernel⟩

theorem witness_ResetAndBoot_5 : ∃ (s : State) (v : Dword),
    (fld v 0 8 ≠ 0xA5 ∨ s.pwr.state = .off ∨ s.pins.resetHeld = true) :=
  ⟨inPower .off, 0xA5,
    by decide +kernel⟩

theorem witness_ResetAndBoot_7 : ∃ (s : State) (v : Dword),
    acceptsImage s = true ∧ bitOf v 31 = true :=
  ⟨State.reset, 0x80001000,
    by decide +kernel⟩

theorem witness_ResetAndBoot_8 : ∃ (s : State),
    s.boot.state = .verifying :=
  ⟨{ up with boot := { up.boot with state := .verifying } },
    by decide +kernel⟩

theorem witness_ResetAndBoot_9 : ∃ (s : State),
    s.boot.state = .starting :=
  ⟨{ up with boot := { up.boot with state := .starting } },
    by decide +kernel⟩

theorem witness_MailboxRings_1 : ∃ (s : State),
    bootRunning s = true ∧ s.mbx.inFlight = [] :=
  ⟨up,
    by decide +kernel⟩

theorem witness_MailboxRings_2 : ∃ (s : State),
    hasRun s = true :=
  ⟨up,
    by decide +kernel⟩

theorem witness_MailboxRings_3 : ∃ (s : State),
    bootRunning s = true ∧ s.mbx.sqTail < 256 :=
  ⟨up,
    by decide +kernel⟩

theorem witness_MailboxRings_4 : ∃ (s : State),
    hasRun s = true :=
  ⟨up,
    by decide +kernel⟩

theorem witness_MailboxRings_5 : ∃ (s : State),
    s.pins.resetHeld = false :=
  ⟨State.reset,
    by decide +kernel⟩

theorem witness_MailboxRings_6 : ∃ (s : State),
    s.pins.resetHeld = false ∧ hasRun s = true :=
  ⟨up,
    by decide +kernel⟩

theorem witness_MailboxRings_7 : ∃ (s : State),
    s.pins.resetHeld = false ∧ hasRun s = true :=
  ⟨up,
    by decide +kernel⟩

theorem witness_MailboxRings_8 : ∃ (s : State),
    s.pins.resetHeld = false ∧ hasRun s = true :=
  ⟨up,
    by decide +kernel⟩

theorem witness_MailboxRings_9 : ∃ (s : State) (k : Nat),
    s.pins.resetHeld = false ∧ k < 128 :=
  ⟨State.reset, 127,
    by decide +kernel⟩

theorem witness_MailboxRings_10 : ∃ (s : State) (x : RingSlot),
    mayFetch s = true ∧ s.mbx.ring.find? (fun y => y.index == s.mbx.sqHead) = some x :=
  ⟨{ up with mbx := { up.mbx with enable := true, sqTail := 1, ring := [{ index := 0, entry := cmd 0x0706 [], latch := .gaffer, epoch := 0, seen := 0 }] } }, { index := 0, entry := cmd 0x0706 [], latch := .gaffer, epoch := 0, seen := 0 },
    by decide +kernel⟩

theorem witness_MailboxRings_11 : ∃ (s : State) (e : Entry) (r : InFlight),
    assigned (opcodeOf e) = false ∧ commitRecord s e = some r :=
  ⟨turn (up) (cmd 0x0C00 []), cmd 0x0C00 [], fly (cmd 0x0C00 []),
    by decide +kernel⟩

theorem witness_MailboxRings_12 : ∃ (s : State),
    s.par.state ≠ .failed ∧ s.pwr.state ≠ .save ∧ s.pwr.state ≠ .off ∧ s.pins.resetHeld = false :=
  ⟨up,
    by decide +kernel⟩

theorem witness_QuenchAndObservation_1 : ∃ (e : Entry) (s : State) (r : InFlight),
    Turn 0x0A01 e s r ∧ bitOf (pw e 0) 0 = false ∧ armFormatOk e = true ∧ (bitOf (pw e 0) 30 = true →
    laterThanNow s (armTime e).1 (armTime e).2 = true) ∧ (bitOf (pw e 0) 29 = true → hostReadEnd s (pq e 4) 512
    = .ok) :=
  ⟨cmd 0x0A01 [0xC0000000, 0, 1, 0], turn (up) (cmd 0x0A01 [0xC0000000, 0, 1, 0]), fly (cmd 0x0A01 [0xC0000000, 0, 1, 0]),
    by refine ⟨by decide +kernel, by decide +kernel, by decide +kernel, fun _ => by decide +kernel, fun h => absurd h (by decide +kernel)⟩⟩

theorem witness_QuenchAndObservation_2 : ∃ (e : Entry) (s : State) (r : InFlight),
    Turn 0x0A01 e s r ∧ bitOf (pw e 0) 0 = true ∧ armFormatOk e = true :=
  ⟨cmd 0x0A01 [1], turn (up) (cmd 0x0A01 [1]), fly (cmd 0x0A01 [1]),
    by decide +kernel⟩

theorem witness_QuenchAndObservation_3 : ∃ (e : Entry) (s : State) (r : InFlight),
    Turn 0x0A02 e s r ∧ rsvOk e [] = true ∧ (s.quench.armed = true ∨ joinsQuench s = true) :=
  ⟨cmd 0x0A02 [], turn ({ up with quench := { up.quench with armed := true } }) (cmd 0x0A02 []), fly (cmd 0x0A02 []),
    by decide +kernel⟩

theorem witness_QuenchAndObservation_4 : ∃ (e : Entry) (s : State) (r : InFlight),
    Turn 0x0A03 e s r ∧ rsvOk e [0, 0, allBits, allBits] = true ∧ s.quench.valid = true ∧ s.quench.armed = false :=
  ⟨cmd 0x0A03 [0, 0, 64], turn ({ up with quench := { up.quench with valid := true } }) (cmd 0x0A03 [0, 0, 64]), fly (cmd 0x0A03 [0, 0, 64]),
    by decide +kernel⟩

theorem witness_QuenchAndObservation_5 : ∃ (e : Entry) (s : State) (r : InFlight),
    Turn 0x0A04 e s r ∧ rsvOk e [allBits, 0, allBits, allBits] = true ∧ 1 ≤ (pw e 0).toNat ∧ (pw e 0).toNat ≤
    1024 :=
  ⟨cmd 0x0A04 [1024, 0, 64], turn (up) (cmd 0x0A04 [1024, 0, 64]), fly (cmd 0x0A04 [1024, 0, 64]),
    by decide +kernel⟩

theorem witness_QuenchAndObservation_6 : ∃ (e : Entry) (s : State) (r : InFlight),
    Turn 0x0A05 e s r ∧ rsvOk e [0, 0, allBits, allBits] = true ∧ pq e 2 % 64 = 0 ∧ hostReadEnd s (pq e 2) 1024
    = .ok :=
  ⟨cmd 0x0A05 [0, 0, 64], turn (up) (cmd 0x0A05 [0, 0, 64]), fly (cmd 0x0A05 [0, 0, 64]),
    by decide +kernel⟩

theorem witness_QuenchAndObservation_7 : ∃ (e : Entry) (s : State) (r : InFlight),
    Turn 0x0A06 e s r ∧ rsvOk e [allBits, allBits, allBits, allBits] = true ∧ 1 ≤ (pw e 1).toNat ∧ (pw e
    1).toNat ≤ 4096 ∧ countersIn (pw e 0).toNat (pw e 1).toNat ≠ [] :=
  ⟨cmd 0x0A06 [4096, 4096, 64], turn (up) (cmd 0x0A06 [4096, 4096, 64]), fly (cmd 0x0A06 [4096, 4096, 64]),
    by decide +kernel⟩

theorem witness_QuenchAndObservation_8 : ∃ (e : Entry) (s : State) (r : InFlight),
    Turn 0x0A07 e s r ∧ rsvOk e [allBits, allBits] = true ∧ 1 ≤ (pw e 1).toNat ∧ (pw e 1).toNat ≤ 53248 :=
  ⟨cmd 0x0A07 [0, 53248], turn (up) (cmd 0x0A07 [0, 53248]), fly (cmd 0x0A07 [0, 53248]),
    by decide +kernel⟩

theorem witness_QuenchAndObservation_9 : ∃ (e : Entry) (s : State) (r : InFlight),
    Turn 0x0A08 e s r ∧ rsvOk e [0, 0, allBits, allBits] = true :=
  ⟨cmd 0x0A08 [0, 0, 64], turn (up) (cmd 0x0A08 [0, 0, 64]), fly (cmd 0x0A08 [0, 0, 64]),
    by decide +kernel⟩

theorem witness_QuenchAndObservation_11 : ∃ (s : State),
    s.quench.pinEn = true :=
  ⟨{ up with quench := { up.quench with pinEn := true } },
    by decide +kernel⟩

theorem witness_PowerTransitions_1 : ∃ (e : Entry) (s : State) (r : InFlight),
    Turn 0x0901 e s r ∧ rsvOk e [0xE0000000] = true ∧ powerTarget (fld (pw e 0) 29 3) = some s.pwr.state :=
  ⟨cmd 0x0901 [0], turn (up) (cmd 0x0901 [0]), fly (cmd 0x0901 [0]),
    by decide +kernel⟩

theorem witness_PowerTransitions_2 : ∃ (e : Entry) (s : State) (r : InFlight),
    Turn 0x0901 e s r ∧ rsvOk e [0xE0000000] = true ∧ s.pwr.state = .ready ∧ fld (pw e 0) 29 3 = 0 :=
  ⟨cmd 0x0901 [0], turn (inPower .ready) (cmd 0x0901 [0]), fly (cmd 0x0901 [0]),
    by decide +kernel⟩

theorem witness_PowerTransitions_3 : ∃ (e : Entry) (s : State) (r : InFlight),
    Turn 0x0901 e s r ∧ rsvOk e [0xE0000000] = true ∧ s.pwr.state = .print ∧ fld (pw e 0) 29 3 = 1 ∧ anyActive s
    = false :=
  ⟨cmd 0x0901 [0x20000000], turn (up) (cmd 0x0901 [0x20000000]), fly (cmd 0x0901 [0x20000000]),
    by decide +kernel⟩

theorem witness_PowerTransitions_4 : ∃ (e : Entry) (s : State) (r : InFlight),
    Turn 0x0901 e s r ∧ rsvOk e [0xE0000000] = true ∧ s.pwr.state = .ready ∧ fld (pw e 0) 29 3 = 2 ∧ s.job =
    none ∧ dropsLeft s = false :=
  ⟨cmd 0x0901 [0x40000000], turn (inPower .ready) (cmd 0x0901 [0x40000000]), fly (cmd 0x0901 [0x40000000]),
    by decide +kernel⟩

theorem witness_PowerTransitions_5 : ∃ (e : Entry) (s : State) (r : InFlight),
    Turn 0x0901 e s r ∧ rsvOk e [0xE0000000] = true ∧ s.pwr.state = .parked ∧ fld (pw e 0) 29 3 = 1 ∧
    s.mem.ready = true :=
  ⟨cmd 0x0901 [0x20000000], turn (inPower .parked) (cmd 0x0901 [0x20000000]), fly (cmd 0x0901 [0x20000000]),
    by decide +kernel⟩

theorem witness_PowerTransitions_6 : ∃ (e : Entry) (s : State) (r : InFlight),
    Turn 0x0901 e s r ∧ rsvOk e [0xE0000000] = true ∧ s.pwr.state = .parked ∧ fld (pw e 0) 29 3 = 3 ∧
    motionQuiet s = true ∧ pairedGaffer s = false :=
  ⟨cmd 0x0901 [0x60000000], turn (inPower .parked) (cmd 0x0901 [0x60000000]), fly (cmd 0x0901 [0x60000000]),
    by decide +kernel⟩

theorem witness_PowerTransitions_7 : ∃ (e : Entry) (s : State) (r : InFlight),
    Turn 0x0901 e s r ∧ rsvOk e [0xE0000000] = true ∧ s.pwr.state = .sleep ∧ fld (pw e 0) 29 3 = 2 :=
  ⟨cmd 0x0901 [0x40000000], turn (inPower .sleep) (cmd 0x0901 [0x40000000]), fly (cmd 0x0901 [0x40000000]),
    by decide +kernel⟩

theorem witness_PowerTransitions_8 : ∃ (e : Entry) (s : State) (r : InFlight),
    Turn 0x0901 e s r ∧ rsvOk e [0xE0000000] = true ∧ (s.pwr.state = .ready ∨ s.pwr.state = .parked ∨
    s.pwr.state = .sleep) ∧ fld (pw e 0) 29 3 = 5 ∧ dropsLeft s = false ∧ pairedGaffer s = false :=
  ⟨cmd 0x0901 [0xA0000000], turn (inPower .sleep) (cmd 0x0901 [0xA0000000]), fly (cmd 0x0901 [0xA0000000]),
    by decide +kernel⟩

theorem witness_PowerTransitions_9 : ∃ (s : State),
    s.pwr.state ≠ .save ∧ s.pwr.state ≠ .off :=
  ⟨up,
    by decide +kernel⟩

theorem witness_PowerTransitions_10 : ∃ (s : State),
    s.pwr.saving = true :=
  ⟨{ up with pwr := { up.pwr with saving := true } },
    by decide +kernel⟩

theorem witness_PowerAndAnneal_1 : ∃ (e : Entry) (s : State) (r : InFlight),
    Turn 0x0902 e s r ∧ rsvOk e [0xFFFF] = true ∧ 650 ≤ fld (pw e 0) 0 16 ∧ fld (pw e 0) 0 16 ≤ 850 ∧ fld (pw e
    0) 0 16 % 5 = 0 ∧ (∀ j, s.job = some j → j.vcore ≤ fld (pw e 0) 0 16) :=
  ⟨cmd 0x0902 [850], turn (up) (cmd 0x0902 [850]), fly (cmd 0x0902 [850]),
    by refine lead3 (by decide +kernel) ⟨by decide +kernel, by decide +kernel, fun j h => ?_⟩; cases h⟩

theorem witness_PowerAndAnneal_3 : ∃ (e : Entry) (s : State) (r : InFlight) (x : BitVec 8),
    Turn 0x0902 e s r ∧ rsvOk e [0xFFFF] = true ∧ 650 ≤ fld (pw e 0) 0 16 ∧ fld (pw e 0) 0 16 ≤ 850 ∧ fld (pw e
    0) 0 16 % 5 = 0 ∧ (∀ j, s.job = some j → j.vcore ≤ fld (pw e 0) 0 16) ∧ x.toNat < 16 :=
  ⟨cmd 0x0902 [850], turn (up) (cmd 0x0902 [850]), fly (cmd 0x0902 [850]), 15,
    by decide +kernel⟩

theorem witness_PowerAndAnneal_4 : ∃ (s : State) (r : InFlight) (mv : Nat) (v : Nat),
    runningCmd s 0x0902 = some r ∧ r.note = [v] ∧ mv ≤ v + 10 ∧ v ≤ mv + 10 :=
  ⟨{ up with mbx := { up.mbx with inFlight := [{ fly (cmd 0x0902 [750]) with committed := true, note := [750] }] } }, { fly (cmd 0x0902 [750]) with committed := true, note := [750] }, 760, 750,
    by decide +kernel⟩

theorem witness_PowerAndAnneal_5 : ∃ (e : Entry) (s : State) (r : InFlight),
    Turn 0x0904 e s r ∧ fld (pw e 0) 0 2 = 0 ∧ keepPayloadOk e = true ∧ hostReadEnd s (pq e 2) 32 = .ok ∧
    powerRecordOk (hostDws s (pq e 2) 8) = true :=
  ⟨cmd 0x0904 [0, 0, 256], turn (mems up 256 [0x01000000, 0, 0, 0x4B000A00]) (cmd 0x0904 [0, 0, 256]), fly (cmd 0x0904 [0, 0, 256]),
    by decide +kernel⟩

theorem witness_PowerAndAnneal_6 : ∃ (e : Entry) (s : State) (r : InFlight) (one : Bool),
    Turn 0x0904 e s r ∧ fld (pw e 0) 0 2 = 1 ∧ keepPayloadOk e = true ∧ newestSlot s = some one :=
  ⟨cmd 0x0904 [1, 0, 256], turn ({ up with pwr := { up.pwr with keepDev := [(0, [0x4B454550, 0, 1, 64, 0, 0, 0, BitVec.ofNat 32 (crc32d [])])] } }) (cmd 0x0904 [1, 0, 256]), fly (cmd 0x0904 [1, 0, 256]), false,
    by decide +kernel⟩

theorem witness_PowerAndAnneal_7 : ∃ (e : Entry) (s : State) (r : InFlight),
    Turn 0x0904 e s r ∧ fld (pw e 0) 0 2 = 2 ∧ keepPayloadOk e = true :=
  ⟨cmd 0x0904 [2], turn (up) (cmd 0x0904 [2]), fly (cmd 0x0904 [2]),
    by decide +kernel⟩

theorem witness_PowerAndAnneal_8 : ∃ (e : Entry) (s : State) (r : InFlight),
    Turn 0x0903 e s r ∧ fld (pw e 0) 0 2 = 0 ∧ rsvOk e [3] = true ∧ anyActive s = false ∧ dropsLeft s = false :=
  ⟨cmd 0x0903 [0], turn (up) (cmd 0x0903 [0]), fly (cmd 0x0903 [0]),
    by decide +kernel⟩

theorem witness_PowerAndAnneal_9 : ∃ (e : Entry) (s : State) (r : InFlight),
    Turn 0x0903 e s r ∧ fld (pw e 0) 0 2 = 1 ∧ rsvOk e [3] = true ∧ anyActive s = false ∧ dropsLeft s = false :=
  ⟨cmd 0x0903 [1], turn (up) (cmd 0x0903 [1]), fly (cmd 0x0903 [1]),
    by decide +kernel⟩

theorem witness_PowerAndAnneal_10 : ∃ (e : Entry) (s : State) (r : InFlight),
    Turn 0x0903 e s r ∧ fld (pw e 0) 0 2 = 2 ∧ rsvOk e [3] = true :=
  ⟨cmd 0x0903 [2], turn (up) (cmd 0x0903 [2]), fly (cmd 0x0903 [2]),
    by decide +kernel⟩

theorem witness_PowerAndAnneal_11 : ∃ (s : State),
    s.anneal.running = false ∧ annealState s = true ∧ (s.anneal.granted = true ∨ annealMayStart s (lineCounter
    s) = true) :=
  ⟨{ up with anneal := { up.anneal with granted := true } },
    by decide +kernel⟩

theorem witness_PowerAndAnneal_12 : ∃ (s : State),
    s.anneal.running = true :=
  ⟨{ up with anneal := { up.anneal with running := true } },
    by decide +kernel⟩

theorem witness_PowerAndAnneal_13 : ∃ (s : State),
    s.anneal.running = true :=
  ⟨{ up with anneal := { up.anneal with running := true } },
    by decide +kernel⟩

theorem witness_PowerAndAnneal_14 : ∃ (s : State) (i : Nat),
    s.anneal.ainCal = some i :=
  ⟨{ up with anneal := { up.anneal with ainCal := some 2 } }, 2,
    by decide +kernel⟩

theorem witness_PowerAndAnneal_17 : ∃ (e : Entry) (s : State) (r : InFlight),
    Turn 0x0905 e s r ∧ rsvOk e [] = true :=
  ⟨cmd 0x0905 [], turn (up) (cmd 0x0905 []), fly (cmd 0x0905 []),
    by decide +kernel⟩

theorem witness_LifecycleAndDebug_1 : ∃ (e : Entry) (s : State) (r : InFlight),
    Turn 0x0907 e s r ∧ lifecycleFormatOk e = true ∧ fld (pw e 0) 0 2 = 0 ∧ s.pwr.state = .parked ∧ hostReadEnd
    s (pq e 2) 96 = .ok ∧ lifecycle s = 0 ∧ s.sec.ownerHash &&& ~~~(sha384 (hostBytes s (pq e 2) 96)) = 0 :=
  ⟨cmd 0x0907 [0x5A000000], turn (inPower .parked) (cmd 0x0907 [0x5A000000]), fly (cmd 0x0907 [0x5A000000]),
    by refine lead3 (by decide +kernel) (lead3 (by decide +kernel) (?_)); simp [turn, inPower, up, State.reset]⟩

theorem witness_LifecycleAndDebug_2 : ∃ (e : Entry) (s : State) (r : InFlight),
    Turn 0x0907 e s r ∧ lifecycleFormatOk e = true ∧ fld (pw e 0) 0 2 = 1 ∧ s.pwr.state = .parked ∧ (lifecycle s
    = 0 ∨ (lifecycle s = 1 ∧ s.sec.debug = .full)) :=
  ⟨cmd 0x0907 [0x5A000001], turn (inPower .parked) (cmd 0x0907 [0x5A000001]), fly (cmd 0x0907 [0x5A000001]),
    by decide +kernel⟩

theorem witness_LifecycleAndDebug_3 : ∃ (e : Entry) (s : State) (r : InFlight),
    Turn 0x0907 e s r ∧ lifecycleFormatOk e = true ∧ fld (pw e 0) 0 2 = 2 ∧ s.pwr.state = .parked ∧ lifecycle s
    ≠ 2 ∧ rbCount s < s.boot.imgRollback :=
  ⟨cmd 0x0907 [0x5A000002], turn (inPower .parked) (cmd 0x0907 [0x5A000002]), fly (cmd 0x0907 [0x5A000002]),
    by decide +kernel⟩

theorem witness_LifecycleAndDebug_4 : ∃ (e : Entry) (s : State) (r : InFlight) (k : Nat),
    Turn 0x0907 e s r ∧ lifecycleFormatOk e = true ∧ fld (pw e 0) 0 2 = 2 ∧ s.pwr.state = .parked ∧ lifecycle s
    ≠ 2 ∧ rbCount s + k < s.boot.imgRollback :=
  ⟨cmd 0x0907 [0x5A000002], turn (inPower .parked) (cmd 0x0907 [0x5A000002]), fly (cmd 0x0907 [0x5A000002]), 2,
    by decide +kernel⟩

theorem witness_LifecycleAndDebug_5 : ∃ (e : Entry) (s : State) (r : InFlight),
    Turn 0x0908 e s r ∧ rsvOk e [] = true ∧ s.pwr.state ≠ .sleep :=
  ⟨cmd 0x0908 [], turn (up) (cmd 0x0908 []), fly (cmd 0x0908 []),
    by decide +kernel⟩

theorem witness_LifecycleAndDebug_7 : ∃ (e : Entry) (s : State) (r : InFlight),
    Turn 0x0909 e s r ∧ rsvOk e [3, 0, allBits, allBits] = true ∧ fld (pw e 0) 0 2 ≠ 3 ∧ pq e 2 % 8 = 0 ∧ fld
    (pw e 0) 0 2 ≤ debugCode s.sec.debug :=
  ⟨cmd 0x0909 [1], turn ({ up with sec := { up.sec with debug := .full } }) (cmd 0x0909 [1]), fly (cmd 0x0909 [1]),
    by decide +kernel⟩

theorem witness_LifecycleAndDebug_8 : ∃ (e : Entry) (s : State) (r : InFlight),
    Turn 0x0909 e s r ∧ rsvOk e [3, 0, allBits, allBits] = true ∧ fld (pw e 0) 0 2 = 1 ∧ pq e 2 % 8 = 0 ∧
    s.sec.debug = .closed ∧ lifecycle s = 0 ∧ s.pwr.state ≠ .sleep ∧ s.sec.fails < 3 :=
  ⟨cmd 0x0909 [1], turn (up) (cmd 0x0909 [1]), fly (cmd 0x0909 [1]),
    by decide +kernel⟩

theorem witness_LifecycleAndDebug_9 : ∃ (e : Entry) (s : State) (r : InFlight),
    Turn 0x090B e s r ∧ rsvOk e [] = true :=
  ⟨cmd 0x090B [], turn (up) (cmd 0x090B []), fly (cmd 0x090B []),
    by decide +kernel⟩

theorem witness_DebugPort_1 : ∃ (s : State) (code : BitVec 8),
    dbgMode s ≠ .n ∧ jtagCodes.contains code.toNat = true ∧ jtagPermitted (dbgMode s) code.toNat = true :=
  ⟨{ up with sec := { up.sec with debug := .full, jtag := 0x10 } }, 0x11,
    by decide +kernel⟩

theorem witness_DebugPort_2 : ∃ (s : State) (code : BitVec 8),
    dbgMode s ≠ .n ∧ (jtagCodes.contains code.toNat = false ∨ jtagPermitted (dbgMode s) code.toNat = false) :=
  ⟨{ up with sec := { up.sec with debug := .full, jtag := 0x10 } }, 0x7F,
    by decide +kernel⟩

theorem witness_DebugPort_3 : ∃ (s : State) (reg : BitVec 96),
    dbgMode s ≠ .n ∧ s.sec.jtag = 0x10 ∧ s.time.clk < s.sec.dbgUntil ∧ fld reg 94 2 = 1 :=
  ⟨{ up with sec := { up.sec with debug := .closed, jtag := 0x10, dbgUntil := 1 } }, 1 <<< 94,
    by decide +kernel⟩

theorem witness_DebugPort_4 : ∃ (s : State) (reg : BitVec 96),
    dbgMode s ≠ .n ∧ s.sec.jtag = 0x10 ∧ s.time.clk < s.sec.dbgUntil ∧ fld reg 94 2 = 2 :=
  ⟨{ up with sec := { up.sec with debug := .full, jtag := 0x10, dbgUntil := 1 } }, 2 <<< 94,
    by decide +kernel⟩

theorem witness_DebugPort_5 : ∃ (s : State) (reg : BitVec 96),
    (dbgMode s = .o ∨ dbgMode s = .f) ∧ s.sec.jtag = 0x10 ∧ s.sec.dbgUntil ≤ s.time.clk ∧ fld reg 94 2 = 1 ∧ fld
    reg 92 2 = 0 :=
  ⟨{ up with sec := { up.sec with debug := .observe, jtag := 0x10 } }, 1 <<< 94 ||| 0x14 <<< 32,
    by decide +kernel⟩

theorem witness_DebugPort_6 : ∃ (s : State) (reg : BitVec 96),
    (dbgMode s = .t ∨ dbgMode s = .b) ∧ s.sec.jtag = 0x10 ∧ s.sec.dbgUntil ≤ s.time.clk ∧ fld reg 94 2 = 1 :=
  ⟨{ up with sec := { up.sec with debug := .closed, jtag := 0x10 } }, 1 <<< 94,
    by decide +kernel⟩

theorem witness_DebugPort_7 : ∃ (s : State) (reg : BitVec 96),
    dbgMode s = .f ∧ s.sec.jtag = 0x10 ∧ s.sec.dbgUntil ≤ s.time.clk ∧ fld reg 94 2 = 2 ∧ fld reg 92 2 = 3 ∧
    dbgAddr reg = 0 :=
  ⟨{ up with sec := { up.sec with debug := .full, jtag := 0x10 } }, 2 <<< 94 ||| 3 <<< 92 ||| 1,
    by decide +kernel⟩

theorem witness_DebugPort_8 : ∃ (s : State) (reg : BitVec 96),
    dbgMode s = .f ∧ s.sec.jtag = 0x10 ∧ s.sec.dbgUntil ≤ s.time.clk ∧ fld reg 94 2 = 2 ∧ fld reg 92 2 = 0 ∧
    dbgAddr reg = 0x14 :=
  ⟨{ up with sec := { up.sec with debug := .full, jtag := 0x10 } }, 2 <<< 94 ||| 0x14 <<< 32 ||| 0xABCD,
    by decide +kernel⟩

theorem witness_DebugPort_9 : ∃ (s : State) (reg : BitVec 96),
    dbgMode s = .o ∧ s.sec.jtag = 0x10 ∧ s.sec.dbgUntil ≤ s.time.clk ∧ fld reg 94 2 = 2 :=
  ⟨{ up with sec := { up.sec with debug := .observe, jtag := 0x10 } }, 2 <<< 94,
    by decide +kernel⟩

theorem witness_DebugPort_11 : ∃ (s : State),
    s.quench.latchDue = true ∧ s.quench.armed = false :=
  ⟨{ up with quench := { up.quench with latchDue := true } },
    by decide +kernel⟩

theorem witness_TimeCommands_1 : ∃ (s : State),
    s.pwr.state ≠ .sleep ∧ s.time.due = [] :=
  ⟨up,
    by decide +kernel⟩

theorem witness_TimeCommands_2 : ∃ (s : State) (sec : Nat) (nsec : Nat),
    s.pwr.state ≠ .sleep ∧ s.time.due = [.set sec nsec] :=
  ⟨{ up with time := { up.time with due := [.set 5 999999999] } }, 5, 999999999,
    by decide +kernel⟩

theorem witness_TimeCommands_3 : ∃ (s : State) (d : Int),
    let sum := 2 ^ 32 * s.time.nsec + s.time.frac + timeInc s.time.adj
    s.pwr.state ≠ .sleep ∧ s.time.due = [.step d] ∧ sum < 1000000000 * 2 ^ 32 :=
  ⟨{ up with time := { up.time with due := [.step (-1)] } }, -1,
    by dsimp only; decide +kernel⟩

theorem witness_TimeCommands_4 : ∃ (s : State),
    s.pwr.state = .sleep :=
  ⟨inPower .sleep,
    by decide +kernel⟩

theorem witness_TimeCommands_5 : ∃ (e : Entry) (s : State) (r : InFlight),
    Turn 0x0704 e s r ∧ bitOf (pw e 0) 0 = false ∧ rsvOk e [1, 0xFFFF, allBits, allBits] = true ∧ (pw e 3).toNat
    ≤ 999999999 ∧ servoActive s = false :=
  ⟨cmd 0x0704 [0, 0xFFFF, 5, 999999999], turn (up) (cmd 0x0704 [0, 0xFFFF, 5, 999999999]), fly (cmd 0x0704 [0, 0xFFFF, 5, 999999999]),
    by decide +kernel⟩

theorem witness_TimeCommands_6 : ∃ (e : Entry) (s : State) (r : InFlight),
    Turn 0x0704 e s r ∧ bitOf (pw e 0) 0 = true ∧ rsvOk e [1, 0, 0, 0, allBits, allBits] = true ∧ (pqS e
    4).natAbs < 2 ^ 62 ∧ servoActive s = false :=
  ⟨cmd 0x0704 [1, 0, 0, 0, 0, 0x20000], turn (up) (cmd 0x0704 [1, 0, 0, 0, 0, 0x20000]), fly (cmd 0x0704 [1, 0, 0, 0, 0, 0x20000]),
    by decide +kernel⟩

theorem witness_TimeCommands_7 : ∃ (e : Entry) (s : State) (r : InFlight),
    Turn 0x0705 e s r ∧ rsvOk e [allBits] = true ∧ (signed 32 (pw e 0).toNat).natAbs ≤ 8000000 ∧ servoActive s =
    false :=
  ⟨cmd 0x0705 [0xFF85EE00], turn (up) (cmd 0x0705 [0xFF85EE00]), fly (cmd 0x0705 [0xFF85EE00]),
    by decide +kernel⟩

theorem witness_TimeCommands_8 : ∃ (e : Entry) (s : State) (r : InFlight),
    Turn 0x0706 e s r ∧ rsvOk e [] = true :=
  ⟨cmd 0x0706 [], turn (up) (cmd 0x0706 []), fly (cmd 0x0706 []),
    by decide +kernel⟩

theorem witness_EthernetPorts_1 : ∃ (e : Entry) (s : State) (r : InFlight),
    Turn 0x0701 e s r ∧ rsvOk e [0xF000FFFF, allBits, allBits, allBits] = true ∧ (s.ptp.role = 0 ∨ s.ptp.port ≠
    fld (pw e 0) 31 1) ∧ s.ports.length = 2 :=
  ⟨cmd 0x0701 [0x80000001, 2, 3, 4], turn (up) (cmd 0x0701 [0x80000001, 2, 3, 4]), fly (cmd 0x0701 [0x80000001, 2, 3, 4]),
    by decide +kernel⟩

theorem witness_EthernetPorts_2 : ∃ (e : Entry) (s : State) (r : InFlight),
    Turn 0x0708 e s r ∧ rsvOk e [] = true :=
  ⟨cmd 0x0708 [], turn (up) (cmd 0x0708 []), fly (cmd 0x0708 []),
    by decide +kernel⟩

theorem witness_EthernetPorts_3 : ∃ (s : State) (port : Nat) (up : Bool),
    port < 2 ∧ s.ports.length = 2 ∧ (portAt s port).up ≠ up :=
  ⟨net 0, 1, true,
    by decide +kernel⟩

theorem witness_EthernetPorts_4 : ∃ (port : Nat),
    port < 2 :=
  ⟨1,
    by decide +kernel⟩

theorem witness_EthernetPorts_5 : ∃ (s : State) (port : Nat) (target : Dword),
    portOn s port = true ∧ (portAt s port).ipv4 ≠ 0 ∧ target.toNat = (portAt s port).ipv4 :=
  ⟨net 0, 1, 5,
    by decide +kernel⟩

theorem witness_EthernetPorts_6 : ∃ (port : Nat) (bytes : Nat),
    port < 2 ∧ lengthOk bytes = false :=
  ⟨1, 63,
    by decide +kernel⟩

theorem witness_EthernetPorts_7 : ∃ (s : State) (port : Nat) (bytes : Nat) (frame : Frame),
    port < 2 ∧ portOn s port = true ∧ portOn s (1 - port) = true ∧ (portAt s port).fwd = true ∧ (portAt s (1 -
    port)).fwd = true ∧ 64 ≤ bytes ∧ bytes ≤ 2000 ∧ takenIn (portAt s port) frame = true ∧ ptpMulticast frame =
    false :=
  ⟨net 0, 1, 64, ⟨1, 0x88F7, 0, 0, 0, 0⟩,
    by decide +kernel⟩

theorem witness_EthernetPorts_8 : ∃ (s : State) (port : Nat) (bytes : Nat) (frame : Frame),
    port < 2 ∧ portOn s port = true ∧ portOn s (1 - port) = true ∧ (portAt s port).fwd = true ∧ (portAt s (1 -
    port)).fwd = true ∧ 64 ≤ bytes ∧ bytes ≤ 2000 ∧ (takenIn (portAt s port) frame = false ∨ ptpMulticast frame
    = true) ∧ isEvent frame = true :=
  ⟨net 0, 1, 2000, ⟨0x011B19000000, 0x88F7, 0, 0, 0, 0⟩,
    by decide +kernel⟩

theorem witness_EthernetPorts_9 : ∃ (s : State) (port : Nat) (bytes : Nat) (frame : Frame),
    port < 2 ∧ portOn s port = true ∧ portOn s (1 - port) = true ∧ (portAt s port).fwd = true ∧ (portAt s (1 -
    port)).fwd = true ∧ 64 ≤ bytes ∧ bytes ≤ 2000 ∧ (takenIn (portAt s port) frame = false ∨ ptpMulticast frame
    = true) ∧ isPtp frame = true ∧ isEvent frame = false :=
  ⟨net 0, 1, 64, ⟨0x011B19000000, 0x88F7, 0, 0, 0, 11⟩,
    by decide +kernel⟩

theorem witness_EthernetPorts_10 : ∃ (s : State) (port : Nat) (bytes : Nat) (frame : Frame),
    port < 2 ∧ portOn s port = true ∧ portOn s (1 - port) = true ∧ (portAt s port).fwd = true ∧ (portAt s (1 -
    port)).fwd = true ∧ 64 ≤ bytes ∧ bytes ≤ 2000 ∧ (takenIn (portAt s port) frame = false ∨ ptpMulticast frame
    = true) ∧ isPtp frame = false ∧ queuedBytes (portAt s (1 - port)) + 16 * bytes ≤ 262144 * 16 :=
  ⟨net 0, 1, 2000, ⟨0, 0, 0, 0, 0, 0⟩,
    by decide +kernel⟩

theorem witness_EthernetPorts_11 : ∃ (s : State) (port : Nat) (bytes : Nat) (frame : Frame),
    port < 2 ∧ portOn s port = true ∧ portOn s (1 - port) = true ∧ (portAt s port).fwd = true ∧ (portAt s (1 -
    port)).fwd = true ∧ 64 ≤ bytes ∧ bytes ≤ 2000 ∧ (takenIn (portAt s port) frame = false ∨ ptpMulticast frame
    = true) ∧ isPtp frame = false ∧ 262144 * 16 < queuedBytes (portAt s (1 - port)) + 16 * bytes :=
  ⟨{ net 0 with ports := (net 0).ports.map fun p => { p with queue := [262144] } }, 1, 64, ⟨0, 0, 0, 0, 0, 0⟩,
    by decide +kernel⟩

theorem witness_PtpCommands_1 : ∃ (e : Entry) (s : State) (r : InFlight),
    Turn 0x0702 e s r ∧ ptpFormatOk e = true :=
  ⟨cmd 0x0702 [0x40008080, 0xFD0103FD], turn (up) (cmd 0x0702 [0x40008080, 0xFD0103FD]), fly (cmd 0x0702 [0x40008080, 0xFD0103FD]),
    by decide +kernel⟩

theorem witness_PtpCommands_2 : ∃ (e : Entry) (s : State) (r : InFlight),
    Turn 0x0703 e s r ∧ rsvOk e [allBits, allBits, allBits, allBits] = true ∧ 1000 ≤ (pw e 2).toNat ∧ (pw e
    2).toNat ≤ 10000000 ∧ 10 ≤ (pw e 3).toNat ∧ (pw e 3).toNat ≤ 10000 :=
  ⟨cmd 0x0703 [1, 1, 1000, 10000], turn (up) (cmd 0x0703 [1, 1, 1000, 10000]), fly (cmd 0x0703 [1, 1, 1000, 10000]),
    by decide +kernel⟩

theorem witness_PtpCommands_3 : ∃ (e : Entry) (s : State) (r : InFlight),
    Turn 0x0707 e s r ∧ rsvOk e [] = true :=
  ⟨cmd 0x0707 [], turn (up) (cmd 0x0707 []), fly (cmd 0x0707 []),
    by decide +kernel⟩

theorem witness_PtpCommands_4 : ∃ (s : State) (port : Nat) (p : PtpFrom),
    slaveOf s port p = true :=
  ⟨net 1, 0, ⟨⟨1, 1⟩, 0, false⟩,
    by decide +kernel⟩

theorem witness_PtpCommands_5 : ∃ (s : State) (port : Nat) (p : PtpFrom),
    slaveOf s port p = true ∧ s.ptp.servo = .locked :=
  ⟨net 1, 0, ⟨⟨1, 1⟩, 0, false⟩,
    by decide +kernel⟩

theorem witness_PtpCommands_6 : ∃ (s : State) (port : Nat) (p : PtpFrom) (t2 : Ns16) (c : Ns16),
    slaveOf s port p = true ∧ s.ptpx.pendingSync = some (t2, c) ∧ s.ptp.servo = .locked :=
  ⟨{ net 1 with ptpx := { up.ptpx with pendingSync := some (5, 6) } }, 0, ⟨⟨1, 1⟩, 0, false⟩, 5, 6,
    by decide +kernel⟩

theorem witness_PtpCommands_7 : ∃ (s : State),
    s.ptp.role = 1 ∧ ptpOn s = true ∧ s.ptp.parent.isSome = true :=
  ⟨net 1,
    by decide +kernel⟩

theorem witness_PtpCommands_8 : ∃ (s : State) (port : Nat) (p : PtpFrom) (t3 : Ns16),
    slaveOf s port p = true ∧ s.ptpx.delayTx = some t3 :=
  ⟨{ net 1 with ptpx := { up.ptpx with delayTx := some 7 } }, 0, ⟨⟨1, 1⟩, 0, false⟩, 7,
    by decide +kernel⟩

theorem witness_PtpCommands_9 : ∃ (s : State) (src : PtpFrom) (q : Quality),
    s.ptp.role = 1 ∧ hears s s.ptp.port src = true ∧ bestForeign ((s.ptpx.foreign.filter fun x => x.1 != src.id)
    ++ [(src.id, q)]) = some (src.id, q) :=
  ⟨net 1, ⟨⟨1, 1⟩, 0, false⟩, ownQuality up,
    by decide +kernel⟩

theorem witness_PtpCommands_10 : ∃ (s : State),
    s.ptp.role = 1 ∧ s.ptp.parent.isSome = true ∧ s.ptp.servo ≠ .holdover :=
  ⟨net 1,
    by decide +kernel⟩

theorem witness_PtpCommands_11 : ∃ (s : State) (p : PortId),
    s.ptp.role = 1 ∧ s.ptp.parent = some p ∧ bestForeign (s.ptpx.foreign.filter fun x => x.1 != p) = none ∧
    s.ptp.servo ≠ .holdover :=
  ⟨net 1, ⟨1, 1⟩,
    by decide +kernel⟩

theorem witness_PtpCommands_12 : ∃ (s : State) (src : PtpFrom),
    masterActive s = true ∧ hears s s.ptp.port src = true :=
  ⟨net 2, ⟨⟨1, 1⟩, 0, false⟩,
    by decide +kernel⟩

theorem witness_PtpCommands_13 : ∃ (s : State),
    masterActive s = true :=
  ⟨net 2,
    by decide +kernel⟩

theorem witness_PtpCommands_14 : ∃ (s : State),
    masterActive s = true :=
  ⟨net 2,
    by decide +kernel⟩

theorem witness_WebConfiguration_1 : ∃ (e : Entry) (s : State) (r : InFlight),
    Turn 0x0109 e s r ∧ webFormatOk e = true ∧ (anyActive s = false ∨ ((webCfgOf s e).pacing = s.webCfg.pacing ∧
    (webCfgOf s e).stillTime = s.webCfg.stillTime ∧ (webCfgOf s e).spdAvg = s.webCfg.spdAvg ∧ (webCfgOf s
    e).jitterAllow = s.webCfg.jitterAllow)) :=
  ⟨cmd 0x0109 [0x400A0204, 0x10000040, 0x10000], turn (up) (cmd 0x0109 [0x400A0204, 0x10000040, 0x10000]), fly (cmd 0x0109 [0x400A0204, 0x10000040, 0x10000]),
    by decide +kernel⟩

theorem witness_WebConfiguration_2 : ∃ (e : Entry) (s : State) (r : InFlight),
    Turn 0x010A e s r ∧ rsvOk e [0xF00FF00F] = true ∧ fld (pw e 0) 28 4 < s.encs.length ∧ s.encs.length = 12 :=
  ⟨cmd 0x010A [0xB000000F], turn (up) (cmd 0x010A [0xB000000F]), fly (cmd 0x010A [0xB000000F]),
    by decide +kernel⟩

theorem witness_WebConfiguration_3 : ∃ (e : Entry) (s : State) (r : InFlight),
    let n := fld (pw e 0) 0 2 + 1
    let es := (List.range n).map fun i => gearEntry s (pq e 2 + 16 * i)
    let pos := es.filter fun x => !x.2.2
    let gears := pos.foldl (fun l x => insertGear { pos := x.1, ratio := x.2.1 } l)
      (s.ftb.gears.filter fun g => !(pos.any fun x => x.1 == g.pos))
    Turn 0x010B e s r ∧ rsvOk e [3, 0, allBits, allBits] = true ∧ pq e 2 % 16 = 0 ∧ hostReadEnd s (pq e 2) (16 *
    n) = .ok ∧ (List.range n).all (fun i => gearEntryOk s (pq e 2 + 16 * i)) = true ∧ ascending (pos.map fun x
    => x.1) = true ∧ (∀ x ∈ pos, masterPos s < x.1) ∧ gears.length ≤ 4 ∧ s.webCfg.pacing = false :=
  ⟨cmd 0x010B [1, 0, 256], turn (mems up 256 [0, 7, 0, 2, 0, 9, 5, 3]) (cmd 0x010B [1, 0, 256]), fly (cmd 0x010B [1, 0, 256]),
    by dsimp only; decide +kernel⟩

theorem witness_WebConfiguration_4 : ∃ (e : Entry) (s : State) (r : InFlight),
    Turn 0x010C e s r ∧ rsvOk e [3, 0, allBits, allBits, allBits, 0, allBits, allBits] = true ∧ anyActive s =
    false ∧ fld (pw e 0) 0 2 = 0 :=
  ⟨cmd 0x010C [0], turn (up) (cmd 0x010C [0]), fly (cmd 0x010C [0]),
    by decide +kernel⟩

theorem witness_WebConfiguration_5 : ∃ (e : Entry) (s : State) (r : InFlight),
    Turn 0x010C e s r ∧ rsvOk e [3, 0, allBits, allBits, allBits, 0, allBits, allBits] = true ∧ anyActive s =
    false ∧ (fld (pw e 0) 0 2 = 2 ∨ (fld (pw e 0) 0 2 = 1 ∧ masterPos s < pqS e 6)) :=
  ⟨cmd 0x010C [1, 0, 0, 0, 0, 0, 0, 9], turn (up) (cmd 0x010C [1, 0, 0, 0, 0, 0, 0, 9]), fly (cmd 0x010C [1, 0, 0, 0, 0, 0, 0, 9]),
    by decide +kernel⟩

theorem witness_WebConfiguration_6 : ∃ (e : Entry) (s : State) (r : InFlight),
    Turn 0x010D e s r ∧ rsvOk e [allBits] = true ∧ (pw e 0).toNat ≤ 819200000 ∧ s.webCfg.pacing = true ∧
    servitor s = true :=
  ⟨cmd 0x010D [819200000], turn ({ paired .shadow with webCfg := { up.webCfg with pacing := true } }) (cmd 0x010D [819200000]), fly (cmd 0x010D [819200000]),
    by decide +kernel⟩

theorem witness_WebConfiguration_7 : ∃ (e : Entry) (s : State) (r : InFlight),
    Turn 0x010D e s r ∧ rsvOk e [allBits] = true ∧ (pw e 0).toNat ≤ 819200000 ∧ s.webCfg.pacing = true ∧
    servitor s = false :=
  ⟨cmd 0x010D [819200000], turn ({ up with webCfg := { up.webCfg with pacing := true } }) (cmd 0x010D [819200000]), fly (cmd 0x010D [819200000]),
    by decide +kernel⟩

theorem witness_WebConfiguration_8 : ∃ (e : Entry) (s : State) (r : InFlight),
    Turn 0x010E e s r ∧ rsvOk e [0xF8FFFFFF] = true ∧ s.cues.length = 4 :=
  ⟨cmd 0x010E [0xC0000000], turn (up) (cmd 0x010E [0xC0000000]), fly (cmd 0x010E [0xC0000000]),
    by decide +kernel⟩

theorem witness_WebConfiguration_9 : ∃ (e : Entry) (s : State) (r : InFlight),
    Turn 0x010F e s r ∧ rsvOk e [3, allBits, allBits, allBits] = true ∧ 1 ≤ (pw e 1).toNat ∧ (pw e 1).toNat ≤ 16
    ∧ s.cues.length = 4 :=
  ⟨cmd 0x010F [3, 16, 256], turn (up) (cmd 0x010F [3, 16, 256]), fly (cmd 0x010F [3, 16, 256]),
    by decide +kernel⟩

theorem witness_WebConfiguration_10 : ∃ (e : Entry) (s : State) (r : InFlight),
    Turn 0x0110 e s r ∧ rsvOk e [0xF800FFFF, allBits] = true ∧ 2 ≤ fld (pw e 1) 8 8 ∧ (bitOf (pw e 0) 27 = true
    ∨ fld (pw e 1) 16 16 ≤ fld (pw e 0) 0 16) ∧ s.pulses.length = 4 :=
  ⟨cmd 0x0110 [0x80000100, 0x00100200], turn (up) (cmd 0x0110 [0x80000100, 0x00100200]), fly (cmd 0x0110 [0x80000100, 0x00100200]),
    by decide +kernel⟩

theorem witness_WebConfiguration_11 : ∃ (e : Entry) (s : State) (r : InFlight),
    Turn 0x0111 e s r ∧ rsvOk e [0xFC0000FF, 0, allBits, allBits] = true ∧ fld (pw e 0) 26 6 ≤ 39 ∧ s.job = none :=
  ⟨cmd 0x0111 [0x9C000005], turn (up) (cmd 0x0111 [0x9C000005]), fly (cmd 0x0111 [0x9C000005]),
    by decide +kernel⟩

theorem witness_WebConfiguration_12 : ∃ (e : Entry) (s : State) (r : InFlight),
    Turn 0x0111 e s r ∧ rsvOk e [0xFC0000FF, 0, allBits, allBits] = true ∧ fld (pw e 0) 26 6 ≤ 39 ∧ s.job ≠ none
    ∧ phasesFull s ((pimsInUse s (fld (pw e 0) 26 6)).map fun q => (fld (pw e 0) 26 6, q)) (pqS e 2) = false :=
  ⟨cmd 0x0111 [0x9C000005, 0, 0, 900], turn ({ up with job := some job1 }) (cmd 0x0111 [0x9C000005, 0, 0, 900]), fly (cmd 0x0111 [0x9C000005, 0, 0, 900]),
    by decide +kernel⟩

theorem witness_WebConfiguration_13 : ∃ (e : Entry) (s : State) (r : InFlight),
    Turn 0x0114 e s r ∧ rsvOk e [] = true :=
  ⟨cmd 0x0114 [], turn (up) (cmd 0x0114 []), fly (cmd 0x0114 []),
    by decide +kernel⟩

theorem witness_WebEvents_1 : ∃ (s : State) (ch : Nat) (held : Nat) (e : Enc),
    awake s = true ∧ s.encs[ch]? = some e ∧ held ≤ e.filt :=
  ⟨{ up with encs := [{ Enc.reset with enable := true, filt := 3 }] }, 0, 3, { Enc.reset with enable := true, filt := 3 },
    by decide +kernel⟩

theorem witness_WebEvents_2 : ∃ (s : State) (ch : Nat) (held : Nat) (e : Enc),
    awake s = true ∧ s.encs[ch]? = some e ∧ held ≤ e.filt :=
  ⟨{ up with encs := [{ Enc.reset with enable := true, filt := 3 }] }, 0, 3, { Enc.reset with enable := true, filt := 3 },
    by decide +kernel⟩

theorem witness_WebEvents_3 : ∃ (s : State) (ch : Nat) (a : Bool) (b : Bool) (held : Nat) (e : Enc),
    let step := (grayIndex a b + 4 - grayIndex e.a e.b) % 4
    awake s = true ∧ s.encs[ch]? = some e ∧ e.enable = true ∧ e.filt < held ∧ (step = 1 ∨ step = 3) :=
  ⟨{ up with encs := [{ Enc.reset with enable := true, filt := 3 }] }, 0, true, false, 4, { Enc.reset with enable := true, filt := 3 },
    by dsimp only; decide +kernel⟩

theorem witness_WebEvents_4 : ∃ (s : State) (ch : Nat) (a : Bool) (b : Bool) (held : Nat) (e : Enc),
    let step := (grayIndex a b + 4 - grayIndex e.a e.b) % 4
    awake s = true ∧ s.encs[ch]? = some e ∧ e.enable = true ∧ e.filt < held ∧ step = 2 :=
  ⟨{ up with encs := [{ Enc.reset with enable := true, filt := 3 }] }, 0, true, true, 4, { Enc.reset with enable := true, filt := 3 },
    by dsimp only; decide +kernel⟩

theorem witness_WebEvents_5 : ∃ (s : State) (ch : Nat) (held : Nat) (e : Enc),
    awake s = true ∧ s.encs[ch]? = some e ∧ e.enable = true ∧ e.filt < held ∧ (e.indexQual = true → e.a = true ∧
    e.b = true) ∧ s.ftb.lineRef = none :=
  ⟨{ up with encs := [{ Enc.reset with enable := true, filt := 3 }] }, 0, 4, { Enc.reset with enable := true, filt := 3 },
    by decide +kernel⟩

theorem witness_WebEvents_6 : ∃ (s : State) (t : Nat) (at_ : Nat) (n : Int) (rest : List (Int × Nat)),
    awake s = true ∧ s.ftb.projected = (n, at_) :: rest ∧ at_ ≤ t :=
  ⟨{ up with ftb := { up.ftb with projected := [(4, 100), (5, 200)] } }, 100, 100, 4, [(5, 200)],
    by decide +kernel⟩

theorem witness_WebEvents_7 : ∃ (s : State) (t : Nat) (l : Nat) (n : Int) (rest : List Int),
    awake s = true ∧ s.ftb.heldTicks = n :: rest ∧ s.ftb.lastTick = some l ∧ l + 32000 ≤ t ∧ rest.length < 64 :=
  ⟨{ up with ftb := { up.ftb with heldTicks := [4], lastTick := some 9 } }, 32009, 9, 4, [],
    by decide +kernel⟩

theorem witness_WebEvents_8 : ∃ (s : State) (t : Nat),
    awake s = true ∧ s.webCfg.pacing = true ∧ mayTick s = true ∧ s.ftb.paceAt ≤ t ∧ 0 < linesPast (wrapS 64
    ((pacingAt s t).1 / 2 ^ 32)) s.ftb.hwm :=
  ⟨{ up with webCfg := { up.webCfg with pacing := true }, ftb := { up.ftb with lamI := 3 } }, 0,
    by decide +kernel⟩

theorem witness_WebEvents_9 : ∃ (s : State) (t : Nat) (l : Nat),
    awake s = true ∧ s.webCfg.pacing = false ∧ s.ftb.lastEdge = some l ∧ l + s.webCfg.stillTime * msUnits ≤ t :=
  ⟨{ up with ftb := { up.ftb with lastEdge := some 0 } }, 10 * msUnits, 0,
    by decide +kernel⟩

theorem witness_WebEvents_10 : ∃ (s : State),
    awake s = true :=
  ⟨up,
    by decide +kernel⟩

theorem witness_WebEvents_11 : ∃ (s : State) (ch : Nat) (t : Nat) (held : Nat) (rising : Bool) (c : CueCh),
    awake s = true ∧ s.cues[ch]? = some c ∧ (held ≤ c.filt ∨ edgeSelected c.edge rising = false ∨ (∃ m,
    c.maskFrom = some m ∧ lamAt s t < m + c.maskLines * 2 ^ 32)) :=
  ⟨{ up with cues := [{ CueCh.reset with edge := 0, filt := 3 }] }, 0, 0, 0, true, { CueCh.reset with edge := 0, filt := 3 },
    by decide +kernel⟩

theorem witness_WebEvents_12 : ∃ (s : State) (ch : Nat) (t : Nat) (held : Nat) (rising : Bool) (c : CueCh),
    awake s = true ∧ s.cues[ch]? = some c ∧ edgeSelected c.edge rising = true ∧ c.filt < held ∧ (∀ m, c.maskFrom
    = some m → m + c.maskLines * 2 ^ 32 ≤ lamAt s t) :=
  ⟨{ up with cues := [{ CueCh.reset with edge := 0, filt := 3 }] }, 0, 0, 4, true, { CueCh.reset with edge := 0, filt := 3 },
    by exact ⟨by decide +kernel, rfl, by decide +kernel, by decide +kernel, nofun⟩⟩

theorem witness_JobAndOffsets_1 : ∃ (e : Entry) (s : State) (r : InFlight),
    let d := hostDws s (pq e 0) 32
    let geo := hostDws s (rq d 8) 32
    let j := jobOf s d geo
    let mods := modulesInUse { s with job := some j }
    Turn 0x0101 e s r ∧ rsvOk e [allBits, allBits] = true ∧ pq e 0 % 64 = 0 ∧ hostReadEnd s (pq e 0) 128 = .ok ∧
    jobRecordOk s d = true ∧ hostReadEnd s (rq d 8) 128 = .ok ∧ geoRecordOk geo = true ∧ anyActive s = false ∧
    screensLoaded s j = true ∧ (∀ m ∈ mods, (groupAt s m).run = true ∧ holdDepth j ≤ bufLines s m) ∧ modulesFit
    s j = true ∧ (∀ i, i < 4 → j.lDecl ≤ (jobLmax s j (vtFactor s.pwr.vcore j.tDecl)).getD i 0) :=
  ⟨cmd 0x0101 [256], turn (mems (mems linked 256 [0x01000000, 7, 10, 0, 0, 0, 0, 0, 512, 0, 0, 0, 0, 0, 0, 0, 0xC0000000]) 512 [0x01000000]) (cmd 0x0101 [256]), fly (cmd 0x0101 [256]),
    by dsimp only; decide +kernel⟩

theorem witness_JobAndOffsets_2 : ∃ (e : Entry) (s : State) (r : InFlight),
    Turn 0x0102 e s r ∧ rsvOk e [] = true ∧ s.job ≠ none ∧ anyActive s = false :=
  ⟨cmd 0x0102 [], turn (jobUp) (cmd 0x0102 []), fly (cmd 0x0102 []),
    by decide +kernel⟩

theorem witness_JobAndOffsets_3 : ∃ (e : Entry) (s : State) (r : InFlight),
    let p := fld (pw e 0) 28 4
    let n := pqS e 2
    Turn 0x0107 e s r ∧ rsvOk e [allBits, 0, allBits, allBits] = true ∧ s.job ≠ none ∧ p ∈ planesInUse s ∧
    changeFloor s [p] ≤ n ∧ phasesFull s (carriers p) n = false ∧ offsetStepOk s p n (fld (pw e 0) 0 28) = true
    ∧ offsetSeen s p (fld (pw e 0) 0 28) = true :=
  ⟨cmd 0x0107 [300, 0, 5000], turn (jobUp) (cmd 0x0107 [300, 0, 5000]), fly (cmd 0x0107 [300, 0, 5000]),
    by dsimp only; decide +kernel⟩

theorem witness_JobAndOffsets_4 : ∃ (e : Entry) (s : State) (r : InFlight),
    let p := fld (pw e 0) 28 4
    let n := pqS e 2
    Turn 0x0108 e s r ∧ rsvOk e [0xF00003FF, 0, allBits, allBits] = true ∧ s.job ≠ none ∧ p ∈ planesInUse s ∧
    changeFloor s [p] ≤ n :=
  ⟨cmd 0x0108 [20, 0, 5000], turn (jobUp) (cmd 0x0108 [20, 0, 5000]), fly (cmd 0x0108 [20, 0, 5000]),
    by dsimp only; decide +kernel⟩

theorem witness_PageLoading_1 : ∃ (e : Entry) (s : State) (r : InFlight),
    let h := hostDws s (pq e 0) 16
    let n := fld (rdw h 0) 0 6
    let d := hostDws s (pq e 0) (16 + 8 * n)
    Turn 0x0103 e s r ∧ rsvOk e [allBits, allBits] = true ∧ pq e 0 % 64 = 0 ∧ s.pages.load = none ∧ s.job ≠ none
    ∧ (s.pages.list.filter holdsPlace).length < 256 ∧ hostReadEnd s (pq e 0) 64 = .ok ∧ headerOk h = true ∧ (∀ p
    ∈ s.pages.list, p.id = rdw h 1 → holdsPlace p = false) ∧ badLayer s (pq e 0) d n = none ∧ failedRead s (pq e
    0) d n = none :=
  ⟨cmd 0x0103 [256], turn (mems jobUp 256 [0x01000001, 9, 64, 0x00010000, 0, 0, 0, 0, 0, 0, 0, 0, 0, 0, 0, 0, 0x00000000, 1, 1024]) (cmd 0x0103 [256]), fly (cmd 0x0103 [256]),
    by dsimp only; decide +kernel⟩

theorem witness_PageLoading_2 : ∃ (len : Nat) (s : State) (ld : Load) (o : _),
    s.pages.load = some ld ∧ 0 < len ∧ len ≤ 512 ∧ o ≠ DmaEnd.ok :=
  ⟨512, loading [], load1 [], .failed,
    by decide +kernel⟩

theorem witness_PageLoading_3 : ∃ (len : Nat) (s : State) (ld : Load),
    s.pages.load = some ld ∧ 0 < len ∧ len ≤ 512 :=
  ⟨512, loading [], load1 [],
    by decide +kernel⟩

theorem witness_PageLoading_4 : ∃ (s : State) (ld : Load) (p : Page) (l : Layer) (st : _),
    let re := (ld.tables.getD ld.layerIx []).getD ld.row (0, 0)
    let rule := storeRule (sampleBits l) l.effort (slotOf s l) (arrivedBytes ld (re.1 + ld.pos) (re.2 - ld.pos))
    s.pages.load = some ld ∧ pageOf s ld.pageId = some p ∧ p.layers[ld.layerIx]? = some l ∧ ld.rowBegun = true ∧
    ld.row < l.rows ∧ rule = .fails st :=
  ⟨loading [], load1 [], page1 .loading, { plane := 0, layer := 2, effort := 0, rows := 4, rowTable := 512 }, stFormat,
    by dsimp only; decide +kernel⟩

theorem witness_PageLoading_5 : ∃ (s : State) (ld : Load) (p : Page) (l : Layer) (bs : List Byte) (used : Nat) (c : Nat),
    let re := (ld.tables.getD ld.layerIx []).getD ld.row (0, 0)
    let bm := arrivedBytes ld re.1 (bitmapBytes p l)
    let rule := storeRule (sampleBits l) l.effort (slotOf s l) (arrivedBytes ld (re.1 + ld.pos) (re.2 - ld.pos))
    s.pages.load = some ld ∧ pageOf s ld.pageId = some p ∧ p.layers[ld.layerIx]? = some l ∧ ld.rowBegun = true ∧
    ld.row < l.rows ∧ rule = .coded bs used ∧ nextCol bm (blockCols p l) (ld.col + 1) = some c :=
  ⟨loading [23, 255, 255, 128], load1 [23, 255, 255, 128], page1 .loading, { plane := 0, layer := 2, effort := 0, rows := 4, rowTable := 512 }, [23, 255, 255, 128], 4, 1,
    by dsimp only; decide +kernel⟩

theorem witness_PageLoading_6 : ∃ (s : State) (ld : Load) (p : Page) (l : Layer) (raw : List Nat) (used : Nat),
    let re := (ld.tables.getD ld.layerIx []).getD ld.row (0, 0)
    let rule := storeRule (sampleBits l) l.effort (slotOf s l) (arrivedBytes ld (re.1 + ld.pos) (re.2 - ld.pos))
    s.pages.load = some ld ∧ pageOf s ld.pageId = some p ∧ p.layers[ld.layerIx]? = some l ∧ ld.rowBegun = true ∧
    ld.row < l.rows ∧ rule = .spill raw used ∧ takeUnits s p (l.layer == 0) = none :=
  ⟨{ loading noisy with mem := { up.mem with regions := [] } }, load1 noisy, page1 .loading, { plane := 0, layer := 2, effort := 0, rows := 4, rowTable := 512 }, ([1, 0, 2, 3, 1, 2, 0, 3] ++ List.replicate 248 0), 12,
    by dsimp only; decide +kernel⟩

theorem witness_PageLoading_7 : ∃ (s : State) (ld : Load) (p : Page) (l : Layer) (raw : List Nat) (chain : List Nat) (used : Nat) (c : Nat) (unit : Nat) (u : State),
    let re := (ld.tables.getD ld.layerIx []).getD ld.row (0, 0)
    let bm := arrivedBytes ld re.1 (bitmapBytes p l)
    let rule := storeRule (sampleBits l) l.effort (slotOf s l) (arrivedBytes ld (re.1 + ld.pos) (re.2 - ld.pos))
    s.pages.load = some ld ∧ pageOf s ld.pageId = some p ∧ p.layers[ld.layerIx]? = some l ∧ ld.rowBegun = true ∧
    ld.row < l.rows ∧ rule = .spill raw used ∧ nextCol bm (blockCols p l) (ld.col + 1) = some c ∧ takeUnits s p
    (l.layer == 0) = some (u, chain, unit) :=
  ⟨{ loading noisy with pages := { (loading noisy).pages with list := [{ page1 .loading with twoChain := [0] }] } }, load1 noisy, { page1 .loading with twoChain := [0] }, { plane := 0, layer := 2, effort := 0, rows := 4, rowTable := 512 }, ([1, 0, 2, 3, 1, 2, 0, 3] ++ List.replicate 248 0), ((takeUnits ({ loading noisy with pages := { (loading noisy).pages with list := [{ page1 .loading with twoChain := [0] }] } }) ({ page1 .loading with twoChain := [0] }) false).getD (up, [], 0)).2.1, 12, 1, ((takeUnits ({ loading noisy with pages := { (loading noisy).pages with list := [{ page1 .loading with twoChain := [0] }] } }) ({ page1 .loading with twoChain := [0] }) false).getD (up, [], 0)).2.2, ((takeUnits ({ loading noisy with pages := { (loading noisy).pages with list := [{ page1 .loading with twoChain := [0] }] } }) ({ page1 .loading with twoChain := [0] }) false).getD (up, [], 0)).1,
    by dsimp only; decide +kernel⟩

theorem witness_PageAdmission_1 : ∃ (e : Entry) (s : State) (r : InFlight) (p : Page),
    rsvOk e [allBits] = true ∧ pageOf s (pw e 0) = some p ∧ Turn 0x0104 e s r ∧ p.state = .loaded ∧ s.pwr.state
    = .print ∧ (s.pwr.stale = false ∨ s.par.enabled = true) ∧ reserveFail s p = none ∧ servitor s = false ∧
    s.ftb.lineRef = none ∧ (p.startMode = 2 → firstUnresolved s = none ∧ ePrev s < p.startLine ∧ earliestStart s
    ≤ p.startLine) :=
  ⟨cmd 0x0104 [9], turn (pageUp .loaded) (cmd 0x0104 [9]), fly (cmd 0x0104 [9]), page1 .loaded,
    by refine lead3 (by decide +kernel) (lead3 (by decide +kernel) (lead3 (by decide +kernel) (nofun)))⟩

theorem witness_PageAdmission_2 : ∃ (e : Entry) (s : State) (r : InFlight) (p : Page) (m : _),
    rsvOk e [allBits] = true ∧ pageOf s (pw e 0) = some p ∧ Turn 0x0104 e s r ∧ p.state = .loaded ∧ s.pwr.state
    = .print ∧ (s.pwr.stale = false ∨ s.par.enabled = true) ∧ reserveFail s p = none ∧ servitor s = true ∧
    s.par.pageMsgs.find? (fun m => m.1 == p.id) = some m ∧ m.2.1 ≠ 2 :=
  ⟨cmd 0x0104 [9], { pageUp .loaded with par := { up.par with enabled := true, state := .shadow, pageMsgs := [(9, 1, false, 0, 0, 64)] }, mbx := { up.mbx with inFlight := [{ fly (cmd 0x0104 [9]) with latch := .shadow }] } }, { fly (cmd 0x0104 [9]) with latch := .shadow }, page1 .loaded, (9, 1, false, 0, 0, 64),
    by refine lead3 (by decide +kernel) (lead3 (by decide +kernel) (lead3 (by decide +kernel) (by decide +kernel)))⟩

theorem witness_PageAdmission_3 : ∃ (e : Entry) (s : State) (r : InFlight) (p : Page),
    rsvOk e [allBits] = true ∧ pageOf s (pw e 0) = some p ∧ Turn 0x0105 e s r ∧ servitor s = false ∧ (p.state =
    .loaded ∨ p.state = .admitted) :=
  ⟨cmd 0x0105 [9], turn (pageUp .loaded) (cmd 0x0105 [9]), fly (cmd 0x0105 [9]), page1 .loaded,
    by decide +kernel⟩

theorem witness_PageAdmission_4 : ∃ (e : Entry) (s : State) (r : InFlight) (p : Page),
    rsvOk e [allBits] = true ∧ pageOf s (pw e 0) = some p ∧ Turn 0x0105 e s r ∧ servitor s = false ∧ p.state =
    .printing :=
  ⟨cmd 0x0105 [9], turn (pageUp .printing) (cmd 0x0105 [9]), fly (cmd 0x0105 [9]), page1 .printing,
    by decide +kernel⟩

theorem witness_PageAdmission_5 : ∃ (e : Entry) (s : State) (r : InFlight) (p : Page),
    rsvOk e [allBits] = true ∧ pageOf s (pw e 0) = some p ∧ Turn 0x0106 e s r :=
  ⟨cmd 0x0106 [9], turn (pageUp .loaded) (cmd 0x0106 [9]), fly (cmd 0x0106 [9]), page1 .loaded,
    by decide +kernel⟩

theorem witness_TableLoads_1 : ∃ (e : Entry) (s : State) (r : InFlight),
    let nc := fld (pw e 0) 16 16
    let ne := (pw e 1).toNat
    let planes := (List.range 16).filter fun p => (fld (pw e 0) 0 16).testBit p
    let cr := curveRecords s (pq e 2) nc
    let el := entryList s (pq e 4) ne
    let tabs := (List.range planes.length).map fun i => (planes.getD i 0, hostWords s (pq e 6 + 332800 * i) 166400)
    let entries := (el.map fun x => (entryKey x.1 x.2.1, x.2.2)) ++
      tabs.flatMap fun t => (List.range 166400).map fun i => (entryKey t.1 i, t.2.getD i 0)
    let x : CurveUpd := { line := pqS e 8, curves := cr, entries := entries, assay := false, out := false }
    Turn 0x0202 e s r ∧ rsvOk e (List.replicate 10 allBits) = true ∧ nc ≤ 4096 ∧ ne ≤ 2662400 ∧ (nc ≠ 0 ∨ ne ≠ 0
    ∨ fld (pw e 0) 0 16 ≠ 0) ∧ pq e 2 % 8 = 0 ∧ pq e 4 % 8 = 0 ∧ pq e 6 % 8 = 0 ∧ tableRead s [(pq e 2, 520 *
    nc), (pq e 4, 8 * ne), (pq e 6, 332800 * planes.length)] = none ∧ (∀ y ∈ el, y.2.1 < 166400 ∧ y.1 ∉ planes)
    ∧ (cr.map Prod.fst).Nodup ∧ (el.map fun y => entryKey y.1 y.2.1).Nodup ∧ (∀ c ∈ cr, assayOwnsCurve s c.1 =
    false) ∧ (∀ p ∈ el.map (·.1) ++ planes, assayOwnsPlane s p = false) ∧ (s.job ≠ none → changeFloor s
    (updPlanes s x) ≤ pqS e 8 ∧ (s.tables.curveUpds.filter (updPending s)).length < 8) ∧ indexPoisoned s entries
    (pqS e 8) = false :=
  ⟨cmd 0x0202 [0x10000, 0, 256, 0, 0, 0, 0, 0, 5000], turn (jobUp) (cmd 0x0202 [0x10000, 0, 256, 0, 0, 0, 0, 0, 5000]), fly (cmd 0x0202 [0x10000, 0, 256, 0, 0, 0, 0, 0, 5000]),
    by dsimp only; decide +kernel⟩

theorem witness_TableLoads_2 : ∃ (e : Entry) (s : State) (r : InFlight),
    let slot := fld (pw e 0) 27 5
    let load := bitOf (pw e 0) 26
    let bind_ := bitOf (pw e 0) 25
    let planes := (List.range 16).filter fun p => (fld (pw e 0) 0 16).testBit p
    let n := pqS e 4
    let tile := (List.range 65536).map fun i => BitVec.ofNat 64 (leNat (hostBytes s (pq e 2 + 8 * i) 8))
    Turn 0x0203 e s r ∧ rsvOk e [0xFE00FFFF, 0, allBits, allBits, allBits, allBits] = true ∧ (load = true ∨
    bind_ = true) ∧ (bind_ = false → fld (pw e 0) 0 16 = 0) ∧ pq e 2 % 64 = 0 ∧ (load = true → hostReadEnd s (pq
    e 2) 524288 = .ok ∧ tile.all cellOk = true ∧ slotInUse s slot = false) ∧ (load = false → tileOf s slot ≠ [])
    ∧ (bind_ = true → changeFloor s planes ≤ n ∧ ∃ j, s.job = some j ∧ ∀ p ∈ planes, (∃ c, j.planes[p]? = some c
    ∧ c.inUse = true ∧ c.format ≠ 2) ∧ ((bindingsPending s p).filter fun c => c.1 != n).length < 4) :=
  ⟨cmd 0x0203 [0x02000001, 0, 0, 0, 5000], turn ({ jobUp with tables := { up.tables with screens := [(0, [0])] } }) (cmd 0x0203 [0x02000001, 0, 0, 0, 5000]), fly (cmd 0x0203 [0x02000001, 0, 0, 0, 5000]),
    by dsimp only; refine lead3 (by decide +kernel) (lead3 (by decide +kernel) ⟨by decide +kernel, fun _ => ⟨by decide +kernel, job1, rfl, ?_⟩⟩); intro p hp; have h0 : p = 0 := (by revert p; decide +kernel); subst h0; exact ⟨⟨_, rfl, by decide, by decide⟩, by decide +kernel⟩⟩

theorem witness_TableLoads_3 : ∃ (e : Entry) (s : State) (r : InFlight),
    let k := (pw e 0).toNat
    let n := pqS e 4
    let rs := stitchRecords s (pq e 2) k
    let nums := rs.map fun x => 4 * x.1 + x.2.1
    Turn 0x0204 e s r ∧ rsvOk e [allBits, 0, allBits, allBits, allBits, allBits] = true ∧ 1 ≤ k ∧ k ≤ 144 ∧
    tableRead s [(pq e 2, 520 * k)] = none ∧ (∀ x ∈ rs, x.1 < 36) ∧ (s.job ≠ none → changeFloor s (rs.flatMap
    fun x => jointPlanes x.1).dedup ≤ n ∧ ∀ m ∈ nums, (s.tables.maskUpds.filter fun u => u.mask == m &&
    maskPending s u && u.line != n).length < 4) :=
  ⟨cmd 0x0204 [1, 0, 256, 0, 5000], turn (jobUp) (cmd 0x0204 [1, 0, 256, 0, 5000]), fly (cmd 0x0204 [1, 0, 256, 0, 5000]),
    by dsimp only; decide +kernel⟩

theorem witness_Slices_1 : ∃ (m : Nat) (q : Nat) (n : Int) (s : State),
    planeRuns s m q = true ∧ produces s n = true ∧ sliceDeadlineOf s (planeOf m q) n ≤ lineCounter s ∧ recAt s m
    q n = none ∧ sliceTurn s m q n = true ∧ (groupAt s m).joined = true :=
  ⟨0, 0, 51, lining [],
    by decide +kernel⟩

theorem witness_Slices_2 : ∃ (m : Nat) (q : Nat) (n : Int) (s : State) (x : _),
    planeRuns s m q = true ∧ produces s n = true ∧ sliceDeadlineOf s (planeOf m q) n ≤ lineCounter s ∧ recAt s m
    q n = some x ∧ x.kind = .print ∧ x.assigned = true ∧ (groupAt s m).joined = true :=
  ⟨0, 0, 51, lining [rec1 .print true], rec1 .print true,
    by decide +kernel⟩

theorem witness_Slices_3 : ∃ (m : Nat) (q : Nat) (n : Int) (s : State),
    planeRuns s m q = true ∧ produces s n = true ∧ sliceDeadlineOf s (planeOf m q) n ≤ lineCounter s ∧ (groupAt
    s m).joined = false ∧ sliceTurn s m q n = true :=
  ⟨0, 0, 51, { lining [] with dxl := { up.dxl with groups := List.replicate 45 { runGroup with joined := false } } },
    by decide +kernel⟩

theorem witness_Slices_4 : ∃ (m : Nat) (q : Nat) (n : Int) (n0 : Int) (s : State) (p : Page),
    planeRuns s m q = true ∧ produces s n = true ∧ sliceTurn s m q n = true ∧ sliceDeadlineOf s (planeOf m q) n
    - 32 ≤ lineCounter s ∧ lineCounter s ≤ sliceDeadlineOf s (planeOf m q) n ∧ pageAt s n = some p ∧ p.n0 = some
    n0 ∧ printsLine p (planeOf m q) n = true :=
  ⟨0, 0, 51, 51, { lining [] with ftb := { up.ftb with hwm := -80 } }, { page1 .printing with n0 := some 51 },
    by decide +kernel⟩

theorem witness_Slices_5 : ∃ (m : Nat) (q : Nat) (n : Int) (s : State) (x : Rec),
    recAt s m q n = some x ∧ x.kind = .print ∧ x.assigned = false ∧ deliveryDeadline s (planeOf m q) n ≤
    lineCounter s :=
  ⟨0, 0, 51, lining [rec1 .print false], rec1 .print false,
    by decide +kernel⟩

theorem witness_Slices_6 : ∃ (s : State),
    s.anneal.running = false ∧ awake s = true :=
  ⟨up,
    by decide +kernel⟩

theorem witness_Slices_7 : ∃ (s : State),
    s.par.state ≠ .failed ∧ (∀ f, s.csc.fixedTo = some f → f < lineCounter s + 8) :=
  ⟨up,
    by exact ⟨by decide +kernel, nofun⟩⟩

theorem witness_Releases_1 : ∃ (m : Nat) (s : State) (r0 : Rec) (x : Rec),
    let late := r0.kind == .print && r0.assigned && mapPoisoned s (mp m r0.q) r0.n
    let s1 := planPlane (if late then makeLate s m r0.q r0.n else s) (mp m r0.q)
    s.slices.recs.find? (fun r => r.m == m) = some r0 ∧ s1.slices.recs.find? (fun r => r.m == m) = some x ∧
    mayRelease s1 x = true :=
  ⟨0, lining [rec1 .idle true], rec1 .idle true, (planPlane (lining [rec1 .idle true]) (mp 0 0)).slices.recs.getD 0 (rec1 .idle true),
    by dsimp only; decide +kernel⟩

theorem witness_Releases_2 : ∃ (s : State),
    1000 ≤ s.csc.overRun ∧ servitor s = false :=
  ⟨{ up with csc := { up.csc with overRun := 1000 } },
    by decide +kernel⟩

theorem witness_MapGenerations_1 : ∃ (e : Entry) (s : State) (r : InFlight),
    let full := bitOf (pw e 0) 31
    let n := (pw e 1).toNat
    let img := fullImage s (pq e 2)
    let ds := deltaEntries s (pq e 2) n
    let changes := if full then imageCodes img else ds.map fun d => (d.1.getD 0, d.2)
    let all := changes ++ reportChanges s
    let g := newGen s full (mapSetAll 0 (settledCodes s) all) (if full then [] else mapSetAll 4 [] all) (pqS e 4)
    Turn 0x0201 e s r ∧ rsvOk e [0x80000000, allBits, allBits, allBits, allBits, allBits] = true ∧ pq e 2 % 64 =
    0 ∧ (full = true → n = 0 ∧ hostReadEnd s (pq e 2) 10649600 = .ok ∧ imageBad (settledCodes s) img = false) ∧
    (full = false → 1 ≤ n ∧ n ≤ 31948800 ∧ hostReadEnd s (pq e 2) (8 * n) = .ok ∧ deltaBad ds = false ∧
    copyPoisoned s changes = false) ∧ s.par.state ≠ .shadow ∧ s.map.gens ≠ [] ∧ s.map.pending = none ∧ (∀ b,
    g.boundary = some b → earliestBoundary s (genSpan g) ≤ b) :=
  ⟨cmd 0x0201 [0, 1, 256, 0, 5000], turn ({ jobUp with map := { up.map with gens := [⟨0, none, true, [], []⟩] } }) (cmd 0x0201 [0, 1, 256, 0, 5000]), fly (cmd 0x0201 [0, 1, 256, 0, 5000]),
    by dsimp only; refine lead3 (by decide +kernel) (lead3 (by decide +kernel) ⟨by decide +kernel, by decide +kernel, bound_of (by decide +kernel)⟩)⟩

theorem witness_MapGenerations_2 : ∃ (e : Entry) (s : State) (r : InFlight),
    let pend := bitOf (pw e 0) 31
    let m := fld (pw e 0) 0 6
    let hit := s.map.poisoned.filter fun x => x.1 / 4 == m
    Turn 0x0205 e s r ∧ rsvOk e [0x8000003F, 0, allBits, allBits] = true ∧ m < 40 ∧ (pend = true → s.map.pending
    ≠ none) ∧ (pend = true ∨ hit = []) :=
  ⟨cmd 0x0205 [5, 0, 256], turn (up) (cmd 0x0205 [5, 0, 256]), fly (cmd 0x0205 [5, 0, 256]),
    by dsimp only; decide +kernel⟩

theorem witness_MapGenerations_3 : ∃ (e : Entry) (s : State) (r : InFlight),
    let pend := bitOf (pw e 0) 31
    let m := fld (pw e 0) 0 6
    let hit := s.map.poisoned.filter fun x => x.1 / 4 == m
    Turn 0x0205 e s r ∧ rsvOk e [0x8000003F, 0, allBits, allBits] = true ∧ m < 40 ∧ (pend = true → s.map.pending
    ≠ none) ∧ pend = false ∧ hit ≠ [] :=
  ⟨cmd 0x0205 [5, 0, 256], turn ({ up with map := { up.map with poisoned := [(20, 3)] } }) (cmd 0x0205 [5, 0, 256]), fly (cmd 0x0205 [5, 0, 256]),
    by dsimp only; decide +kernel⟩

theorem witness_MapGenerations_4 : ∃ (s : State) (k : Nat) (g : Gen),
    s.map.pending = some k ∧ s.map.gens.find? (fun x => x.number == k) = some g ∧ genApplied s g = true :=
  ⟨{ up with map := { up.map with gens := [{ number := 1, boundary := none, full := false, codes := [], delta := [] }], pending := some 1 } }, 1, { number := 1, boundary := none, full := false, codes := [], delta := [] },
    by decide +kernel⟩

theorem witness_MapGenerations_5 : ∃ (s : State),
    let first := s.map.gens.isEmpty
    let codes := settledCodes s
    let all := waitingChanges s
    forms s = true ∧ s.map.pending = none ∧ (first = true → joinedModules s ≠ []) ∧ (first = false → realChanges
    codes all ≠ []) :=
  ⟨linked,
    by dsimp only; decide +kernel⟩

theorem witness_LaneEvents_1 : ∃ (lane : Nat) (s : State) (x : Lane),
    let g := laneGroup lane
    lane < 172 ∧ s.dxl.lanes[lane]? = some x ∧ lanesRun s g = true ∧ (x.state = .detect ∨ (x.state = .down ∧
    x.searches < 3)) :=
  ⟨0, laneUp (laned .down 0 2 (none)) (Group.reset), laned .down 0 2 (none),
    by dsimp only; decide +kernel⟩

theorem witness_LaneEvents_2 : ∃ (lane : Nat) (s : State) (x : Lane) (ones : _),
    lane < 172 ∧ s.dxl.lanes[lane]? = some x ∧ x.state = .polarity ∧ s.time.clk ≤ x.since + polarityBound ∧ 60 *
    4096 < 100 * ones :=
  ⟨0, laneUp (laned .polarity 0 0 (none)) (Group.reset), laned .polarity 0 0 (none), 2458,
    by decide +kernel⟩

theorem witness_LaneEvents_3 : ∃ (lane : Nat) (s : State) (x : Lane) (ones : _),
    lane < 172 ∧ s.dxl.lanes[lane]? = some x ∧ x.state = .polarity ∧ s.time.clk ≤ x.since + polarityBound ∧ 100
    * ones < 40 * 4096 :=
  ⟨0, laneUp (laned .polarity 0 0 (none)) (Group.reset), laned .polarity 0 0 (none), 1638,
    by decide +kernel⟩

theorem witness_LaneEvents_4 : ∃ (lane : Nat) (s : State) (x : Lane),
    lane < 172 ∧ s.dxl.lanes[lane]? = some x ∧ x.state = .slip :=
  ⟨0, laneUp (laned .slip 0 0 (none)) (Group.reset), laned .slip 0 0 (none),
    by decide +kernel⟩

theorem witness_LaneEvents_5 : ∃ (lane : Nat) (s : State) (x : Lane),
    lane < 172 ∧ s.dxl.lanes[lane]? = some x ∧ x.state = .slip ∧ x.trials < 65 :=
  ⟨0, laneUp (laned .slip 64 0 (none)) (Group.reset), laned .slip 64 0 (none),
    by decide +kernel⟩

theorem witness_LaneEvents_6 : ∃ (lane : Nat) (s : State) (x : Lane),
    lane < 172 ∧ s.dxl.lanes[lane]? = some x ∧ x.state = .lock :=
  ⟨0, laneUp (laned .lock 0 0 none) (Group.reset), laned .lock 0 0 none,
    by decide +kernel⟩

theorem witness_LaneEvents_7 : ∃ (lane : Nat) (s : State) (x : Lane) (c : Instr),
    lane < 172 ∧ s.dxl.lanes[lane]? = some x ∧ ((∃ b, c = .slipTrial lane ⟨false, b⟩ ∧ x.state = .slip ∧ 65 ≤
    x.trials) ∨ (∃ ones, c = .polarityCount lane ones ∧ x.state = .polarity ∧ x.since + polarityBound <
    s.time.clk) ∨ (∃ l, c = .markLock lane l ∧ x.state = .lock ∧ x.since + lockBound s lane < s.time.clk)) ∧
    x.searches < 2 :=
  ⟨0, { laneUp (laned .polarity 0 1 none) (Group.reset) with time := { up.time with clk := 1000000000 } }, laned .polarity 0 1 none, .polarityCount 0 0,
    by exact ⟨by decide +kernel, rfl, .inr (.inl ⟨0, rfl, rfl, by decide +kernel⟩), by decide +kernel⟩⟩

theorem witness_LaneEvents_8 : ∃ (lane : Nat) (s : State) (x : Lane) (c : Instr),
    lane < 172 ∧ s.dxl.lanes[lane]? = some x ∧ ((∃ b, c = .slipTrial lane ⟨false, b⟩ ∧ x.state = .slip ∧ 65 ≤
    x.trials) ∨ (∃ ones, c = .polarityCount lane ones ∧ x.state = .polarity ∧ x.since + polarityBound <
    s.time.clk) ∨ (∃ l, c = .markLock lane l ∧ x.state = .lock ∧ x.since + lockBound s lane < s.time.clk)) ∧ 2 ≤
    x.searches :=
  ⟨0, { laneUp (laned .lock 0 2 none) (Group.reset) with time := { up.time with clk := 1000000000 } }, laned .lock 0 2 none, .markLock 0 0,
    by exact ⟨by decide +kernel, rfl, .inr (.inr ⟨0, rfl, rfl, by decide +kernel⟩), by decide +kernel⟩⟩

theorem witness_LaneEvents_9 : ∃ (lane : Nat) (s : State) (x : Lane),
    let g := laneGroup lane
    lane < 172 ∧ s.dxl.lanes[lane]? = some x ∧ x.state = .lock ∧ s.time.clk ≤ x.since + lockBound s lane ∧
    (groupAt s g).run = false ∧ (groupAt s g).step = 0 :=
  ⟨0, laneUp (laned .lock 0 0 none) (Group.reset), laned .lock 0 0 none,
    by dsimp only; decide +kernel⟩

theorem witness_LaneEvents_10 : ∃ (lane : Nat) (s : State) (x : Lane) (y : _),
    let g := laneGroup lane
    lane < 172 ∧ s.dxl.lanes[lane]? = some x ∧ x.state = .lock ∧ s.time.clk ≤ x.since + lockBound s lane ∧
    s.dxl.groups[g]? = some y ∧ y.run = true ∧ (g < 40 ∨ g = 44) :=
  ⟨0, laneUp (laned .lock 0 0 none) ({ Group.reset with run := true }), laned .lock 0 0 none, { Group.reset with run := true },
    by dsimp only; decide +kernel⟩

theorem witness_LaneEvents_11 : ∃ (lane : Nat) (s : State) (x : Lane) (y : _) (c : Instr) (st : LaneState),
    let g := laneGroup lane
    lane < 172 ∧ s.dxl.lanes[lane]? = some x ∧ s.dxl.groups[g]? = some y ∧ x.state = .run ∧ ((c = .los lane ∧ st
    = .down) ∨ ((∃ b, c = .lol lane b) ∧ st = .detect)) ∧ (g < 40 ∨ g = 44) ∧ (x.logical = none ∨ x.logical =
    some 3) :=
  ⟨0, laneUp (laned .run 0 0 (some 3)) (Group.reset), laned .run 0 0 (some 3), Group.reset, .los 0, .down,
    by dsimp only; exact lead3 (by decide +kernel) ⟨by decide +kernel, Or.inl ⟨rfl, rfl⟩, by decide +kernel⟩⟩

theorem witness_LaneEvents_12 : ∃ (lane : Nat) (s : State) (x : Lane) (y : _) (c : Instr) (st : LaneState) (ll : _),
    let g := laneGroup lane
    lane < 172 ∧ s.dxl.lanes[lane]? = some x ∧ s.dxl.groups[g]? = some y ∧ x.state = .run ∧ ((c = .los lane ∧ st
    = .down) ∨ ((∃ b, c = .lol lane b) ∧ st = .detect)) ∧ (g < 40 ∨ g = 44) ∧ x.logical = some ll ∧ ll ≠ 3 ∧
    y.spare = true :=
  ⟨0, laneUp (laned .run 0 0 (some 1)) { Group.reset with spare := true }, laned .run 0 0 (some 1), { Group.reset with spare := true }, .los 0, .down, 1,
    by dsimp only; exact lead3 (by decide +kernel) ⟨by decide +kernel, Or.inl ⟨rfl, rfl⟩, by decide +kernel⟩⟩

theorem witness_LaneEvents_13 : ∃ (lane : Nat) (s : State) (x : Lane) (y : _) (c : Instr) (st : LaneState) (ll : _),
    let g := laneGroup lane
    lane < 172 ∧ s.dxl.lanes[lane]? = some x ∧ s.dxl.groups[g]? = some y ∧ x.state = .run ∧ ((c = .los lane ∧ st
    = .down) ∨ ((∃ b, c = .lol lane b) ∧ st = .detect)) ∧ (g < 40 ∨ g = 44) ∧ x.logical = some ll ∧ ll ≠ 3 ∧
    y.spare = false :=
  ⟨0, laneUp (laned .run 0 0 (some 1)) (Group.reset), laned .run 0 0 (some 1), Group.reset, .los 0, .down, 1,
    by dsimp only; exact lead3 (by decide +kernel) ⟨by decide +kernel, Or.inl ⟨rfl, rfl⟩, by decide +kernel⟩⟩

theorem witness_LaneEvents_14 : ∃ (lane : Nat) (s : State) (x : Lane) (y : _) (c : Instr) (st : LaneState),
    let g := laneGroup lane
    lane < 172 ∧ s.dxl.lanes[lane]? = some x ∧ s.dxl.groups[g]? = some y ∧ x.state = .run ∧ ((c = .los lane ∧ st
    = .down) ∨ ((∃ b, c = .lol lane b) ∧ st = .detect)) ∧ 40 ≤ g ∧ g < 44 :=
  ⟨160, { up with dxl := { up.dxl with lanes := List.replicate 172 (laned .run 0 0 none) } }, laned .run 0 0 none, Group.reset, .los 160, .down,
    by dsimp only; exact lead3 (by decide +kernel) ⟨by decide +kernel, Or.inl ⟨rfl, rfl⟩, by decide +kernel⟩⟩

theorem witness_LaneEvents_15 : ∃ (lane : Nat) (s : State) (x : Lane) (c : Instr),
    lane < 172 ∧ s.dxl.lanes[lane]? = some x ∧ (c = .chkFail lane ∨ c = .stuffingViolation lane) :=
  ⟨0, laneUp (laned .run 0 0 (none)) (Group.reset), laned .run 0 0 (none), .chkFail 0,
    by decide +kernel⟩

theorem witness_GroupEvents_1 : ∃ (g : Nat) (s : State) (x : Group),
    let ls := orderedLanes s g
    g < 45 ∧ s.dxl.groups[g]? = some x ∧ lanesRun s g = true ∧ x.run = false ∧ x.step = 0 ∧ (if 40 ≤ g ∧ g < 44
    then 2 else 3) ≤ ls.length ∧ (claimed s ls).Nodup :=
  ⟨0, lanesUp [laned .ordered 0 0 (some 0), laned .ordered 0 0 (some 1), laned .ordered 0 0 (some 3), laned .down 0 0 none], Group.reset,
    by dsimp only; decide +kernel⟩

theorem witness_GroupEvents_2 : ∃ (g : Nat) (s : State) (x : Group),
    let ls := orderedLanes s g
    g < 45 ∧ s.dxl.groups[g]? = some x ∧ lanesRun s g = true ∧ x.run = false ∧ x.step = 0 ∧ (if 40 ≤ g ∧ g < 44
    then 2 else 3) ≤ ls.length ∧ ¬ (claimed s ls).Nodup :=
  ⟨0, lanesUp [laned .ordered 0 0 (some 0), laned .ordered 0 0 (some 1), laned .ordered 0 0 (some 1), laned .down 0 0 none], Group.reset,
    by dsimp only; decide +kernel⟩

theorem witness_GroupEvents_3 : ∃ (g : Nat) (s : State) (x : Group),
    g < 45 ∧ s.dxl.groups[g]? = some x ∧ (g < 40 ∨ g = 44) ∧ (x.run = true ∨ x.step ≠ 0) ∧ (orderedLanes s
    g).length = 3 :=
  ⟨0, { lanesUp [laned .ordered 0 0 (some 0), laned .ordered 0 0 (some 1), laned .ordered 0 0 (some 3), laned .down 0 0 none] with dxl := { (lanesUp [laned .ordered 0 0 (some 0), laned .ordered 0 0 (some 1), laned .ordered 0 0 (some 3), laned .down 0 0 none]).dxl with groups := List.replicate 45 { Group.reset with step := 1 } } }, { Group.reset with step := 1 },
    by decide +kernel⟩

theorem witness_GroupEvents_4 : ∃ (g : Nat) (s : State) (x : Group) (off : Nat),
    g < 45 ∧ s.dxl.groups[g]? = some x ∧ g < 40 ∧ off ≠ 0xFFFF ∧ off = x.fresh.got ∧ off < x.fresh.asked ∧
    (x.step = 1 ∨ x.auth = true) ∧ off + 1 < x.fresh.asked :=
  ⟨0, grouped { runGroup with step := 1, fresh := { Touch.none with asked := 8 } }, { runGroup with step := 1, fresh := { Touch.none with asked := 8 } }, 0,
    by decide +kernel⟩

theorem witness_GroupEvents_5 : ∃ (g : Nat) (s : State) (x : Group) (off : Nat) (d : Dword),
    let f := { x.fresh with dwords := mapSet 0 x.fresh.dwords off d, got := off + 1, total := if off = 1 then fld d 0 16 else x.fresh.total }
    g < 45 ∧ s.dxl.groups[g]? = some x ∧ g < 40 ∧ off ≠ 0xFFFF ∧ off = x.fresh.got ∧ off < x.fresh.asked ∧
    x.step = 1 ∧ x.auth = false ∧ off + 1 = x.fresh.asked ∧ off + 1 = f.total ∧ touchOk f = true ∧ bitOf (fdw f
    5) (12 + x.rate) = true :=
  ⟨0, grouped { runGroup with step := 1, auth := false, fresh := fresh32 }, { runGroup with step := 1, auth := false, fresh := fresh32 }, 32, BitVec.ofNat 32 (crc32d ((List.range 32).map (fdw fresh32))),
    by exact ⟨by decide, rfl, by decide, by decide, rfl, by decide, rfl, rfl, rfl, rfl, (touch32 _ (crc_word _)).1, (touch32 _ (crc_word _)).2⟩⟩

theorem witness_GroupEvents_6 : ∃ (g : Nat) (s : State) (x : Group) (n : _),
    g < 45 ∧ s.dxl.groups[g]? = some x ∧ g < 40 ∧ x.step = 3 ∧ x.unprompted = some n :=
  ⟨0, grouped { runGroup with step := 3, unprompted := some 2 }, { runGroup with step := 3, unprompted := some 2 }, 2,
    by decide +kernel⟩

theorem witness_GroupEvents_7 : ∃ (g : Nat) (s : State) (x : Group) (gen : Dword),
    g < 45 ∧ s.dxl.groups[g]? = some x ∧ g < 40 ∧ x.step = 3 ∧ gen.toNat ≠ 0 :=
  ⟨0, grouped { runGroup with step := 3 }, { runGroup with step := 3 }, 1,
    by decide +kernel⟩

theorem witness_GroupEvents_8 : ∃ (g : Nat) (s : State) (x : Group) (gen : Dword) (c : Instr),
    g < 45 ∧ s.dxl.groups[g]? = some x ∧ g < 40 ∧ x.step = 3 ∧ ((∃ ok, c = Instr.mapack g ok true gen ∧
    gen.toNat = 0) ∨ (c = .mcrcTimeout g ∧ x.unprompted ≠ none)) :=
  ⟨0, grouped { runGroup with step := 3, unprompted := some 2 }, { runGroup with step := 3, unprompted := some 2 }, 0, .mcrcTimeout 0,
    by refine lead3 (by decide +kernel) ⟨by decide +kernel, Or.inr ⟨rfl, by decide +kernel⟩⟩⟩

theorem witness_GroupEvents_9 : ∃ (g : Nat) (s : State) (x : Group) (gen : Dword) (k : Gen),
    g < 45 ∧ s.dxl.groups[g]? = some x ∧ g < 40 ∧ s.map.gens.find? (fun y => y.number == gen.toNat) = some k ∧
    (x.run = true ∨ x.step = 4) :=
  ⟨0, { linked with map := { up.map with gens := [{ number := 1, boundary := none, full := false, codes := [], delta := [] }] } }, runGroup, 1, { number := 1, boundary := none, full := false, codes := [], delta := [] },
    by decide +kernel⟩

theorem witness_GroupEvents_10 : ∃ (g : Nat) (s : State) (x : Group) (gen : Dword) (k : Gen),
    g < 45 ∧ s.dxl.groups[g]? = some x ∧ g < 40 ∧ s.map.gens.find? (fun y => y.number == gen.toNat) = some k ∧
    (x.run = true ∨ x.step = 4) :=
  ⟨0, { linked with map := { up.map with gens := [{ number := 1, boundary := none, full := false, codes := [], delta := [] }] } }, runGroup, 1, { number := 1, boundary := none, full := false, codes := [], delta := [] },
    by decide +kernel⟩

theorem witness_GroupEvents_11 : ∃ (g : Nat) (s : State) (x : Group),
    g < 45 ∧ s.dxl.groups[g]? = some x ∧ g < 40 ∧ (x.run = true ∨ x.step = 2) :=
  ⟨0, grouped { runGroup with run := false, step := 2 }, { runGroup with run := false, step := 2 },
    by decide +kernel⟩

theorem witness_GroupEvents_12 : ∃ (g : Nat) (s : State) (x : Group),
    g < 45 ∧ s.dxl.groups[g]? = some x ∧ g < 40 ∧ x.run = true :=
  ⟨39, linked, runGroup,
    by decide +kernel⟩

theorem witness_GroupEvents_13 : ∃ (g : Nat) (s : State) (x : Group) (ll : Nat) (cause : Nat),
    g < 45 ∧ s.dxl.groups[g]? = some x ∧ (g < 40 ∨ g = 44) ∧ x.run = true ∧ ll < 3 ∧ 1 ≤ cause ∧ cause ≤ 3 :=
  ⟨44, linked, runGroup, 2, 3,
    by decide +kernel⟩

theorem witness_GroupEvents_14 : ∃ (g : Nat) (s : State) (x : Group) (ll : Nat) (phys : Nat),
    g < 45 ∧ s.dxl.groups[g]? = some x ∧ (g < 40 ∨ g = 44) ∧ x.run = true ∧ ll < 3 ∧ phys < 4 :=
  ⟨44, linked, runGroup, 2, 3,
    by decide +kernel⟩

theorem witness_GroupEvents_15 : ∃ (g : Nat) (s : State) (x : Group) (ll : _) (phys : _) (a : _) (b : _) (y : _),
    g < 45 ∧ s.dxl.groups[g]? = some x ∧ x.restripe = some (ll, phys, a, b) ∧ phys < 4 ∧ s.dxl.lanes[(groupLanes
    g).headD 0 + phys]? = some y :=
  ⟨0, grouped { runGroup with restripe := some (0, 3, 1, 2) }, { runGroup with restripe := some (0, 3, 1, 2) }, 0, 3, 1, 2, Lane.reset 3,
    by decide +kernel⟩

theorem witness_GroupEvents_16 : ∃ (g : Nat) (s : State) (x : Group) (ll : _) (phys : _) (y : _),
    g < 45 ∧ s.dxl.groups[g]? = some x ∧ x.restripeTx = some (ll, phys) ∧ s.dxl.lanes[(groupLanes g).headD 0 +
    phys]? = some y :=
  ⟨0, grouped { runGroup with restripeTx := some (0, 3) }, { runGroup with restripeTx := some (0, 3) }, 0, 3, Lane.reset 3,
    by decide +kernel⟩

theorem witness_ModuleWords_1 : ∃ (g : Nat) (s : State) (x : Group),
    g < 40 ∧ s.dxl.groups[g]? = some x :=
  ⟨39, linked, runGroup,
    by decide +kernel⟩

theorem witness_ModuleWords_2 : ∃ (g : Nat) (s : State) (x : Group),
    g < 40 ∧ s.dxl.groups[g]? = some x :=
  ⟨39, linked, runGroup,
    by decide +kernel⟩

theorem witness_ModuleWords_3 : ∃ (g : Nat) (s : State) (x : Group) (q : Nat),
    g < 40 ∧ s.dxl.groups[g]? = some x ∧ q < 4 ∧ x.run = true :=
  ⟨39, linked, runGroup, 3,
    by decide +kernel⟩

theorem witness_ModuleWords_4 : ∃ (g : Nat) (s : State) (x : Group) (q : Nat) (rseq : Nat),
    let k := mp g q
    let mine := (s.dxl.replay.filter fun r => mp r.m r.q == k).dropWhile fun r => r.rseq != rseq
    g < 40 ∧ s.dxl.groups[g]? = some x ∧ q < 4 ∧ x.run = true ∧ mine ≠ [] :=
  ⟨0, { linked with dxl := { linked.dxl with replay := [rec1 .idle true] } }, runGroup, 0, 0,
    by dsimp only; decide +kernel⟩

theorem witness_ModuleWords_5 : ∃ (g : Nat) (s : State) (x : Group) (q : Nat) (rseq : Nat),
    let k := mp g q
    let mine := (s.dxl.replay.filter fun r => mp r.m r.q == k).dropWhile fun r => r.rseq != rseq
    g < 40 ∧ s.dxl.groups[g]? = some x ∧ q < 4 ∧ x.run = true ∧ mine = [] ∧ rseq ≠ mapGet 0 s.dxl.rseq k :=
  ⟨39, linked, runGroup, 3, 1,
    by dsimp only; decide +kernel⟩

theorem witness_ModuleWords_6 : ∃ (g : Nat) (s : State) (x : Group) (cause : Nat) (a : Dword) (o : _),
    g < 40 ∧ s.dxl.groups[g]? = some x ∧ cause < 16 ∧ unpack a = some o ∧ o / moduleEjectors = g :=
  ⟨39, linked, runGroup, 15, 39 <<< 26, ordinal 39 0 0 0,
    by decide +kernel⟩

theorem witness_ModuleWords_7 : ∃ (g : Nat) (s : State) (x : Group) (cause : Nat) (a : Dword),
    g < 40 ∧ s.dxl.groups[g]? = some x ∧ cause < 16 ∧ unpack a = none :=
  ⟨39, linked, runGroup, 15, 40 <<< 26,
    by decide +kernel⟩

theorem witness_ModuleWords_8 : ∃ (g : Nat) (s : State) (x : Group) (i : Nat),
    g < 40 ∧ s.dxl.groups[g]? = some x ∧ i < 16 :=
  ⟨39, linked, runGroup, 15,
    by decide +kernel⟩

theorem witness_ModuleWords_9 : ∃ (g : Nat) (s : State) (x : Group) (q : Nat),
    g < 40 ∧ s.dxl.groups[g]? = some x ∧ q < 4 :=
  ⟨39, linked, runGroup, 3,
    by decide +kernel⟩

theorem witness_ModuleWords_10 : ∃ (g : Nat) (s : State) (x : Group) (q : Nat),
    g < 40 ∧ s.dxl.groups[g]? = some x ∧ q < 4 :=
  ⟨39, linked, runGroup, 3,
    by decide +kernel⟩

theorem witness_ModuleWords_11 : ∃ (g : Nat) (s : State) (x : Group) (q : Nat),
    g < 40 ∧ s.dxl.groups[g]? = some x ∧ q < 4 :=
  ⟨39, linked, runGroup, 3,
    by decide +kernel⟩

theorem witness_ModuleWords_12 : ∃ (g : Nat) (s : State) (x : Group) (q : Nat),
    g < 40 ∧ s.dxl.groups[g]? = some x ∧ q < 4 :=
  ⟨39, linked, runGroup, 3,
    by decide +kernel⟩

theorem witness_ModuleWords_14 : ∃ (g : Nat) (s : State) (x : Group) (q : Nat) (kind : _),
    g < 40 ∧ s.dxl.groups[g]? = some x ∧ q < 4 ∧ (kind = 0 ∨ 5 < kind) :=
  ⟨39, linked, runGroup, 3, 6,
    by decide +kernel⟩

theorem witness_CeaseAndLinkCommands_1 : ∃ (s : State),
    s.pins.resetHeld = false ∧ s.pwr.state ≠ .save :=
  ⟨up,
    by decide +kernel⟩

theorem witness_CeaseAndLinkCommands_2 : ∃ (s : State),
    s.pins.resetHeld = true :=
  ⟨{ up with pins := { up.pins with resetHeld := true } },
    by decide +kernel⟩

theorem witness_CeaseAndLinkCommands_3 : ∃ (s : State),
    s.pins.resetHeld = false ∧ hasRun s = true ∧ s.pwr.state = .save :=
  ⟨inPower .save,
    by decide +kernel⟩

theorem witness_CeaseAndLinkCommands_5 : ∃ (s : State) (g : _),
    g < 40 ∧ s.cease.inForce = true :=
  ⟨{ up with cease := { up.cease with inForce := true } }, 39,
    by decide +kernel⟩

theorem witness_CeaseAndLinkCommands_6 : ∃ (s : State),
    s.cease.inForce = true :=
  ⟨{ up with cease := { up.cease with inForce := true } },
    by decide +kernel⟩

theorem witness_CeaseAndLinkCommands_7 : ∃ (e : Entry) (s : State) (r : InFlight),
    Turn 0x0113 e s r ∧ rsvOk e [] = true ∧ s.pins.ceaseN = false :=
  ⟨cmd 0x0113 [], turn (up) (cmd 0x0113 []), fly (cmd 0x0113 []),
    by decide +kernel⟩

theorem witness_CeaseAndLinkCommands_8 : ∃ (e : Entry) (s : State) (r : InFlight),
    Turn 0x0906 e s r ∧ rsvOk e [] = true :=
  ⟨cmd 0x0906 [], turn (up) (cmd 0x0906 []), fly (cmd 0x0906 []),
    by decide +kernel⟩

theorem witness_CeaseAndLinkCommands_9 : ∃ (e : Entry) (s : State) (r : InFlight),
    let n := (pw e 0).toNat
    let d := hostDws s (pq e 2) n
    Turn 0x0112 e s r ∧ rsvOk e [allBits, 0, allBits, allBits] = true ∧ hostReadEnd s (pq e 2) (4 * n) = .ok ∧
    (∀ w ∈ d, eqOk w = true) :=
  ⟨cmd 0x0112 [1, 0, 256], turn (mems up 256 [0xAB060800]) (cmd 0x0112 [1, 0, 256]), fly (cmd 0x0112 [1, 0, 256]),
    by dsimp only; refine ⟨by decide +kernel, by decide +kernel, by decide +kernel, all_of (l' := [0xAB060800]) (by decide +kernel) (by decide +kernel)⟩⟩

theorem witness_CeaseAndLinkCommands_10 : ∃ (e : Entry) (s : State) (r : InFlight),
    Turn 0x0115 e s r ∧ rsvOk e [allBits, allBits] = true :=
  ⟨cmd 0x0115 [], turn (up) (cmd 0x0115 []), fly (cmd 0x0115 []),
    by decide +kernel⟩

theorem witness_CeaseAndLinkCommands_11 : ∃ (e : Entry) (s : State) (r : InFlight) (x : _),
    let g := fld (pw e 0) 0 6
    Turn 0x090A e s r ∧ rsvOk e [0x3F, 0xFFFF, allBits, allBits] = true ∧ g < 40 ∧ pq e 2 % 8 = 0 ∧ runningAuth
    s g = none ∧ hostReadEnd s (pq e 2) 96 = .ok ∧ s.dxl.groups[g]? = some x ∧ x.run = false :=
  ⟨cmd 0x090A [39], turn (up) (cmd 0x090A [39]), fly (cmd 0x090A [39]), Group.reset,
    by dsimp only; decide +kernel⟩

theorem witness_CeaseAndLinkCommands_12 : ∃ (e : Entry) (s : State) (r : InFlight) (x : _),
    let g := fld (pw e 0) 0 6
    Turn 0x090A e s r ∧ rsvOk e [0x3F, 0xFFFF, allBits, allBits] = true ∧ g < 40 ∧ pq e 2 % 8 = 0 ∧ runningAuth
    s g = none ∧ hostReadEnd s (pq e 2) 96 = .ok ∧ s.dxl.groups[g]? = some x ∧ x.run = true :=
  ⟨cmd 0x090A [39], turn (linked) (cmd 0x090A [39]), fly (cmd 0x090A [39]), runGroup,
    by dsimp only; decide +kernel⟩

theorem witness_AssayCommands_1 : ∃ (e : Entry) (s : State) (r : InFlight),
    let d := hostDws s (pq e 2) 64
    let a := setupOf d
    Turn 0x0301 e s r ∧ rsvOk e [0, 0, allBits, allBits] = true ∧ pq e 2 % 64 = 0 ∧ s.job ≠ none ∧ hostReadEnd s
    (pq e 2) 256 = .ok ∧ setupOk s d = true ∧ setupSees s a = true ∧ (forms s = false ∨ autoPlanes a = [] ∨
    s.asy.curveLock = true ∨ (s.tables.curveUpds.filter (updPending s)).length < 8) :=
  ⟨cmd 0x0301 [0, 0, 256], turn (mems jobUp 256 asyRec) (cmd 0x0301 [0, 0, 256]), fly (cmd 0x0301 [0, 0, 256]),
    by dsimp only; decide +kernel⟩

theorem witness_AssayCommands_2 : ∃ (e : Entry) (s : State) (r : InFlight),
    Turn 0x0302 e s r ∧ rsvOk e [] = true :=
  ⟨cmd 0x0302 [], turn (up) (cmd 0x0302 []), fly (cmd 0x0302 []),
    by decide +kernel⟩

theorem witness_AssayCommands_3 : ∃ (e : Entry) (s : State) (r : InFlight),
    let w := pw e 0
    Turn 0x0303 e s r ∧ rsvOk e [0x707] = true ∧ fld w 8 3 ≠ 0 :=
  ⟨cmd 0x0303 [0x707], turn (up) (cmd 0x0303 [0x707]), fly (cmd 0x0303 [0x707]),
    by dsimp only; decide +kernel⟩

theorem witness_AssayCommands_4 : ∃ (e : Entry) (s : State) (r : InFlight),
    Turn 0x0304 e s r ∧ rsvOk e [0xFFFF] = true :=
  ⟨cmd 0x0304 [0xFFFF], turn (up) (cmd 0x0304 [0xFFFF]), fly (cmd 0x0304 [0xFFFF]),
    by decide +kernel⟩

theorem witness_AssayCommands_5 : ∃ (e : Entry) (s : State) (r : InFlight),
    Turn 0x0305 e s r ∧ rsvOk e [0x33F, 0, allBits, allBits] = true ∧ fld (pw e 0) 0 6 < 40 ∧ pq e 2 % 64 = 0 ∧
    0x0305 ∉ s.mem.queryPoison :=
  ⟨cmd 0x0305 [0x327, 0, 256], turn (up) (cmd 0x0305 [0x327, 0, 256]), fly (cmd 0x0305 [0x327, 0, 256]),
    by decide +kernel⟩

theorem witness_AssayCommands_6 : ∃ (e : Entry) (s : State) (r : InFlight),
    Turn 0x0305 e s r ∧ rsvOk e [0x33F, 0, allBits, allBits] = true ∧ fld (pw e 0) 0 6 < 40 ∧ pq e 2 % 64 = 0 ∧
    0x0305 ∈ s.mem.queryPoison :=
  ⟨cmd 0x0305 [0x327, 0, 256], turn ({ up with mem := { up.mem with queryPoison := [0x0305, 0x0306] } }) (cmd 0x0305 [0x327, 0, 256]), fly (cmd 0x0305 [0x327, 0, 256]),
    by decide +kernel⟩

theorem witness_AssayCommands_7 : ∃ (e : Entry) (s : State) (r : InFlight),
    Turn 0x0306 e s r ∧ rsvOk e [0xF03, 0, allBits, allBits] = true ∧ pq e 2 % 8 = 0 ∧ s.asy.setup = none :=
  ⟨cmd 0x0306 [3, 0, 256], turn (up) (cmd 0x0306 [3, 0, 256]), fly (cmd 0x0306 [3, 0, 256]),
    by decide +kernel⟩

theorem witness_AssayCommands_8 : ∃ (e : Entry) (s : State) (r : InFlight) (a : _),
    Turn 0x0306 e s r ∧ rsvOk e [0xF03, 0, allBits, allBits] = true ∧ pq e 2 % 8 = 0 ∧ s.asy.setup = some a ∧
    0x0306 ∉ s.mem.queryPoison :=
  ⟨cmd 0x0306 [0, 0, 256], turn ({ up with asy := { up.asy with setup := some asy1 } }) (cmd 0x0306 [0, 0, 256]), fly (cmd 0x0306 [0, 0, 256]), asy1,
    by decide +kernel⟩

theorem witness_AssayCommands_9 : ∃ (e : Entry) (s : State) (r : InFlight) (a : _),
    Turn 0x0306 e s r ∧ rsvOk e [0xF03, 0, allBits, allBits] = true ∧ pq e 2 % 8 = 0 ∧ s.asy.setup = some a ∧
    0x0306 ∈ s.mem.queryPoison :=
  ⟨cmd 0x0306 [0, 0, 256], turn ({ up with asy := { up.asy with setup := some asy1 }, mem := { up.mem with queryPoison := [0x0305, 0x0306] } }) (cmd 0x0306 [0, 0, 256]), fly (cmd 0x0306 [0, 0, 256]), asy1,
    by decide +kernel⟩

theorem witness_AssayEvents_1 : ∃ (k : Nat) (s : State) (c : Camera),
    k < 4 ∧ s.asy.cams[k]? = some c ∧ (groupAt s (40 + k)).run = true :=
  ⟨3, assaying id, { Camera.reset with open_ := some { trig := 1, pix0 := 0, npix := 16, deep := false, totals := [1, 1, 1, 1] }, aligned := some (1, 1) },
    by decide +kernel⟩

theorem witness_AssayEvents_2 : ∃ (k : Nat) (s : State) (c : Camera) (o : OpenScan),
    k < 4 ∧ s.asy.cams[k]? = some c ∧ (groupAt s (40 + k)).run = true ∧ c.open_ = some o :=
  ⟨3, assaying id, { Camera.reset with open_ := some { trig := 1, pix0 := 0, npix := 16, deep := false, totals := [1, 1, 1, 1] }, aligned := some (1, 1) }, { trig := 1, pix0 := 0, npix := 16, deep := false, totals := [1, 1, 1, 1] },
    by decide +kernel⟩

theorem witness_AssayEvents_3 : ∃ (k : Nat) (s : State) (c : Camera) (o : OpenScan) (a : AsySetup) (crc : Dword) (ws : List (BitVec 64)) (nt : Int),
    let pulse := scanPulse s (camCfg a k) k o.trig (o.totals.getD (camCfg a k).pulse 0)
    k < 4 ∧ s.asy.cams[k]? = some c ∧ (groupAt s (40 + k)).run = true ∧ c.open_ = some o ∧ crc32q ws = crc.toNat
    ∧ s.asy.setup = some a ∧ cameraFed s a k = true ∧ (∀ l, c.lastTrig = some l → o.trig = (l + 1) % 2 ^ 16) ∧
    (s.pulses.getD (camCfg a k).pulse Pulse.reset).ring[pulse.1]? = some nt ∧ o.trig < 2 ^ 16 :=
  ⟨0, assaying id, { Camera.reset with open_ := some { trig := 1, pix0 := 0, npix := 16, deep := false, totals := [1, 1, 1, 1] }, aligned := some (1, 1) }, { trig := 1, pix0 := 0, npix := 16, deep := false, totals := [1, 1, 1, 1] }, asy1, BitVec.ofNat 32 (crc32q []), [], 5,
    by dsimp only; refine lead3 (by decide +kernel) (lead3 (by decide +kernel) ⟨by decide +kernel, (by intro l h; cases h), by decide +kernel⟩)⟩

theorem witness_AssayEvents_4 : ∃ (p : Nat) (s : State) (a : AsySetup) (start : Int) (band : Int) (len : Nat),
    s.asy.setup = some a ∧ slotToJudge s p = some (start, band, len) :=
  ⟨0, { assaying (fun a => { a with shown := [(0, 5000)] }) with ftb := { up.ftb with hwm := 5000 }, pages := { up.pages with list := [{ page1 .printing with n0 := some 51, band := some { planes := [0], slotLines := 768, returned := [] } }] } }, asy1, 115, 115, 768,
    by decide +kernel⟩

theorem witness_AssayEvents_5 : ∃ (s : State),
    let codes := settledCodes s
    forms s = true ∧ s.asy.mapLock = false ∧ s.map.pending = none ∧ s.asy.proposed ≠ [] ∧ unfixedPoison s = [] ∧
    newestGen s ≠ none ∧ (∃ c ∈ s.asy.proposed, mapGet 0 codes c.1 = c.2.1) :=
  ⟨{ up with asy := { up.asy with proposed := [(7, 0, 3)] }, map := { up.map with gens := [{ number := 1, boundary := none, full := false, codes := [], delta := [] }] } },
    by dsimp only; decide +kernel⟩

theorem witness_AssayEvents_6 : ∃ (s : State),
    let codes := settledCodes s
    forms s = true ∧ s.asy.mapLock = false ∧ s.map.pending = none ∧ s.asy.proposed ≠ [] ∧ unfixedPoison s = [] ∧
    newestGen s ≠ none ∧ (∀ c ∈ s.asy.proposed, mapGet 0 codes c.1 ≠ c.2.1) :=
  ⟨{ up with asy := { up.asy with proposed := [(7, 2, 3)] }, map := { up.map with gens := [{ number := 1, boundary := none, full := false, codes := [], delta := [] }] } },
    by dsimp only; decide +kernel⟩

theorem witness_AssayEvents_7 : ∃ (s : State) (a : AsySetup),
    s.asy.setup = some a ∧ forms s = true ∧ s.asy.curveLock = false ∧ s.asy.wants ≠ [] ∧ (∀ u ∈
    s.tables.curveUpds, updPending s u = true → u.assay = false) ∧ (s.tables.curveUpds.filter (updPending
    s)).length < 8 :=
  ⟨assaying fun a => { a with wants := [(0, 0, 0, 1)] }, asy1,
    by decide +kernel⟩

theorem witness_PairLinkAndRoles_1 : ∃ (s : State),
    s.par.enabled = true ∧ s.par.linkRun = true ∧ s.par.state ≠ .failed :=
  ⟨paired .shadow,
    by decide +kernel⟩

theorem witness_PairLinkAndRoles_2 : ∃ (s : State),
    s.par.linkRun = true :=
  ⟨paired .shadow,
    by decide +kernel⟩

theorem witness_PairLinkAndRoles_3 : ∃ (s : State),
    s.par.enabled = true ∧ s.par.state ≠ .failed ∧ (groupAt s 44).run = true ∧ s.par.linkRun = false :=
  ⟨{ linked with par := { up.par with enabled := true, state := .syncing } },
    by decide +kernel⟩

theorem witness_PairLinkAndRoles_4 : ∃ (s : State),
    bootRunning s = true ∧ s.pwr.state ≠ .sleep ∧ s.pwr.state ≠ .off ∧ s.par.state = .shadow ∧ s.par.mustFall =
    false ∧ epochBase s + 1 ≠ 2 ^ 32 - 1 :=
  ⟨paired .shadow,
    by decide +kernel⟩

theorem witness_PairLinkAndRoles_5 : ∃ (s : State),
    bootRunning s = true ∧ s.pwr.state ≠ .sleep ∧ s.pwr.state ≠ .off ∧ s.par.state = .shadow ∧ s.par.mustFall =
    true :=
  ⟨{ paired .shadow with par := { (paired .shadow).par with mustFall := true } },
    by decide +kernel⟩

theorem witness_PairLinkAndRoles_7 : ∃ (s : State) (x : Sentinel),
    s.par.state ≠ .failed ∧ s.pwr.state ≠ .off ∧ s.pins.resetHeld = false ∧ (x = .supply → supplyWatched s =
    true) :=
  ⟨paired .gaffer, .supply,
    by decide +kernel⟩

theorem witness_PairLinkAndRoles_8 : ∃ (s : State),
    supplyWatched s = false :=
  ⟨State.reset,
    by decide +kernel⟩

theorem witness_PairLinkAndRoles_9 : ∃ (s : State),
    s.par.rejoin = 4 ∧ s.ftb.referenced = false :=
  ⟨{ paired .syncing with par := { (paired .syncing).par with rejoin := 4 }, ftb := { up.ftb with referenced := false } },
    by decide +kernel⟩

theorem witness_PairLinkAndRoles_10 : ∃ (s : State),
    speaks s = true ∧ s.par.partnerRole ≠ 0 :=
  ⟨paired .gaffer,
    by decide +kernel⟩

theorem witness_PairLinkAndRoles_11 : ∃ (s : State),
    speaks s = true ∧ s.par.partnerRole = 0 ∧ s.par.ptSeen < 15 :=
  ⟨{ paired .gaffer with par := { (paired .gaffer).par with partnerRole := 0, ptSeen := 14 } },
    by decide +kernel⟩

theorem witness_PairLinkAndRoles_12 : ∃ (s : State),
    speaks s = true ∧ s.par.partnerRole = 0 ∧ 15 ≤ s.par.ptSeen :=
  ⟨{ paired .gaffer with par := { (paired .gaffer).par with partnerRole := 0, ptSeen := 15 } },
    by decide +kernel⟩

theorem witness_PairLinkAndRoles_13 : ∃ (s : State),
    listens s = true :=
  ⟨paired .shadow,
    by decide +kernel⟩

theorem witness_PairLinkAndRoles_14 : ∃ (s : State) (c : Instr),
    (c = .posrefSend ∨ c = .locksSend) ∧ speaks s = true :=
  ⟨paired .gaffer, .posrefSend,
    by decide +kernel⟩

theorem witness_PairLinkAndRoles_15 : ∃ (s : State),
    isGaffer s = true ∧ s.par.enabled = true ∧ s.par.linkRun = true :=
  ⟨paired .gaffer,
    by decide +kernel⟩

theorem witness_PairMessages_1 : ∃ (msg : PMsg) (s : State),
    let number := fld (mw msg 0) 32 32
    let ws := msg.words.drop 2
    listens s = true ∧ s.par.state = .shadow ∧ s.par.rejoin = 0 ∧ msg.crcOk = true ∧ (∀ l, s.par.mseqRx = some l
    → msg.mseq % 2 ^ 24 = (l + 1) % 2 ^ 24) ∧ ws = [] ∧ bitOf (mw msg 0) 30 = true ∧ fld (mw msg 0) 0 26 = 0 ∧
    (∃ g ∈ s.map.gens, g.number = number) :=
  ⟨pmsg ([0x140000000]), { paired .shadow with map := { up.map with gens := [gen1] } },
    by dsimp only; refine lead3 (by decide +kernel) ⟨by decide +kernel, prop_of (by decide +kernel), by decide +kernel⟩⟩

theorem witness_PairMessages_2 : ∃ (msg : PMsg) (s : State),
    let number := fld (mw msg 0) 32 32
    listens s = true ∧ s.par.state = .shadow ∧ s.par.rejoin = 0 ∧ msg.crcOk = true ∧ (∀ l, s.par.mseqRx = some l
    → msg.mseq % 2 ^ 24 = (l + 1) % 2 ^ 24) ∧ (∀ g ∈ s.map.gens, g.number ≠ number) ∧ fld (mw msg 0) 0 26 = 0 ∧
    bitOf (mw msg 0) 30 = true :=
  ⟨pmsg ([0x240000000]), { paired .shadow with map := { up.map with gens := [gen1] } },
    by dsimp only; refine lead3 (by decide +kernel) ⟨by decide +kernel, prop_of (by decide +kernel), by decide +kernel⟩⟩

theorem witness_PairMessages_3 : ∃ (msg : PMsg) (s : State),
    let number := fld (mw msg 0) 32 32
    listens s = true ∧ s.par.state = .shadow ∧ s.par.rejoin = 0 ∧ msg.crcOk = true ∧ (∀ l, s.par.mseqRx = some l
    → msg.mseq % 2 ^ 24 = (l + 1) % 2 ^ 24) ∧ (∀ g ∈ s.map.gens, g.number ≠ number) ∧ fld (mw msg 0) 0 26 = 0 ∧
    bitOf (mw msg 0) 30 = false :=
  ⟨pmsg ([0x200000000]), { paired .shadow with map := { up.map with gens := [gen1] } },
    by dsimp only; refine lead3 (by decide +kernel) ⟨by decide +kernel, prop_of (by decide +kernel), by decide +kernel⟩⟩

theorem witness_PairMessages_4 : ∃ (msg : PMsg) (s : State),
    listens s = true ∧ s.par.state = .shadow ∧ s.par.rejoin = 0 ∧ msg.crcOk = true ∧ (∀ l, s.par.mseqRx = some l
    → msg.mseq % 2 ^ 24 = (l + 1) % 2 ^ 24) :=
  ⟨pmsg ([]), paired .shadow,
    by refine lead3 (by decide +kernel) ⟨by decide +kernel, prop_of (by decide +kernel)⟩⟩

theorem witness_PairMessages_5 : ∃ (msg : PMsg) (s : State),
    listens s = true ∧ s.par.state = .shadow ∧ s.par.rejoin = 0 ∧ msg.crcOk = true ∧ (∀ l, s.par.mseqRx = some l
    → msg.mseq % 2 ^ 24 = (l + 1) % 2 ^ 24) :=
  ⟨pmsg ([]), paired .shadow,
    by refine lead3 (by decide +kernel) ⟨by decide +kernel, prop_of (by decide +kernel)⟩⟩

theorem witness_PairMessages_6 : ∃ (msg : PMsg) (s : State) (p : _),
    let x := pageMsg msg
    listens s = true ∧ s.par.state = .shadow ∧ s.par.rejoin = 0 ∧ msg.crcOk = true ∧ (∀ l, s.par.mseqRx = some l
    → msg.mseq % 2 ^ 24 = (l + 1) % 2 ^ 24) ∧ pageOf s x.1 = some p ∧ pageActive p = true ∧ x.2.1 = 1 :=
  ⟨pmsg ([0x940000000]), pairedPage .printing, page1 .printing,
    by dsimp only; refine lead3 (by decide +kernel) ⟨by decide +kernel, prop_of (by decide +kernel), by decide +kernel⟩⟩

theorem witness_PairMessages_7 : ∃ (msg : PMsg) (s : State),
    let x := pageMsg msg
    listens s = true ∧ s.par.state = .shadow ∧ s.par.rejoin = 0 ∧ msg.crcOk = true ∧ (∀ l, s.par.mseqRx = some l
    → msg.mseq % 2 ^ 24 = (l + 1) % 2 ^ 24) ∧ pageOf s x.1 = none ∧ (∀ u ∈ s.par.unshadowed, u.1 ≠ x.1) :=
  ⟨pmsg ([0x940000000]), paired .shadow,
    by dsimp only; refine lead3 (by decide +kernel) ⟨by decide +kernel, prop_of (by decide +kernel), by decide +kernel⟩⟩

theorem witness_PairMessages_8 : ∃ (msg : PMsg) (s : State) (p : _),
    let id : Dword := BitVec.ofNat 32 (fld (mw msg 0) 32 32)
    listens s = true ∧ s.par.state = .shadow ∧ s.par.rejoin = 0 ∧ msg.crcOk = true ∧ (∀ l, s.par.mseqRx = some l
    → msg.mseq % 2 ^ 24 = (l + 1) % 2 ^ 24) ∧ pageOf s id = some p ∧ pageActive p = true ∧ fld (mw msg 0) 28 4 =
    1 :=
  ⟨pmsg ([0x910000000]), pairedPage .printing, page1 .printing,
    by dsimp only; refine lead3 (by decide +kernel) ⟨by decide +kernel, prop_of (by decide +kernel), by decide +kernel⟩⟩

theorem witness_PairMessages_9 : ∃ (msg : PMsg) (s : State) (p : _),
    let id : Dword := BitVec.ofNat 32 (fld (mw msg 0) 32 32)
    listens s = true ∧ s.par.state = .shadow ∧ s.par.rejoin = 0 ∧ msg.crcOk = true ∧ (∀ l, s.par.mseqRx = some l
    → msg.mseq % 2 ^ 24 = (l + 1) % 2 ^ 24) ∧ pageOf s id = some p ∧ pageActive p = true ∧ fld (mw msg 0) 28 4 ≠
    1 :=
  ⟨pmsg ([0x920000000]), pairedPage .printing, page1 .printing,
    by dsimp only; refine lead3 (by decide +kernel) ⟨by decide +kernel, prop_of (by decide +kernel), by decide +kernel⟩⟩

theorem witness_PairMessages_10 : ∃ (msg : PMsg) (s : State),
    listens s = true ∧ s.par.state = .shadow ∧ s.par.rejoin = 0 ∧ msg.crcOk = true ∧ (∀ l, s.par.mseqRx = some l
    → msg.mseq % 2 ^ 24 = (l + 1) % 2 ^ 24) :=
  ⟨pmsg ([]), paired .shadow,
    by refine lead3 (by decide +kernel) ⟨by decide +kernel, prop_of (by decide +kernel)⟩⟩

theorem witness_PairMessages_11 : ∃ (msg : PMsg) (s : State) (since : List Int),
    let t0 := catchUp s (refValues s msg (sinceT s msg)) since
    listens s = true ∧ s.par.state = .shadow ∧ s.par.rejoin = 0 ∧ msg.crcOk = true ∧ (∀ l, s.par.mseqRx = some l
    → msg.mseq % 2 ^ 24 = (l + 1) % 2 ^ 24) ∧ s.webCfg.pacing = false ∧ agrees s t0 msg since (bitOf (mw msg 15)
    1 || bitOf (mw msg 15) 2 || bitOf (mw msg 15) 3) = true :=
  ⟨pmsg (refWords 0x100000000), paired .shadow, [],
    by dsimp only; refine lead3 (by decide +kernel) ⟨by decide +kernel, prop_of (by decide +kernel), by decide +kernel⟩⟩

theorem witness_PairMessages_12 : ∃ (msg : PMsg) (s : State) (since : List Int),
    let t0 := catchUp s (refValues s msg (sinceT s msg)) since
    listens s = true ∧ s.par.state = .shadow ∧ s.par.rejoin = 0 ∧ msg.crcOk = true ∧ (∀ l, s.par.mseqRx = some l
    → msg.mseq % 2 ^ 24 = (l + 1) % 2 ^ 24) ∧ s.webCfg.pacing = false ∧ agrees s t0 msg since false = false ∧
    fld (mw msg 15) 1 3 = 0 :=
  ⟨pmsg (refWords 0), paired .shadow, [],
    by dsimp only; refine lead3 (by decide +kernel) ⟨by decide +kernel, prop_of (by decide +kernel), by decide +kernel⟩⟩

theorem witness_PairMessages_13 : ∃ (msg : PMsg) (s : State) (parts : _) (rest : _),
    listens s = true ∧ s.par.state = .shadow ∧ s.par.rejoin = 0 ∧ msg.crcOk = true ∧ (∀ l, s.par.mseqRx = some l
    → msg.mseq % 2 ^ 24 = (l + 1) % 2 ^ 24) ∧ motionParts s msg.words = some (parts, rest) :=
  ⟨pmsg [], paired .shadow, [], [],
    by refine lead3 (by decide +kernel) ⟨by decide +kernel, prop_of (by decide +kernel), by decide +kernel⟩⟩

theorem witness_PairMessages_14 : ∃ (msg : PMsg) (s : State) (t1 : Int) (tok : Nat),
    listens s = true ∧ s.par.state = .shadow ∧ s.par.rejoin = 0 ∧ msg.crcOk = true ∧ (∀ l, s.par.mseqRx = some l
    → msg.mseq % 2 ^ 24 = (l + 1) % 2 ^ 24) ∧ s.par.ptSent.find? (fun x => x.1 == fld (mw msg 0) 48 16) = some
    (tok, t1) :=
  ⟨pmsg ([0x7000000000000]), { paired .shadow with par := { (paired .shadow).par with ptSent := [(7, 5)] } }, 5, 7,
    by dsimp only; refine lead3 (by decide +kernel) ⟨by decide +kernel, prop_of (by decide +kernel), by decide +kernel⟩⟩

theorem witness_PairMessages_15 : ∃ (s : State) (lo : Nat),
    let c := lineCounter s + signed 16 (unsignedOf 16 ((lo : Int) - lineCounter s))
    listens s = true ∧ lineCounter s < c ∧ (∀ x ∈ s.csc.rho, x.1 ≠ c) :=
  ⟨paired .shadow, 5,
    by dsimp only; decide +kernel⟩

theorem witness_PairMessages_16 : ∃ (s : State) (m : Nat) (q : Nat) (cause : Nat),
    listens s = true ∧ m < 40 ∧ q < 4 ∧ 1 ≤ cause ∧ cause ≤ 3 :=
  ⟨paired .shadow, 39, 3, 3,
    by decide +kernel⟩

theorem witness_PairCommandsAndRejoin_1 : ∃ (e : Entry) (s : State) (r : InFlight),
    Turn 0x0801 e s r ∧ rsvOk e [0x80000003] = true ∧ (bitOf (pw e 0) 31 = true → fld (pw e 0) 0 2 ≠ 0) ∧
    s.par.state ≠ .gaffer ∧ s.par.state ≠ .shadow :=
  ⟨cmd 0x0801 [0x80000002], turn ({ up with par := { up.par with state := .syncing } }) (cmd 0x0801 [0x80000002]), fly (cmd 0x0801 [0x80000002]),
    by decide +kernel⟩

theorem witness_PairCommandsAndRejoin_2 : ∃ (e : Entry) (s : State) (r : InFlight),
    Turn 0x0802 e s r ∧ rsvOk e [] = true ∧ (s.par.enabled = false ∨ s.par.linkRun = false ∨ s.par.partnerRole =
    0) ∧ s.par.state = .syncing :=
  ⟨cmd 0x0802 [], turn ({ up with par := { up.par with state := .syncing } }) (cmd 0x0802 []), fly (cmd 0x0802 []),
    by decide +kernel⟩

theorem witness_PairCommandsAndRejoin_3 : ∃ (e : Entry) (s : State) (r : InFlight),
    Turn 0x0802 e s r ∧ rsvOk e [] = true ∧ (s.par.enabled = false ∨ s.par.linkRun = false ∨ s.par.partnerRole =
    0) ∧ s.par.state = .shadow :=
  ⟨cmd 0x0802 [], turn ({ up with par := { up.par with state := .shadow } }) (cmd 0x0802 []), fly (cmd 0x0802 []),
    by decide +kernel⟩

theorem witness_PairCommandsAndRejoin_4 : ∃ (e : Entry) (s : State) (r : InFlight) (v : Dword),
    Turn 0x0803 e s r ∧ rsvOk e [] = true ∧ s.par.state = .syncing ∧ runningCmd s 0x0803 = none ∧ s.par.linkRun
    = true ∧ majorMinor s.boot.fwVersion = majorMinor v :=
  ⟨cmd 0x0803 [], turn (paired .syncing) (cmd 0x0803 []), fly (cmd 0x0803 []), 0,
    by decide +kernel⟩

theorem witness_PairCommandsAndRejoin_5 : ∃ (e : Entry) (s : State) (r : InFlight),
    Turn 0x0804 e s r ∧ rsvOk e [] = true :=
  ⟨cmd 0x0804 [], turn (up) (cmd 0x0804 []), fly (cmd 0x0804 []),
    by decide +kernel⟩

theorem witness_PairCommandsAndRejoin_6 : ∃ (v : Dword) (s : State),
    s.par.autoDue = true ∧ s.par.state = .syncing ∧ servitor s = true ∧ s.par.linkRun = true ∧ bootRunning s =
    true ∧ s.par.rejoin = 0 ∧ majorMinor s.boot.fwVersion = majorMinor v :=
  ⟨0, { paired .syncing with par := { (paired .syncing).par with autoDue := true } },
    by decide +kernel⟩

theorem witness_PairCommandsAndRejoin_7 : ∃ (msg : PMsg) (s : State),
    listens s = true ∧ s.par.state = .syncing ∧ msg.crcOk = true ∧ (∀ l, s.par.mseqRx = some l → msg.mseq % 2 ^
    24 = (l + 1) % 2 ^ 24) ∧ 4 ∉ s.par.rejoinGot ∧ s.par.rejoin = 5 ∧ digestDiffers s msg.words = none :=
  ⟨pmsg ((digestTables ({ paired .syncing with par := { (paired .syncing).par with rejoin := 5 } })).map (digestWord ({ paired .syncing with par := { (paired .syncing).par with rejoin := 5 } }))), { paired .syncing with par := { (paired .syncing).par with rejoin := 5 } },
    by exact ⟨by decide +kernel, by decide +kernel, rfl, prop_of (by decide +kernel), by decide +kernel, by decide +kernel, digest_self _ (by decide +kernel)⟩⟩

theorem witness_PairCommandsAndRejoin_8 : ∃ (msg : PMsg) (s : State) (x : _),
    listens s = true ∧ s.par.state = .syncing ∧ msg.crcOk = true ∧ (∀ l, s.par.mseqRx = some l → msg.mseq % 2 ^
    24 = (l + 1) % 2 ^ 24) ∧ 4 ∉ s.par.rejoinGot ∧ s.par.rejoin = 5 ∧ digestDiffers s msg.words = some x :=
  ⟨pmsg ([]), { paired .syncing with par := { (paired .syncing).par with rejoin := 5 } }, 33554432,
    by dsimp only; refine lead3 (by decide +kernel) ⟨prop_of (by decide +kernel), by decide +kernel⟩⟩

theorem witness_PairCommandsAndRejoin_9 : ∃ (msg : PMsg) (s : State),
    let ws := s.par.blockGot ++ msg.words
    let need := 64 * (blockCurves s).length + 41600 * (autoNow s).length
    listens s = true ∧ s.par.state = .syncing ∧ msg.crcOk = true ∧ (∀ l, s.par.mseqRx = some l → msg.mseq % 2 ^
    24 = (l + 1) % 2 ^ 24) ∧ 4 ∉ s.par.rejoinGot ∧ s.par.rejoin = 6 ∧ need ≤ ws.length :=
  ⟨pmsg ([]), { paired .syncing with par := { (paired .syncing).par with rejoin := 6 } },
    by dsimp only; refine lead3 (by decide +kernel) ⟨prop_of (by decide +kernel), by decide +kernel⟩⟩

theorem witness_PairCommandsAndRejoin_10 : ∃ (msg : PMsg) (s : State),
    let ws := s.par.blockGot ++ msg.words
    let need := 64 * (blockCurves s).length + 41600 * (autoNow s).length
    listens s = true ∧ s.par.state = .syncing ∧ msg.crcOk = true ∧ (∀ l, s.par.mseqRx = some l → msg.mseq % 2 ^
    24 = (l + 1) % 2 ^ 24) ∧ 4 ∉ s.par.rejoinGot ∧ s.par.rejoin = 6 ∧ ws.length < need :=
  ⟨pmsg ([]), { { paired .syncing with par := { (paired .syncing).par with rejoin := 6 } } with asy := { up.asy with setup := some asy1 } },
    by dsimp only; refine lead3 (by decide +kernel) ⟨prop_of (by decide +kernel), by decide +kernel⟩⟩

theorem witness_PairCommandsAndRejoin_11 : ∃ (msg : PMsg) (s : State),
    listens s = true ∧ s.par.state = .syncing ∧ msg.crcOk = true ∧ (∀ l, s.par.mseqRx = some l → msg.mseq % 2 ^
    24 = (l + 1) % 2 ^ 24) ∧ 4 ∉ s.par.rejoinGot ∧ s.par.rejoin = 4 ∧ s.ftb.referenced = false ∧ 1 ∉
    s.par.rejoinGot :=
  ⟨pmsg ([]), { { paired .syncing with par := { (paired .syncing).par with rejoin := 4 } } with ftb := { up.ftb with referenced := false } },
    by dsimp only; refine lead3 (by decide +kernel) ⟨prop_of (by decide +kernel), by decide +kernel⟩⟩

theorem witness_MemoryCommands_1 : ∃ (e : Entry) (s : State) (r : InFlight) (found : Population),
    let d := hostDws s (pq e 2) 4
    let ex := hostDws s (pq e 2 + 16) (fld (rdw d 2) 0 11)
    let c := readMemCfg d ex
    Turn 0x0401 e s r ∧ s.mem.ready = false ∧ rsvOk e [0, 0, allBits, allBits] = true ∧ pq e 2 % 64 = 0 ∧
    hostReadEnd s (pq e 2) 16 = .ok ∧ memHeaderOk d = true ∧ hostReadEnd s (pq e 2 + 16) (4 * fld (rdw d 2) 0
    11) = .ok ∧ ex.all (exclOk c) = true ∧ sparesOk c = true ∧ populationOk c found = true :=
  ⟨cmd 0x0401 [0, 0, 256], turn (mems ({ up with mem := { up.mem with ready := false } }) 256 [0x01F20000, 0xC1000000, 0x08000000]) (cmd 0x0401 [0, 0, 256]), fly (cmd 0x0401 [0, 0, 256]), ⟨true, 6, 1, 1⟩,
    by dsimp only; decide +kernel⟩

theorem witness_MemoryCommands_2 : ∃ (e : Entry) (s : State) (r : InFlight) (c : _),
    let d := hostDws s (pq e 2) 16
    Turn 0x0402 e s r ∧ rsvOk e [0, 0, allBits, allBits] = true ∧ pq e 2 % 64 = 0 ∧ s.mem.ready = false ∧
    s.mem.cfg = some c ∧ hostReadEnd s (pq e 2) 64 = .ok ∧ regionsOk d = true ∧ ((regionsFrom d).map
    unitsUsed).sum ≤ cSysUnits c :=
  ⟨cmd 0x0402 [0, 0, 256], turn (mems ({ up with mem := { up.mem with ready := false, cfg := some mem6 } }) 256 [0, 0x28000004, 0x78000002, 0x38000001, 0x48000001, 0x58000002, 0x68000001]) (cmd 0x0402 [0, 0, 256]), fly (cmd 0x0402 [0, 0, 256]), mem6,
    by dsimp only; decide +kernel⟩

theorem witness_MemoryCommands_3 : ∃ (e : Entry) (s : State) (r : InFlight) (g : _),
    Turn 0x0403 e s r ∧ regionAt s (fld (pw e 0) 28 4) = some g ∧ rsvOk e [0xF0000007, 0xFFFF, allBits, allBits,
    allBits, allBits, allBits, allBits] = true ∧ 1 ≤ fld (pw e 0) 0 3 ∧ fld (pw e 0) 0 3 ≤ 4 ∧ 1 ≤ pq e 4 ∧ pq e
    2 + pq e 4 ≤ 65536 * g.size ∧ pq e 6 % 64 = 0 ∧ s.mem.burnish = none :=
  ⟨cmd 0x0403 [1, 0, 0, 0, 65536, 0, 256], turn (regioned 2 []) (cmd 0x0403 [1, 0, 0, 0, 65536, 0, 256]), fly (cmd 0x0403 [1, 0, 0, 0, 65536, 0, 256]), { kind := 3, code := 2, size := 1 },
    by decide +kernel⟩

theorem witness_MemoryCommands_4 : ∃ (e : Entry) (s : State) (r : InFlight) (b : _),
    Turn 0x0404 e s r ∧ rsvOk e [] = true ∧ s.mem.burnish = some b :=
  ⟨cmd 0x0404 [], turn ({ up with mem := { up.mem with burnish := some (pass1 (cmd 0x0403 [1])) } }) (cmd 0x0404 []), fly (cmd 0x0404 []), pass1 (cmd 0x0403 [1]),
    by decide +kernel⟩

theorem witness_MemoryCommands_5 : ∃ (e : Entry) (s : State) (r : InFlight) (x : _) (sp : _),
    let ch := fld (pw e 0) 28 4
    let rank := fld (pw e 0) 26 2
    Turn 0x0405 e s r ∧ rsvOk e [0xFC000000] = true ∧ rankAt s ch rank = some x ∧ x.state = .inService ∧ rankIn
    s ch .spare = some sp ∧ sp.rank ≠ rank :=
  ⟨cmd 0x0405 [], turn (ranked .inService .spare false) (cmd 0x0405 []), fly (cmd 0x0405 []), rank0 .inService false, { rank0 .spare false with rank := 1 },
    by dsimp only; decide +kernel⟩

theorem witness_MemoryCommands_6 : ∃ (e : Entry) (s : State) (r : InFlight) (c : _) (x : _) (place : _),
    let ch := fld (pw e 0) 28 4
    let rank := fld (pw e 0) 26 2
    Turn 0x0406 e s r ∧ s.mem.cfg = some c ∧ rankAt s ch rank = some x ∧ rsvOk e [0xFFFFFFF0] = true ∧ retirable
    s c (pw e 0) = true ∧ x.state ≠ .migratingFrom ∧ x.state ≠ .migratingTo ∧ (remapsOn s ch).length < 4096 ∧
    freeReserve s c ch rank = some place :=
  ⟨cmd 0x0406 [0x50], turn (ranked .inService .spare false) (cmd 0x0406 [0x50]), fly (cmd 0x0406 [0x50]), { mem6 with retirePages := 16, ranks := 2 }, rank0 .inService false, (freeReserve (ranked .inService .spare false) { mem6 with retirePages := 16, ranks := 2 } 0 0).getD 0,
    by dsimp only; decide +kernel⟩

theorem witness_MemoryCommands_7 : ∃ (e : Entry) (s : State) (r : InFlight),
    let n := fld (pw e 0) 0 7
    Turn 0x0407 e s r ∧ rsvOk e [0x7F, 0, allBits, allBits] = true ∧ 1 ≤ n ∧ n ≤ 64 ∧ pq e 2 % 32 = 0 :=
  ⟨cmd 0x0407 [64, 0, 256], turn (up) (cmd 0x0407 [64, 0, 256]), fly (cmd 0x0407 [64, 0, 256]),
    by dsimp only; decide +kernel⟩

theorem witness_MemoryCommands_8 : ∃ (e : Entry) (s : State) (r : InFlight),
    Turn 0x0408 e s r ∧ rsvOk e [0, 0, allBits, allBits] = true ∧ pq e 2 % 64 = 0 :=
  ⟨cmd 0x0408 [0, 0, 256], turn (up) (cmd 0x0408 [0, 0, 256]), fly (cmd 0x0408 [0, 0, 256]),
    by decide +kernel⟩

theorem witness_MemoryEvents_1 : ∃ (arrived : List MemReq) (r : BurstRead) (s : State) (c : MemCfg) (g : Region),
    let qs := requestsOf s r g.code
    let s1 := qs.foldl requestArrives (arrived.foldl readArrives (keepPlaces s r))
    s.mem.cfg = some c ∧ regionAt s r.region = some g ∧ readStands s r = true ∧ readDue s r = true ∧ qs.all
    (mayServe s1 c) = false :=
  ⟨[{ place := (copyOf 0 0).place, addr := 128, by_ := .print }], read64 (copyOf 0 0) (none) .plain, regioned 2 [], mem6, { kind := 3, code := 2, size := 1 },
    by dsimp only; decide +kernel⟩

theorem witness_MemoryEvents_2 : ∃ (arrived : List MemReq) (r : BurstRead) (s : State) (c : MemCfg) (g : Region) (q : MemReq),
    let qs := requestsOf s r g.code
    let s1 := qs.foldl requestArrives (arrived.foldl readArrives (keepPlaces s r))
    s.mem.cfg = some c ∧ regionAt s r.region = some g ∧ readStands s r = true ∧ readDue s r = true ∧ c.wmHigh ≤
    (queuedOn s1 q.place.channel).length :=
  ⟨[], read64 (copyOf 0 0) (none) .plain, regioned 2 ((List.range 48).map fun n => { queued64 with write := { queued64.write with addr := 64 * n } }), mem6, { kind := 3, code := 2, size := 1 }, { place := (copyOf 0 0).place, addr := 64, by_ := .other },
    by dsimp only; decide +kernel⟩

theorem witness_MemoryEvents_3 : ∃ (r : BurstRead) (s : State) (c : MemCfg) (g : Region),
    let whole := heldWhole s r.addr
    s.mem.cfg = some c ∧ regionAt s r.region = some g ∧ readStands s r = true ∧ readDue s r = true ∧ otherCopy r
    ≠ none ∧ r.by_ = .burnish ∧ whole = false :=
  ⟨{ read64 (copyOf 0 0) (some (copyOf 6 0)) .plain with by_ := .burnish }, { regioned 3 [] with mem := { (regioned 3 []).mem with burnish := some (pass1 (cmd 0x0403 [])) } }, mem6, { kind := 3, code := 3, size := 1 },
    by dsimp only; decide +kernel⟩

theorem witness_MemoryEvents_4 : ∃ (arrived : List MemReq) (r : BurstRead) (s : State) (c : MemCfg) (g : Region),
    let qs := requestsOf s r g.code
    let s1 := qs.foldl requestArrives (arrived.foldl readArrives (keepPlaces s r))
    let a := firstCopy r
    let bad := burstPoisoned s r.addr
    let whole := heldWhole s r.addr
    s.mem.cfg = some c ∧ regionAt s r.region = some g ∧ readStands s r = true ∧ readDue s r = true ∧ qs.all
    (mayServe s1 c) = true ∧ consumes r = true ∧ bad = false ∧ (whole = true ∨ ∃ n again, copyEnd g.code false a
    = .good n again) :=
  ⟨[], read64 (copyOf 0 4) (none) .plain, regioned 2 [], mem6, { kind := 3, code := 2, size := 1 },
    by dsimp only; refine lead3 (by decide +kernel) (lead3 (by decide +kernel) ⟨by decide +kernel, .inr ⟨4, false, by decide +kernel⟩⟩)⟩

theorem witness_MemoryEvents_5 : ∃ (arrived : List MemReq) (r : BurstRead) (s : State) (c : MemCfg) (g : Region),
    let qs := requestsOf s r g.code
    let s1 := qs.foldl requestArrives (arrived.foldl readArrives (keepPlaces s r))
    let a := firstCopy r
    let bad := burstPoisoned s r.addr
    let whole := heldWhole s r.addr
    s.mem.cfg = some c ∧ regionAt s r.region = some g ∧ readStands s r = true ∧ readDue s r = true ∧ qs.all
    (mayServe s1 c) = true ∧ whole = false ∧ copyEnd g.code bad a = .bad ∧ otherCopy r = none :=
  ⟨[], read64 (copyOf 0 5) (none) .plain, regioned 2 [], mem6, { kind := 3, code := 2, size := 1 },
    by dsimp only; decide +kernel⟩

theorem witness_MemoryEvents_6 : ∃ (arrived : List MemReq) (r : BurstRead) (s : State) (c : MemCfg) (g : Region) (d : _) (n : _) (again : _),
    let qs := requestsOf s r g.code
    let s1 := qs.foldl requestArrives (arrived.foldl readArrives (keepPlaces s r))
    let a := firstCopy r
    let bad := burstPoisoned s r.addr
    let whole := heldWhole s r.addr
    s.mem.cfg = some c ∧ regionAt s r.region = some g ∧ readStands s r = true ∧ readDue s r = true ∧ qs.all
    (mayServe s1 c) = true ∧ whole = false ∧ copyEnd g.code bad a = .bad ∧ otherCopy r = some d ∧ copyEnd g.code
    bad d = .good n again :=
  ⟨[], read64 (copyOf 0 5) (some (copyOf 6 4)) .plain, regioned 3 [], mem6, { kind := 3, code := 3, size := 1 }, copyOf 6 4, 4, false,
    by dsimp only; decide +kernel⟩

theorem witness_MemoryEvents_7 : ∃ (arrived : List MemReq) (r : BurstRead) (s : State) (c : MemCfg) (g : Region) (pg : _) (plane : _) (layer : _) (row : _) (col : _),
    let qs := requestsOf s r g.code
    let s1 := qs.foldl requestArrives (arrived.foldl readArrives (keepPlaces s r))
    let a := firstCopy r
    let bad := burstPoisoned s r.addr
    let whole := heldWhole s r.addr
    s.mem.cfg = some c ∧ regionAt s r.region = some g ∧ readStands s r = true ∧ readDue s r = true ∧ qs.all
    (mayServe s1 c) = true ∧ bad = true ∧ (whole = true ∨ copyEnd g.code true a = .poison) ∧ r.use = .block pg
    plane layer row col :=
  ⟨[], read64 (copyOf 0 0) (none) (.block 9 0 0 0 0), { regioned 2 [] with mem := { (regioned 2 []).mem with poisoned := [64] } }, mem6, { kind := 3, code := 2, size := 1 }, 9, 0, 0, 0, 0,
    by dsimp only; decide +kernel⟩

theorem witness_MemoryEvents_8 : ∃ (s : State) (c : MemCfg),
    s.mem.cfg = some c ∧ c.wmLow ≤ c.wmHigh :=
  ⟨regioned 2 (List.replicate 48 queued64), mem6,
    by decide +kernel⟩

theorem witness_MemoryEvents_9 : ∃ (ch : Nat) (rank : Nat) (s : State) (x : Rank),
    rankAt s ch rank = some x ∧ refreshes x = true :=
  ⟨0, 0, ranked .inService .spare false, rank0 .inService false,
    by decide +kernel⟩

theorem witness_MemoryEvents_10 : ∃ (ch : Nat) (rank : Nat) (s : State) (x : Rank),
    rankAt s ch rank = some x :=
  ⟨0, 0, ranked .inService .spare false, rank0 .inService false,
    by decide +kernel⟩

theorem witness_MemoryEvents_11 : ∃ (ch : Nat) (rank : Nat) (s : State) (x : Rank) (sp : _),
    rankAt s ch rank = some x ∧ x.failing = true ∧ x.state = .inService ∧ rankIn s ch .spare = some sp ∧ sp.rank
    ≠ rank :=
  ⟨0, 0, ranked .inService .spare true, rank0 .inService true, { rank0 .spare false with rank := 1 },
    by decide +kernel⟩

theorem witness_MemoryEvents_12 : ∃ (ch : Nat) (rank : Nat) (s : State) (x : Rank),
    rankAt s ch rank = some x :=
  ⟨0, 0, ranked .inService .spare false, rank0 .inService false,
    by decide +kernel⟩

theorem witness_MemoryEvents_13 : ∃ (ch : Nat) (rank : Nat) (s : State) (x : Rank),
    rankAt s ch rank = some x ∧ x.state = .inService :=
  ⟨0, 0, ranked .inService .spare false, rank0 .inService false,
    by decide +kernel⟩

theorem witness_MemoryEvents_14 : ∃ (ch : Nat) (s : State) (a : Rank) (b : Rank),
    rankIn s ch .migratingFrom = some a ∧ rankIn s ch .migratingTo = some b ∧ a.rank ≠ b.rank :=
  ⟨0, ranked .migratingFrom .migratingTo false, rank0 .migratingFrom false, { rank0 .migratingTo false with rank := 1 },
    by decide +kernel⟩

theorem witness_MemoryEvents_15 : ∃ (s : State) (b : Burnish) (r : InFlight),
    s.mem.burnish = some b ∧ runningCmd s 0x0403 = some r :=
  ⟨{ up with mem := { up.mem with burnish := some (pass1 (cmd 0x0403 [1])) }, mbx := { up.mbx with inFlight := [{ fly (cmd 0x0403 [1]) with committed := true }] } }, pass1 (cmd 0x0403 [1]), { fly (cmd 0x0403 [1]) with committed := true },
    by decide +kernel⟩

theorem witness_MemoryEvents_16 : ∃ (s : State) (b : Burnish),
    s.mem.burnish = some b ∧ b.rate ≤ 4 :=
  ⟨{ up with mem := { up.mem with burnish := some (pass1 (cmd 0x0403 [])) } }, pass1 (cmd 0x0403 []),
    by decide +kernel⟩

theorem witness_MemoryEvents_19 : ∃ (s : State),
    bootRunning s = true :=
  ⟨up,
    by decide +kernel⟩

theorem witness_AxisCommands_1 : ∃ (e : Entry) (s : State) (r : InFlight) (a : Axis),
    s.mot.axes[axisOf e]? = some a ∧ Turn 0x0501 e s r ∧ axisCfgOk s e = true ∧ servitor s = true :=
  ⟨cmd 0x0501 [0x17800002, 1000, 1000, 1000, 0, 0x00010002, 0x00010002, 1], turn ({ moved (axis1 .idle) Loop.reset with par := { up.par with enabled := true, state := .shadow } }) (cmd 0x0501 [0x17800002, 1000, 1000, 1000, 0, 0x00010002, 0x00010002, 1]), fly (cmd 0x0501 [0x17800002, 1000, 1000, 1000, 0, 0x00010002, 0x00010002, 1]), axis1 .idle,
    by decide +kernel⟩

theorem witness_AxisCommands_2 : ∃ (e : Entry) (s : State) (r : InFlight) (a : Axis),
    s.mot.axes[axisOf e]? = some a ∧ Turn 0x0501 e s r ∧ axisCfgOk s e = true ∧ servitor s = false ∧ (isFollower
    a = true → a.state = .follower ∧ (axisAt s a.cfg.leader).state = .idle) ∧ (isFollower a = false → a.state =
    .disabled ∨ a.state = .idle) :=
  ⟨cmd 0x0501 [0x17800002, 1000, 1000, 1000, 0, 0x00010002, 0x00010002, 1], turn (moved (axis1 .idle) Loop.reset) (cmd 0x0501 [0x17800002, 1000, 1000, 1000, 0, 0x00010002, 0x00010002, 1]), fly (cmd 0x0501 [0x17800002, 1000, 1000, 1000, 0, 0x00010002, 0x00010002, 1]), axis1 .idle,
    by decide +kernel⟩

theorem witness_AxisCommands_3 : ∃ (e : Entry) (s : State) (r : InFlight) (a : Axis),
    let i := axisOf e
    let dest := moveTarget e a
    let d := wayTo a.pos dest
    s.mot.axes[axisOf e]? = some a ∧ Turn 0x0502 e s r ∧ moveOk e a = true ∧ isFollower a = false ∧ (a.state =
    .idle ∨ a.state = .moving) ∧ (limitsOn a = true → withinLimits a dest = true) ∧ travelOutside s i d d =
    false ∧ towardLimit s i (decide (0 < d)) (decide (d < 0)) = false :=
  ⟨cmd 0x0502 [0, 100, 0, 1000, 1000, 1000, 0], turn (moved (axis1 .idle) Loop.reset) (cmd 0x0502 [0, 100, 0, 1000, 1000, 1000, 0]), fly (cmd 0x0502 [0, 100, 0, 1000, 1000, 1000, 0]), axis1 .idle,
    by dsimp only; decide +kernel⟩

theorem witness_AxisCommands_4 : ∃ (e : Entry) (s : State) (r : InFlight) (a : Axis),
    s.mot.axes[axisOf e]? = some a ∧ Turn 0x0503 e s r ∧ rsvOk e [0xE0000000] = true ∧ isFollower a = false ∧
    a.state ≠ .disabled ∧ a.state ≠ .idle ∧ a.state = .stalled :=
  ⟨cmd 0x0503 [0], turn (moved (axis1 .stalled) Loop.reset) (cmd 0x0503 [0]), fly (cmd 0x0503 [0]), axis1 .stalled,
    by decide +kernel⟩

theorem witness_AxisCommands_5 : ∃ (e : Entry) (s : State) (r : InFlight) (a : Axis),
    s.mot.axes[axisOf e]? = some a ∧ Turn 0x0503 e s r ∧ rsvOk e [0xE0000000] = true ∧ isFollower a = false ∧
    a.state ≠ .disabled ∧ a.state ≠ .idle ∧ a.state ≠ .stalled :=
  ⟨cmd 0x0503 [0], turn (moved (axis1 .velocity) Loop.reset) (cmd 0x0503 [0]), fly (cmd 0x0503 [0]), axis1 .velocity,
    by decide +kernel⟩

theorem witness_AxisCommands_6 : ∃ (e : Entry) (s : State) (r : InFlight) (a : Axis),
    s.mot.axes[axisOf e]? = some a ∧ Turn 0x0504 e s r ∧ rsvOk e [0xF0000000, 0, allBits, allBits, allBits,
    allBits] = true ∧ isFollower a = false ∧ -(2 ^ 47 : Int) ≤ pqS e 2 ∧ pqS e 2 < pqS e 4 ∧ pqS e 4 < (2 ^ 47 :
    Int) ∧ (bitOf (pw e 0) 28 = true → pqS e 2 * 65536 ≤ a.pos ∧ a.pos ≤ pqS e 4 * 65536) :=
  ⟨cmd 0x0504 [0x10000000, 0, 0, 0, 100], turn (moved (axis1 .idle) Loop.reset) (cmd 0x0504 [0x10000000, 0, 0, 0, 100]), fly (cmd 0x0504 [0x10000000, 0, 0, 0, 100]), axis1 .idle,
    by decide +kernel⟩

theorem witness_AxisCommands_7 : ∃ (e : Entry) (s : State) (r : InFlight) (a : Axis),
    let i := axisOf e
    s.mot.axes[axisOf e]? = some a ∧ Turn 0x0505 e s r ∧ (∀ k ∈ linkGroup s i, homeOk e (axisAt s k) = true) ∧
    isFollower a = false ∧ (a.state = .idle ∨ (followersOf s i ≠ [] ∧ a.state ≠ .disabled ∧ a.state ≠ .stalled))
    ∧ (∀ k ∈ linkGroup s i, if (startHoming e (axisAt s k)).phase = 1 then fld (pw e 0) 26 2 = 1 ∨ limitActive
    (axisAt s k) (!bitOf (pw e 0) 28) = false else limitActive (axisAt s k) (bitOf (pw e 0) 28) = false) :=
  ⟨cmd 0x0505 [0x40000, 1000, 100, 1000], turn (moved (axis1 .idle) Loop.reset) (cmd 0x0505 [0x40000, 1000, 100, 1000]), fly (cmd 0x0505 [0x40000, 1000, 100, 1000]), axis1 .idle,
    by dsimp only; decide +kernel⟩

theorem witness_AxisCommands_8 : ∃ (e : Entry) (s : State) (r : InFlight) (a : Axis),
    let i := axisOf e
    let slot := fld (pw e 0) 0 4
    let ks := tableOf s slot
    s.mot.axes[axisOf e]? = some a ∧ Turn 0x0507 e s r ∧ rsvOk e [0xE000000F, 0xFFFF] = true ∧ isFollower a =
    false ∧ a.state = .idle ∧ ks ≠ [] ∧ tableSpeed ks ≤ a.cfg.vHard * 256 ∧ travelOutside s i (tableExtremes
    ks).1 (tableExtremes ks).2 = false ∧ towardLimit s i (decide (0 < (tableExtremes ks).2)) (decide
    ((tableExtremes ks).1 < 0)) = false :=
  ⟨cmd 0x0507 [0, 0], turn (withTable (moved (axis1 .idle) Loop.reset)) (cmd 0x0507 [0, 0]), fly (cmd 0x0507 [0, 0]), axis1 .idle,
    by dsimp only; decide +kernel⟩

theorem witness_AxisCommands_9 : ∃ (e : Entry) (s : State) (r : InFlight) (a : Axis),
    let i := axisOf e
    s.mot.axes[axisOf e]? = some a ∧ Turn 0x0508 e s r ∧ rsvOk e [0xE0000000, 0xFFFF1FFF] = true ∧ fld (pw e 1)
    16 16 ≤ 0x4000 ∧ 1 ≤ fld (pw e 1) 0 13 ∧ fld (pw e 1) 0 13 ≤ 4096 ∧ isFollower a = false ∧ a.state = .table
    ∧ fld (pw e 1) 16 16 * tableSpeed (tableOf s a.tslot) ≤ a.cfg.vHard * 256 * 4096 ∧ (fld (pw e 1) 16 16 = 0 ∨
    towardLimit s i (decide (0 < tableWay (tableOf s a.tslot) a.ttime)) (decide (tableWay (tableOf s a.tslot)
    a.ttime < 0)) = false) :=
  ⟨cmd 0x0508 [0, 0x00000001], turn (withTable (moved (axis1 .table) Loop.reset)) (cmd 0x0508 [0, 0x00000001]), fly (cmd 0x0508 [0, 0x00000001]), axis1 .table,
    by dsimp only; decide +kernel⟩

theorem witness_AxisCommands_10 : ∃ (e : Entry) (s : State) (r : InFlight) (a : Axis),
    let slot := fld (pw e 0) 0 4
    let n := (pw e 1).toNat
    let ks := readKnots n (hostDws s (pq e 2) (4 * n))
    s.mot.axes[axisOf e]? = some a ∧ Turn 0x0506 e s r ∧ rsvOk e [0xF, allBits, allBits, allBits] = true ∧ pq e
    2 % 16 = 0 ∧ 2 ≤ n ∧ n ≤ 1024 ∧ knotsElse s slot + n ≤ 4096 ∧ (servitor s = false → ∀ x ∈ s.mot.axes,
    x.state = .table → x.tslot ≠ slot) ∧ hostReadEnd s (pq e 2) (16 * n) = .ok ∧ knotsOk ks = true :=
  ⟨cmd 0x0506 [0, 2, 256], turn (mems (moved (axis1 .idle) Loop.reset) 256 [0, 0, 0, 0, 100, 0, 5, 0]) (cmd 0x0506 [0, 2, 256]), fly (cmd 0x0506 [0, 2, 256]), axis1 .idle,
    by dsimp only; decide +kernel⟩

theorem witness_AxisCommands_11 : ∃ (e : Entry) (s : State) (r : InFlight) (a : Axis),
    s.mot.axes[axisOf e]? = some a ∧ Turn 0x0509 e s r ∧ rsvOk e [0xE0000000, 0, allBits, allBits] = true ∧ pq e
    2 % 64 = 0 :=
  ⟨cmd 0x0509 [0, 0, 256], turn (moved (axis1 .idle) Loop.reset) (cmd 0x0509 [0, 0, 256]), fly (cmd 0x0509 [0, 0, 256]), axis1 .idle,
    by decide +kernel⟩

theorem witness_AxisEvents_1 : ∃ (i : Nat) (s : State) (a : Axis),
    i < 8 ∧ s.mot.axes[i]? = some a ∧ motionRuns s = true ∧ a.stopReq = none ∧ a.newMove = false ∧ a.homing =
    none ∧ (a.state = .disabled ∨ a.state = .idle ∨ a.state = .stalled) :=
  ⟨7, up, Axis.reset,
    by decide +kernel⟩

theorem witness_AxisEvents_2 : ∃ (i : Nat) (s : State) (a : Axis),
    let next := pathAt a.plan (a.planT + planStepLen)
    i < 8 ∧ s.mot.axes[i]? = some a ∧ motionRuns s = true ∧ a.stopReq = none ∧ a.newMove = false ∧ a.homing =
    none ∧ a.state = .moving ∧ next = none ∧ isFollower a = false :=
  ⟨0, moved { axis1 .idle with state := .moving } Loop.reset, { axis1 .idle with state := .moving },
    by dsimp only; decide +kernel⟩

theorem witness_AxisEvents_3 : ∃ (i : Nat) (s : State) (a : Axis) (k : _),
    let next := pathAt a.plan (a.planT + planStepLen)
    i < 8 ∧ s.mot.axes[i]? = some a ∧ motionRuns s = true ∧ a.stopReq = none ∧ a.newMove = false ∧ a.homing =
    none ∧ a.state = .moving ∧ next = some k :=
  ⟨0, moved { axis1 .idle with state := .moving, plan := [{ dur := 2 ^ 80, pos := 0, vel := 5, acc := 0, jerk := 0 }] } Loop.reset, { axis1 .idle with state := .moving, plan := [{ dur := 2 ^ 80, pos := 0, vel := 5, acc := 0, jerk := 0 }] }, segAt { dur := 2 ^ 80, pos := 0, vel := 5, acc := 0, jerk := 0 } (0 + planStepLen),
    by dsimp only; decide +kernel⟩

theorem witness_AxisEvents_4 : ∃ (i : Nat) (s : State) (a : Axis) (k : _) (h : _),
    let next := pathAt a.plan (a.planT + planStepLen)
    i < 8 ∧ s.mot.axes[i]? = some a ∧ motionRuns s = true ∧ a.stopReq = none ∧ a.newMove = false ∧ a.homing =
    some h ∧ a.state = .homing ∧ (h.phase = 1 ∨ h.phase = 3) ∧ h.aborted = false ∧ h.atSet = false ∧ next = some
    k :=
  ⟨0, moved { axis1 .idle with state := .homing, homing := some search1, plan := [{ dur := 2 ^ 80, pos := 0, vel := 5, acc := 0, jerk := 0 }] } Loop.reset, { axis1 .idle with state := .homing, homing := some search1, plan := [{ dur := 2 ^ 80, pos := 0, vel := 5, acc := 0, jerk := 0 }] }, segAt { dur := 2 ^ 80, pos := 0, vel := 5, acc := 0, jerk := 0 } (0 + planStepLen), search1,
    by dsimp only; decide +kernel⟩

theorem witness_AxisEvents_5 : ∃ (i : Nat) (s : State) (a : Axis),
    let ks := tableOf s a.tslot
    let at_ := a.ttime + rampK a.kfact a.kTarget a.kRate
    i < 8 ∧ s.mot.axes[i]? = some a ∧ motionRuns s = true ∧ a.stopReq = none ∧ a.newMove = false ∧ a.homing =
    none ∧ a.state = .table ∧ at_ < tableLen ks :=
  ⟨0, withTable (moved { axis1 .idle with state := .table, kTarget := 4096, kRate := 4096 } Loop.reset), { axis1 .idle with state := .table, kTarget := 4096, kRate := 4096 },
    by dsimp only; decide +kernel⟩

theorem witness_AxisEvents_6 : ∃ (i : Nat) (s : State) (a : Axis),
    let ks := tableOf s a.tslot
    let at_ := a.ttime + rampK a.kfact a.kTarget a.kRate
    i < 8 ∧ s.mot.axes[i]? = some a ∧ motionRuns s = true ∧ a.stopReq = none ∧ a.newMove = false ∧ a.homing =
    none ∧ a.state = .table ∧ tableLen ks ≤ at_ ∧ tableLen ks ≠ 0 ∧ a.tRepeat = 1 :=
  ⟨0, withTable (moved { axis1 .idle with state := .table, tRepeat := 1, ttime := 2 ^ 40 } Loop.reset), { axis1 .idle with state := .table, tRepeat := 1, ttime := 2 ^ 40 },
    by dsimp only; decide +kernel⟩

theorem witness_AxisEvents_7 : ∃ (i : Nat) (s : State) (a : Axis),
    i < 8 ∧ s.mot.axes[i]? = some a ∧ motionRuns s = true ∧ a.stopReq = none ∧ a.newMove = false ∧ a.homing =
    none ∧ a.state = .velocity ∧ limitsOn a = false ∧ (∀ l ∈ s.mot.loops, l.outDue = false) :=
  ⟨0, moved { axis1 .idle with state := .velocity, loopVel := some (-1) } Loop.reset, { axis1 .idle with state := .velocity, loopVel := some (-1) },
    by decide +kernel⟩

theorem witness_AxisEvents_8 : ∃ (i : Nat) (s : State) (a : Axis),
    i < 8 ∧ s.mot.axes[i]? = some a ∧ motionRuns s = true ∧ a.stopReq = none ∧ a.newMove = false ∧ a.homing =
    none ∧ a.state = .follower ∧ (axisAt s a.cfg.leader).state ≠ .follower ∧ (axisAt s a.cfg.leader).homing =
    none :=
  ⟨1, { up with mot := { up.mot with axes := axis1 .idle :: { axis1 .follower with cfg := { (axis1 .idle).cfg with leader := 0 } } :: List.replicate 6 Axis.reset } }, { axis1 .follower with cfg := { (axis1 .idle).cfg with leader := 0 } },
    by decide +kernel⟩

theorem witness_AxisEvents_9 : ∃ (i : Nat) (s : State) (a : Axis) (dec : _) (k : _),
    i < 8 ∧ s.mot.axes[i]? = some a ∧ motionRuns s = true ∧ a.stopReq = some dec ∧ a.state ≠ .follower ∧ pathAt
    (slowDown a dec).plan planStepLen = some k :=
  ⟨0, moved { axis1 .idle with state := .moving, vel := 2 ^ 30, stopReq := some 5000 } Loop.reset, { axis1 .idle with state := .moving, vel := 2 ^ 30, stopReq := some 5000 }, 5000, (pathAt (slowDown { axis1 .idle with state := .moving, vel := 2 ^ 30, stopReq := some 5000 } 5000).plan planStepLen).getD ⟨0, 0, 0⟩,
    by decide +kernel⟩

theorem witness_AxisEvents_10 : ∃ (i : Nat) (s : State) (a : Axis) (dec : _),
    i < 8 ∧ s.mot.axes[i]? = some a ∧ motionRuns s = true ∧ a.stopReq = some dec ∧ a.state ≠ .follower ∧ pathAt
    (slowDown a dec).plan planStepLen = none ∧ isFollower a = false :=
  ⟨0, moved { axis1 .idle with state := .moving, stopReq := some 5000 } Loop.reset, { axis1 .idle with state := .moving, stopReq := some 5000 }, 5000,
    by decide +kernel⟩

theorem witness_AxisEvents_11 : ∃ (i : Nat) (s : State) (a : Axis),
    i < 8 ∧ s.mot.axes[i]? = some a :=
  ⟨7, up, Axis.reset,
    by decide +kernel⟩

theorem witness_AxisEvents_12 : ∃ (i : Nat) (s : State) (a : Axis),
    i < 8 ∧ s.mot.axes[i]? = some a ∧ motionRuns s = true ∧ a.cfg.enable = true ∧ a.state ≠ .stalled ∧
    a.cfg.stallT * 100 ≤ a.boostFor :=
  ⟨0, moved { axis1 .idle with boostFor := 100 } Loop.reset, { axis1 .idle with boostFor := 100 },
    by decide +kernel⟩

theorem witness_AxisEvents_13 : ∃ (i : Nat) (s : State) (a : Axis),
    i < 8 ∧ s.mot.axes[i]? = some a ∧ motionRuns s = true ∧ a.cfg.enable = true ∧ a.vel = 0 ∧ a.cfg.holdDelay *
    100 ≤ a.restFor :=
  ⟨0, moved { axis1 .idle with restFor := 0 } Loop.reset, { axis1 .idle with restFor := 0 },
    by decide +kernel⟩

theorem witness_LoopsAndInputs_1 : ∃ (e : Entry) (s : State) (r : InFlight),
    let n := fld (pw e 0) 0 6
    let es := devEntries n (hostDws s (pq e 2) (3 * n))
    Turn 0x0601 e s r ∧ rsvOk e [0x3F, 0, allBits, allBits] = true ∧ pq e 2 % 4 = 0 ∧ 1 ≤ n ∧ n ≤ 32 ∧
    hostReadEnd s (pq e 2) (4 * (3 * n)) = .ok ∧ (∀ x ∈ es, devOk x = true ∧ (servitor s = true ∨ devInUse s
    (fld (rdw x 0) 27 5) = false)) :=
  ⟨cmd 0x0601 [1, 0, 256], turn (mems up 256 [0x10000]) (cmd 0x0601 [1, 0, 256]), fly (cmd 0x0601 [1, 0, 256]),
    by dsimp only; decide +kernel⟩

theorem witness_LoopsAndInputs_2 : ∃ (e : Entry) (s : State) (r : InFlight) (l : _),
    let d := hostDws s (pq e 2) 16
    let k := fld (rdw d 0) 27 5
    Turn 0x0602 e s r ∧ rsvOk e [0, 0, allBits, allBits] = true ∧ pq e 2 % 64 = 0 ∧ hostReadEnd s (pq e 2) 64 =
    .ok ∧ loopDescOk s { Loop.reset with desc := { dw := d } } = true ∧ s.mot.loops[k]? = some l ∧ (servitor s =
    true ∨ l.mode = .off) :=
  ⟨cmd 0x0602 [0, 0, 256], turn (mems (moved (axis1 .idle) Loop.reset) 256 loopDws) (cmd 0x0602 [0, 0, 256]), fly (cmd 0x0602 [0, 0, 256]), Loop.reset,
    by dsimp only; decide +kernel⟩

theorem witness_LoopsAndInputs_3 : ∃ (e : Entry) (s : State) (r : InFlight) (l : _),
    let k := fld (pw e 0) 27 5
    s.mot.loops[k]? = some l ∧ Turn 0x0603 e s r ∧ rsvOk e [0xF8000003, if fld (pw e 0) 0 2 = 1 then allBits
    else 0] = true ∧ fld (pw e 0) 0 2 ≠ 3 ∧ (fld (pw e 0) 0 2 ≠ 0 → slotLoaded l = true ∧ axisFree s l = true) ∧
    (fld (pw e 0) 0 2 = 0 → l.mode ≠ .faulted) :=
  ⟨cmd 0x0603 [1, 7], turn (moved (axis1 .idle) loop1) (cmd 0x0603 [1, 7]), fly (cmd 0x0603 [1, 7]), loop1,
    by dsimp only; decide +kernel⟩

theorem witness_LoopsAndInputs_4 : ∃ (e : Entry) (s : State) (r : InFlight) (l : _),
    let k := fld (pw e 0) 27 5
    let n := fld (pw e 0) 0 4 + 1
    let ps := tunePairs n (hostDws s (pq e 2) (2 * n))
    s.mot.loops[k]? = some l ∧ Turn 0x0604 e s r ∧ rsvOk e [0xF800000F, 0, allBits, allBits] = true ∧ pq e 2 % 8
    = 0 ∧ hostReadEnd s (pq e 2) (4 * (2 * n)) = .ok ∧ (∀ p ∈ ps, 2 ≤ p.1 ∧ p.1 ≤ 14) ∧ l.tune.length + n ≤ 32 :=
  ⟨cmd 0x0604 [1, 0, 256], turn (mems (moved (axis1 .idle) loop1) 256 [2, 0, 14, 1]) (cmd 0x0604 [1, 0, 256]), fly (cmd 0x0604 [1, 0, 256]), loop1,
    by dsimp only; decide +kernel⟩

theorem witness_LoopsAndInputs_5 : ∃ (e : Entry) (s : State) (r : InFlight) (l : _),
    let k := fld (pw e 0) 27 5
    s.mot.loops[k]? = some l ∧ Turn 0x0605 e s r ∧ rsvOk e [0xF8000000, allBits] = true :=
  ⟨cmd 0x0605 [0, 9], turn (moved (axis1 .idle) loop1) (cmd 0x0605 [0, 9]), fly (cmd 0x0605 [0, 9]), loop1,
    by dsimp only; decide +kernel⟩

theorem witness_LoopsAndInputs_6 : ∃ (e : Entry) (s : State) (r : InFlight) (l : _),
    let k := fld (pw e 0) 27 5
    s.mot.loops[k]? = some l ∧ Turn 0x0606 e s r ∧ rsvOk e [0xF8000000] = true :=
  ⟨cmd 0x0606 [0], turn (moved (axis1 .idle) loop1) (cmd 0x0606 [0]), fly (cmd 0x0606 [0]), loop1,
    by dsimp only; decide +kernel⟩

theorem witness_LoopsAndInputs_7 : ∃ (s : State),
    motionRuns s = true :=
  ⟨up,
    by decide +kernel⟩

theorem witness_LoopsAndInputs_8 : ∃ (dev : Nat) (s : State),
    let port := portOf s dev
    servitor s = false ∧ awake s = true ∧ s.pwr.saving = false ∧ s.par.state ≠ .failed ∧ (devKind s dev = 1 ∨
    devKind s dev = 2) ∧ midReads s port = true :=
  ⟨5, { up with mot := { up.mot with devs := [(5, [0x100000])], loops := [{ Loop.reset with desc := { dw := [0x1280000, 0x00800000] }, mode := .auto }, { Loop.reset with desc := { dw := [0x1280000, 0x00800000] }, mode := .auto }], adcRead := [0] } },
    by dsimp only; decide +kernel⟩

theorem witness_LoopsAndInputs_9 : ∃ (dev : Nat) (s : State) (k : _) (rest : _),
    let port := portOf s dev
    servitor s = false ∧ awake s = true ∧ s.pwr.saving = false ∧ s.par.state ≠ .failed ∧ devKind s dev = 3 ∧
    readsLeft s port = k :: rest ∧ lf (loopAt s k) 0 19 5 = dev :=
  ⟨5, { up with mot := { up.mot with devs := [(5, [0x300000])], loops := [{ Loop.reset with desc := { dw := [0x1280000, 0x00800000] }, mode := .auto }] } }, 0, ([] : List Nat),
    by dsimp only; decide +kernel⟩

theorem witness_LoopsAndInputs_10 : ∃ (dev : Nat) (s : State) (q : _) (rest : _),
    let port := portOf s dev
    servitor s = false ∧ awake s = true ∧ s.pwr.saving = false ∧ s.par.state ≠ .failed ∧ devKind s dev = 2 ∧
    midReads s port = false ∧ writesLeft s port = [] ∧ currentsLeft s port = q :: rest ∧ (axisAt s
    q.1).cfg.curDev = dev :=
  ⟨5, { up with mot := { up.mot with devs := [(5, [0x200000])], curQueue := [(0, 7)], axes := [{ axis1 .idle with cfg := { Axis.reset.cfg with curDev := 5 } }] } }, (0, 7), ([] : List (Nat × Nat)),
    by dsimp only; decide +kernel⟩

theorem witness_LoopsAndInputs_11 : ∃ (dev : Nat) (s : State) (k : _) (rest : _),
    let port := portOf s dev
    servitor s = false ∧ awake s = true ∧ s.pwr.saving = false ∧ s.par.state ≠ .failed ∧ devKind s dev = 1 ∧
    midReads s port = false ∧ writesLeft s port = k :: rest ∧ lf (loopAt s k) 0 6 5 = dev :=
  ⟨5, { up with mot := { up.mot with devs := [(5, [0x100000])], loops := [{ Loop.reset with desc := { dw := [0x140] }, outDue := true }] } }, 0, ([] : List Nat),
    by dsimp only; decide +kernel⟩

theorem witness_LoopsAndInputs_12 : ∃ (i : Nat) (s : State),
    i < 4 ∧ (∀ h, s.mot.ainHold = some h → h.1 = i → h.2 ≤ s.time.clk) :=
  ⟨3, up,
    by exact ⟨by decide, prop_of (by decide +kernel)⟩⟩

theorem witness_StepRunsCommand_1 : ∃ (c : Instr) (rest : List Instr) (s : State),
    s.pending = c :: rest :=
  ⟨.challengeLapse, [], { up with pending := [.challengeLapse] }, rfl⟩

theorem witness_StepRunsCommand_2 : ∃ (s : State),
    s.pending = [] :=
  ⟨up,
    by decide +kernel⟩

theorem witness_ResetState_47 : ∃ (k : _),
    k < 144 :=
  ⟨143,
    by decide +kernel⟩

theorem witness_TimeAndMemoryKept_1 : ∃ (s : State) (t : State),
    step s = .next t ∧ s.hostCanonical :=
  ⟨{ up with pending := [.challengeLapse] }, up, lapse_step, by decide +kernel⟩

theorem witness_TimeAndMemoryKept_2 : ∃ (s : State) (t : State),
    step s = .next t ∧ s.timeLegal :=
  ⟨{ up with pending := [.challengeLapse] }, up, lapse_step, by decide +kernel⟩

theorem witness_TimeAndMemoryKept_3 : ∃ (s : State) (t : State),
    step s = .next t ∧ s.bookingsInOrder :=
  ⟨{ up with pending := [.challengeLapse] }, up, lapse_step, by decide +kernel⟩

theorem witness_MailboxKept_1 : ∃ (s : State) (t : State),
    s.mailboxBounded ∧ step s = .next t :=
  ⟨{ up with pending := [.challengeLapse] }, up, by decide +kernel, lapse_step⟩

theorem witness_NumbersKept_1 : ∃ (s : State) (t : State),
    s.sized ∧ step s = .next t :=
  ⟨{ up with pending := [.challengeLapse] }, up, by decide +kernel, lapse_step⟩

theorem witness_QueueAndFuses_1 : ∃ (s : State) (t : State),
    step s = .next t :=
  ⟨{ up with pending := [.challengeLapse] }, up, lapse_step⟩

theorem witness_QueueAndFuses_3 : ∃ (s : State) (t : State) (c : Instr) (rest : List Instr),
    step s = .next t ∧ s.pending = c :: rest ∧ (∀ (e : Entry) (k : Option Nat), c ≠ .seal e k ∧ c ≠ .retire e k
    ∧ c ≠ .rollbackAdvance e k) :=
  ⟨{ up with pending := [.challengeLapse] }, up, .challengeLapse, [], lapse_step, rfl, fun _ _ => ⟨nofun, nofun, nofun⟩⟩

theorem witness_OffIsFinal_1 : ∃ (c : Instr) (s : State) (t : State),
    s.pwr.state = .off ∧ s.boot.state ≠ .starting ∧ c ≠ .powerOnReset ∧ c ≠ .resetN ∧ c ≠ .powerLoss ∧ exec c s
    = .next t :=
  ⟨.challengeLapse, inPower .off, inPower .off, rfl, by decide, nofun, nofun, nofun, rfl⟩

theorem witness_DebugRaisedOnlyByUnlock_1 : ∃ (c : Instr) (s : State) (t : State),
    (∀ e : Entry, c ≠ .debugUnlock e) ∧ exec c s = .next t :=
  ⟨.challengeLapse, up, up, nofun, lapse_exec⟩

theorem witness_CommonChecks_1 : ∃ (c : Instr) (op : Nat) (e : Entry) (s : State) (r : InFlight),
    mailboxOf c = some (op, e) ∧ opcodeOf e = op ∧ commitRecord s e = some r ∧ r.latch = .failed :=
  ⟨.jobClose (closing 0 .failed (up)).1, 0x0102, (closing 0 .failed (up)).1, (closing 0 .failed (up)).2.2, (closing 0 .failed (up)).2.1,
    by decide +kernel⟩

theorem witness_CommonChecks_2 : ∃ (c : Instr) (op : Nat) (e : Entry) (s : State) (r : InFlight),
    let header := roleReqOf e = 3 ∨ 30 ≤ ivOf e
    mailboxOf c = some (op, e) ∧ opcodeOf e = op ∧ commitRecord s e = some r ∧ r.latch ≠ .failed ∧ header :=
  ⟨.jobClose (closing 3 .gaffer (up)).1, 0x0102, (closing 3 .gaffer (up)).1, (closing 3 .gaffer (up)).2.2, (closing 3 .gaffer (up)).2.1,
    by dsimp only; decide +kernel⟩

theorem witness_CommonChecks_3 : ∃ (c : Instr) (op : Nat) (e : Entry) (s : State) (r : InFlight),
    let header := roleReqOf e = 3 ∨ 30 ≤ ivOf e
    let saving := s.pwr.state = .save ∨ s.pwr.state = .off
    mailboxOf c = some (op, e) ∧ opcodeOf e = op ∧ commitRecord s e = some r ∧ r.latch ≠ .failed ∧ ¬ header ∧
    saving :=
  ⟨.jobClose (closing 0 .gaffer (inPower .save)).1, 0x0102, (closing 0 .gaffer (inPower .save)).1, (closing 0 .gaffer (inPower .save)).2.2, (closing 0 .gaffer (inPower .save)).2.1,
    by dsimp only; decide +kernel⟩

theorem witness_CommonChecks_4 : ∃ (c : Instr) (op : Nat) (e : Entry) (s : State) (r : InFlight),
    let header := roleReqOf e = 3 ∨ 30 ≤ ivOf e
    let saving := s.pwr.state = .save ∨ s.pwr.state = .off
    let wrongRole := (roleReqOf e = 1 ∧ r.latch ≠ .gaffer) ∨ (roleReqOf e = 2 ∧ r.latch = .gaffer)
    mailboxOf c = some (op, e) ∧ opcodeOf e = op ∧ commitRecord s e = some r ∧ ¬ header ∧ ¬ saving ∧ r.latch ≠
    .failed ∧ wrongRole :=
  ⟨.jobClose (closing 1 .shadow (up)).1, 0x0102, (closing 1 .shadow (up)).1, (closing 1 .shadow (up)).2.2, (closing 1 .shadow (up)).2.1,
    by dsimp only; decide +kernel⟩

theorem witness_CommonChecks_5 : ∃ (c : Instr) (op : Nat) (e : Entry) (s : State) (r : InFlight),
    let header := roleReqOf e = 3 ∨ 30 ≤ ivOf e
    let saving := s.pwr.state = .save ∨ s.pwr.state = .off
    let wrongRole := (roleReqOf e = 1 ∧ r.latch ≠ .gaffer) ∨ (roleReqOf e = 2 ∧ r.latch = .gaffer)
    let changed := roleReqOf e ≠ 0 ∧ (r.latch ≠ s.par.state ∨ r.epoch.toNat ≠ s.par.epoch)
    mailboxOf c = some (op, e) ∧ opcodeOf e = op ∧ commitRecord s e = some r ∧ ¬ header ∧ ¬ saving ∧ r.latch ≠
    .failed ∧ ¬ wrongRole ∧ changed :=
  ⟨.jobClose (closing 1 .gaffer (paired .shadow)).1, 0x0102, (closing 1 .gaffer (paired .shadow)).1, (closing 1 .gaffer (paired .shadow)).2.2, (closing 1 .gaffer (paired .shadow)).2.1,
    by dsimp only; decide +kernel⟩

theorem witness_CommonChecks_6 : ∃ (c : Instr) (op : Nat) (e : Entry) (s : State) (r : InFlight),
    let query := op ∈ [0x0106, 0x010F, 0x0114, 0x0115, 0x0205, 0x0305, 0x0306, 0x0407, 0x0408, 0x0509, 0x0606, 0x0706, 0x0707, 0x0708, 0x0804, 0x0905, 0x0908, 0x090B, 0x0A03, 0x0A04, 0x0A06, 0x0A08]
    let header := roleReqOf e = 3 ∨ 30 ≤ ivOf e
    let saving := s.pwr.state = .save ∨ s.pwr.state = .off
    let wrongRole := (roleReqOf e = 1 ∧ r.latch ≠ .gaffer) ∨ (roleReqOf e = 2 ∧ r.latch = .gaffer)
    let changed := roleReqOf e ≠ 0 ∧ (r.latch ≠ s.par.state ∨ r.epoch.toNat ≠ s.par.epoch)
    let early := s.mem.ready = false ∧ ¬ query ∧ op / 256 ≠ 4 ∧ op / 256 ≠ 7 ∧ op / 256 ≠ 9 ∧ op ≠ 0x0112 ∧ op ≠ 0x0801
    mailboxOf c = some (op, e) ∧ opcodeOf e = op ∧ commitRecord s e = some r ∧ ¬ header ∧ ¬ saving ∧ r.latch ≠
    .failed ∧ ¬ wrongRole ∧ ¬ changed ∧ early :=
  ⟨.jobClose (closing 0 .gaffer ({ up with mem := { up.mem with ready := false } })).1, 0x0102, (closing 0 .gaffer ({ up with mem := { up.mem with ready := false } })).1, (closing 0 .gaffer ({ up with mem := { up.mem with ready := false } })).2.2, (closing 0 .gaffer ({ up with mem := { up.mem with ready := false } })).2.1,
    by dsimp only; decide +kernel⟩

theorem witness_CommonChecks_7 : ∃ (c : Instr) (op : Nat) (e : Entry) (s : State) (r : InFlight),
    let query := op ∈ [0x0106, 0x010F, 0x0114, 0x0115, 0x0205, 0x0305, 0x0306, 0x0407, 0x0408, 0x0509, 0x0606, 0x0706, 0x0707, 0x0708, 0x0804, 0x0905, 0x0908, 0x090B, 0x0A03, 0x0A04, 0x0A06, 0x0A08]
    let header := roleReqOf e = 3 ∨ 30 ≤ ivOf e
    let saving := s.pwr.state = .save ∨ s.pwr.state = .off
    let wrongRole := (roleReqOf e = 1 ∧ r.latch ≠ .gaffer) ∨ (roleReqOf e = 2 ∧ r.latch = .gaffer)
    let changed := roleReqOf e ≠ 0 ∧ (r.latch ≠ s.par.state ∨ r.epoch.toNat ≠ s.par.epoch)
    let early := s.mem.ready = false ∧ ¬ query ∧ op / 256 ≠ 4 ∧ op / 256 ≠ 7 ∧ op / 256 ≠ 9 ∧ op ≠ 0x0112 ∧ op ≠ 0x0801
    let gaffers := op = 0x0201 ∨ op = 0x0304 ∨ op = 0x0303 ∨ op = 0x010C ∨
      ((op / 256 = 5 ∨ op / 256 = 6) ∧ ¬ query ∧ op ≠ 0x0501 ∧ op ≠ 0x0506 ∧ op ≠ 0x0601 ∧ op ≠ 0x0602)
    mailboxOf c = some (op, e) ∧ opcodeOf e = op ∧ commitRecord s e = some r ∧ ¬ header ∧ ¬ saving ∧ r.latch ≠
    .failed ∧ ¬ wrongRole ∧ ¬ changed ∧ ¬ early ∧ gaffers ∧ s.par.enabled = true ∧ s.par.state ≠ .gaffer :=
  ⟨.lineReference (cmd 0x010C []), 0x010C, cmd 0x010C [], turn (paired .shadow) (cmd 0x010C []), fly (cmd 0x010C []),
    by dsimp only; decide +kernel⟩

theorem witness_CommandOrder_1 : ∃ (c : Instr) (op : Nat) (e : Entry) (s : State),
    mailboxOf c = some (op, e) ∧ commitRecord s e = none :=
  ⟨.jobClose (cmd 0x0102 []), 0x0102, cmd 0x0102 [], up,
    by decide +kernel⟩

theorem witness_CompletionEntry_2 : ∃ (r : InFlight),
    r.discard = true :=
  ⟨{ fly (cmd 0x0102 []) with discard := true },
    by decide +kernel⟩

theorem witness_CompletionEntry_3 : ∃ (s : State) (r : InFlight),
    r.discard = false ∧ s.hostCanonical :=
  ⟨up, fly (cmd 0x0102 []),
    by decide +kernel⟩

theorem witness_CompletionEntry_4 : ∃ (s : State) (r : InFlight) (a : _),
    let base := s.mbx.cqBase.toNat + 64 * s.mbx.cqIndex
    r.discard = false ∧ s.hostCanonical ∧ a < 2 ^ 64 ∧ ¬ inSpan base 64 a :=
  ⟨up, fly (cmd 0x0102 []), 64,
    by dsimp only; decide +kernel⟩

theorem witness_CommandBytes_1 : ∃ (c : Instr) (op : Nat) (e : Entry) (s : State) (t : State) (a : _),
    mailboxOf c = some (op, e) ∧ completesOthers c = false ∧ s.hostCanonical ∧ exec c s = .next t ∧ a < 2 ^ 64 ∧
    ¬ inSpan (s.mbx.cqBase.toNat + 64 * s.mbx.cqIndex) 64 a ∧ ¬ inSpan (bufferOf s c).1 (bufferOf s c).2 a :=
  by
  obtain ⟨t, ht⟩ := exec_next (.timeRead (cmd 0x0706 [])) (turn up (cmd 0x0706 []))
  exact ⟨.timeRead (cmd 0x0706 []), 0x0706, cmd 0x0706 [], turn up (cmd 0x0706 []), t, 64, by decide +kernel, by decide +kernel,
    by decide +kernel, ht, by decide +kernel, by decide +kernel, by decide +kernel⟩

theorem witness_HostMemoryOutsideRing_1 : ∃ (c : Instr) (s : State) (t : State) (a : _),
    (∀ tail ring stores, c ≠ .doorbell tail ring stores) ∧ s.hostCanonical ∧ s.mbx.cqIndex < 256 ∧ exec c s =
    .next t ∧ a < 2 ^ 64 ∧ ¬ inSpan s.mbx.cqBase.toNat 16384 a ∧ ¬ inSpan (bufferOf s c).1 (bufferOf s c).2 a :=
  ⟨.challengeLapse, up, up, 16384, nofun, by decide +kernel, by decide +kernel, lapse_exec, by decide +kernel, by decide +kernel, by decide +kernel⟩

theorem witness_HostMemoryOutsideRing_2 : ∃ (c : Instr) (s : State) (t : State),
    (∀ tail ring stores, c ≠ .doorbell tail ring stores) ∧ s.hostCanonical ∧ s.mbx.cqIndex < 256 ∧ exec c s =
    .next t ∧ mailboxOf c = none ∧ bufferOf s c = (0, 0) ∧ t.mbx.inFlight.length = s.mbx.inFlight.length :=
  ⟨.challengeLapse, up, up, nofun, by decide +kernel, by decide +kernel, lapse_exec, by decide +kernel, by decide +kernel, rfl⟩

theorem witness_RingEnable_1 : ∃ (s : State),
    s.boot.state = .running ∧ s.mbx.inFlight.length = 0 :=
  ⟨up,
    by decide +kernel⟩

theorem witness_RingEnable_2 : ∃ (s : State),
    (s.boot.state ≠ .running ∨ s.mbx.inFlight.length ≠ 0) :=
  ⟨State.reset,
    by decide +kernel⟩

theorem witness_RingEnable_3 : ∃ (s : State),
    hasRun s = true :=
  ⟨up,
    by decide +kernel⟩

theorem witness_RingEnable_4 : ∃ (s : State),
    hasRun s = false :=
  ⟨State.reset,
    by decide +kernel⟩

theorem witness_EjectorOrdinal_2 : ∃ (m : Nat) (q : Nat) (c : Nat) (i : Nat),
    m < 40 ∧ q < 4 ∧ c < 16640 ∧ i < 12 :=
  ⟨39, 3, 16639, 11,
    by decide +kernel⟩

theorem witness_EjectorOrdinal_3 : ∃ (k : Nat),
    k ≤ 31948799 :=
  ⟨31948799,
    by decide +kernel⟩

theorem witness_EjectorOrdinal_4 : ∃ (q : Nat) (c : Nat) (i : Nat) (q' : Nat) (c' : Nat) (i' : Nat),
    q < 4 ∧ c < 16640 ∧ i < 12 ∧ q' < 4 ∧ c' < 16640 ∧ i' < 12 :=
  ⟨3, 16639, 11, 3, 16639, 11,
    by decide +kernel⟩

theorem witness_SeamSetsState_1 : ∃ (span : Nat) (c : Nat) (e : Nat),
    span ≠ 0 ∧ c < 16640 ∧ e < 12 :=
  ⟨63, 16639, 11,
    by decide +kernel⟩

theorem witness_SeamSetsState_2 : ∃ (span : Nat) (c : Nat) (e : Nat),
    span ≠ 0 ∧ c < 16640 ∧ e < 12 :=
  ⟨63, 16639, 11,
    by decide +kernel⟩

theorem witness_SeamSetsState_3 : ∃ (span : Nat) (c : Nat) (e : Nat),
    span ≠ 0 ∧ c < 16640 ∧ e < 12 :=
  ⟨63, 16639, 11,
    by decide +kernel⟩

theorem witness_SeamSetsState_4 : ∃ (k : Nat) (span : Nat) (c : Nat) (e : Nat) (k' : Nat),
    span ≠ 0 ∧ c < 16640 ∧ e < 12 ∧ k' ≠ k :=
  ⟨0, 63, 16639, 11, 159,
    by decide +kernel⟩

theorem witness_SeamSetsState_6 : ∃ (k : Nat) (b : Int) (span : Nat) (r : Rec),
    mp r.m r.q = k ∧ r.b = b ∧ r.seam = span :=
  ⟨0, 51, 63, { sched 15 with seam := 63 },
    by decide +kernel⟩

theorem witness_RiceCode_1 : ∃ (k : Nat) (v : Nat),
    let q := v >>> k
    q < 12 :=
  ⟨2, 47,
    by dsimp only; decide +kernel⟩

theorem witness_RiceCode_2 : ∃ (k : Nat) (v : Nat),
    let q := v >>> k
    12 ≤ q :=
  ⟨2, 48,
    by dsimp only; decide +kernel⟩

theorem witness_RiceCode_4 : ∃ (w : Nat) (v : Nat),
    v < 2 ^ w :=
  ⟨8, 255,
    by decide +kernel⟩

theorem witness_BlockRoundTrip_1 : ∃ (b : Nat) (e : Nat) (k : Nat) (samples : List Nat),
    (b = 8 ∨ b = 2) ∧ e ≤ 7 ∧ k < 2 ^ kBits b ∧ samples.length = 256 ∧ (∀ v ∈ samples, v < 2 ^ b) :=
  ⟨8, 7, 7, List.replicate 256 255,
    by decide +kernel⟩

theorem witness_ClusterAssignment_1 : ∃ (r : Rec) (c : Nat) (level : Nat),
    r.seam = 0 ∧ (r.levels.map Prod.fst).Nodup ∧ (∀ l ∈ r.levels, l.1 < 16640 ∧ 1 ≤ l.2 ∧ l.2 ≤ 3) ∧
    (r.directRow < 12 ∨ r.directRow = 15) ∧ 1 ≤ r.refill ∧ -(2 ^ 63 : Int) ≤ r.b ∧ (c, level) ∈ r.levels ∧
    r.directRow = 15 :=
  ⟨sched 15, 0, 3,
    by decide +kernel⟩

theorem witness_ClusterAssignment_2 : ∃ (codes : Sparse Nat) (x : Csc) (r : Rec) (c : Nat) (level : Nat),
    let k := mp r.m r.q
    let free := fun (c e : Nat) => nfOf x k c e ≤ r.b
    let serves := fun (c e : Nat) => mapGet 0 codes (12 * clusterOf k c + e) = 0 ∧ free c e
    r.seam = 0 ∧ (r.levels.map Prod.fst).Nodup ∧ (∀ l ∈ r.levels, l.1 < 16640 ∧ 1 ≤ l.2 ∧ l.2 ≤ 3) ∧
    (r.directRow < 12 ∨ r.directRow = 15) ∧ 1 ≤ r.refill ∧ -(2 ^ 63 : Int) ≤ r.b ∧ (c, level) ∈ r.levels ∧
    r.directRow = 15 ∧ (∀ e, e < 12 → ¬ serves c e) :=
  ⟨(List.range 12).map fun i => (i, 1), State.reset.csc, sched 15, 0, 3,
    by dsimp only; decide +kernel⟩

theorem witness_ClusterAssignment_3 : ∃ (r : Rec) (c : Nat) (level : Nat),
    r.seam = 0 ∧ (r.levels.map Prod.fst).Nodup ∧ (∀ l ∈ r.levels, l.1 < 16640 ∧ 1 ≤ l.2 ∧ l.2 ≤ 3) ∧
    (r.directRow < 12 ∨ r.directRow = 15) ∧ 1 ≤ r.refill ∧ -(2 ^ 63 : Int) ≤ r.b ∧ (c, level) ∈ r.levels ∧
    r.directRow ≠ 15 :=
  ⟨sched 5, 0, 3,
    by decide +kernel⟩

theorem witness_ClusterAssignment_4 : ∃ (codes : Sparse Nat) (x : Csc) (r : Rec) (c : Nat) (level : Nat) (e : Nat),
    let p := planRec codes x r
    r.seam = 0 ∧ (r.levels.map Prod.fst).Nodup ∧ (∀ l ∈ r.levels, l.1 < 16640 ∧ 1 ≤ l.2 ∧ l.2 ≤ 3) ∧
    (r.directRow < 12 ∨ r.directRow = 15) ∧ 1 ≤ r.refill ∧ -(2 ^ 63 : Int) ≤ r.b ∧ (c, level) ∈ r.levels ∧ (c,
    e) ∈ p.picks :=
  ⟨[], State.reset.csc, sched 15, 0, 3, ((planRec [] State.reset.csc (sched 15)).picks.getD 0 (0, 0)).2,
    by dsimp only; decide +kernel⟩

theorem witness_ClusterAssignment_5 : ∃ (codes : Sparse Nat) (x : Csc) (r : Rec) (k' : Nat) (c : Nat) (e : Nat),
    let k := mp r.m r.q
    let p := planRec codes x r
    r.seam = 0 ∧ (r.levels.map Prod.fst).Nodup ∧ (∀ l ∈ r.levels, l.1 < 16640 ∧ 1 ≤ l.2 ∧ l.2 ≤ 3) ∧
    (r.directRow < 12 ∨ r.directRow = 15) ∧ 1 ≤ r.refill ∧ -(2 ^ 63 : Int) ≤ r.b ∧ c < 16640 ∧ e < 12 ∧ ¬ (k' =
    k ∧ (c, e) ∈ p.picks) :=
  ⟨[], State.reset.csc, sched 15, 159, 0, 11,
    by dsimp only; decide +kernel⟩

theorem witness_Frames (c : Instr) (s : State) : ∃ t, exec c s = .next t := exec_next c s

end Sys2Proof.Tests
end

section
/-! SUPPORT. What reset leaves (R7): the reset state field by field, and the invariants it meets. -/

namespace Sys2Proof.Machine

/-- At reset every dword of BAR0 but ID reads 0: what hardware owns is 0, and the rest does not respond yet (R7, R380). -/
theorem bar0Read_reset {off : Nat} (h : off ≠ 0) : bar0Read State.reset off = 0 := by
  have hrun : ¬ hasRun State.reset = true := by decide
  unfold bar0Read
  rw [if_neg h, if_neg hrun]
  repeat' split
  all_goals rfl

/-- At reset every next-free tick is the earliest one (R129). -/
theorem nfOf_reset (k c e : Nat) : nfOf State.reset.csc k c e = -(2 ^ 63 : Int) := rfl

/-- Settles O35: the reset state is read off field by field; each list of like things is a replicate of its reset element. -/
theorem resetState : Obligations.ResetState := by
  have hoff : ∀ off ∈ [0x4, 0x8, 0xC, 0x10, 0x14, 0x18, 0x100, 0x104, 0x108, 0x10C, 0x110, 0x118, 0x11C, 0x1000, 0x1004,
      0x1008, 0x100C, 0x1010, 0x1100, 0x1104, 0x1108, 0x1200], off ≠ 0 := by decide
  have henc : ∀ x ∈ State.reset.encs, x = Enc.reset := fun _ => List.eq_of_mem_replicate
  have hcue : ∀ x ∈ State.reset.cues, x = CueCh.reset := fun _ => List.eq_of_mem_replicate
  have hpulse : ∀ x ∈ State.reset.pulses, x = Pulse.reset := fun _ => List.eq_of_mem_replicate
  have haxis : ∀ x ∈ State.reset.mot.axes, x = Axis.reset := fun _ => List.eq_of_mem_replicate
  have hloop : ∀ x ∈ State.reset.mot.loops, x = Loop.reset := fun _ => List.eq_of_mem_replicate
  unfold Obligations.ResetState
  refine ⟨rfl, rfl, rfl, rfl, rfl, fun off h => bar0Read_reset (hoff off h), ?_⟩
  refine ⟨rfl, rfl, rfl, rfl, rfl, rfl, rfl, rfl, rfl, rfl, by decide, rfl, rfl, rfl, rfl, rfl, rfl, rfl, ?_⟩
  refine ⟨fun x h => ?_, rfl, rfl, rfl, rfl, rfl, rfl, rfl, rfl, rfl, fun x h => ?_, rfl, fun x h => ?_, nfOf_reset, ?_⟩
  · rw [henc x h]; exact ⟨rfl, rfl, rfl, rfl, rfl, rfl, rfl⟩
  · rw [hcue x h]; exact ⟨rfl, rfl, rfl⟩
  · rw [hpulse x h]; rfl
  refine ⟨fun _ _ => rfl, rfl, rfl, rfl, rfl, rfl, rfl, rfl, fun x h => ?_, fun x h => ?_⟩
  · rw [haxis x h]; rfl
  · rw [hloop x h]; rfl

/-- Settles O36: nothing is listed in host memory or booked, the time counter and the ring indices are 0, and every list of like
things is a replicate of its fixed number. -/
theorem resetKeepsInvariants : Obligations.ResetKeepsInvariants := by
  have hbook : State.reset.bookingsInOrder := ⟨.nil, .nil⟩
  have htime : State.reset.timeLegal := ⟨by decide, by decide, by decide, by decide, by decide, nofun⟩
  have hmbx : State.reset.mailboxBounded := by decide
  have hsized : State.reset.sized := by
    refine ⟨rfl, rfl, rfl, ?_, ?_, rfl, rfl, rfl, rfl, ?_⟩
    · exact (List.length_map ..).trans List.length_range
    · exact List.length_replicate
    · exact Nat.zero_le _
  exact ⟨rfl, hbook, htime, hmbx, hsized⟩

end Sys2Proof.Machine
end

section
/-! SUPPORT. Resets and boot: what each reset leaves, and what the steps of the boot leave alone. -/

namespace Sys2Proof.Machine

/-- A command whose next state has been worked out answers with what holds of that state. -/
theorem answers_of_eq {c : Instr} {s t u : State} {P : State → Prop} (hexec : exec c s = .next t) (htu : t = u) (hu : P u) :
    Answers c s P := ⟨u, htu ▸ hexec, hu⟩

/-! Frames of the boot's own steps: none of them touches BOOT_STATUS, the image or the power state. -/

@[simp] theorem setBoot_boot (s : State) (b : BootState) (cause : Nat) :
    (setBoot s b cause).boot = { s.boot with state := b, cause := cause } := by
  simp [setBoot]

@[simp] theorem setBoot_pwr (s : State) (b : BootState) (cause : Nat) : (setBoot s b cause).pwr = s.pwr := by
  simp [setBoot]

@[simp] theorem annealEnd_boot (s : State) (pass : Bool) : (annealEnd s pass).boot = s.boot := by
  cases pass <;> simp [annealEnd]

@[simp] theorem annealEnd_pwr (s : State) (pass : Bool) : (annealEnd s pass).pwr = s.pwr := by
  cases pass <;> simp [annealEnd]

@[simp] theorem bootAnneal_boot (s : State) (pass : Bool) : (bootAnneal s pass).boot = s.boot := by
  cases pass <;> simp [bootAnneal, raiseAnneal]

@[simp] theorem bootAnneal_pwr (s : State) (pass : Bool) : (bootAnneal s pass).pwr = s.pwr := by
  cases pass <;> simp [bootAnneal, raiseAnneal]

@[simp] theorem dropBoundary_boot (s : State) : (dropBoundary s).boot = s.boot := by
  unfold dropBoundary; split <;> rfl

@[simp] theorem dropBoundary_pwr (s : State) : (dropBoundary s).pwr = s.pwr := by
  unfold dropBoundary; split <;> rfl

@[simp] theorem refuseRole_boot (s : State) : (refuseRole s).boot = s.boot := by
  unfold refuseRole; split <;> simp

@[simp] theorem refuseRole_pwr (s : State) : (refuseRole s).pwr = s.pwr := by
  unfold refuseRole; split <;> simp

/-- The image area takes no part in whether it accepts an image (R383). -/
theorem acceptsImage_writeImage (s : State) (image : List Byte) : acceptsImage (writeImage s image) = acceptsImage s := by
  unfold writeImage; split <;> rfl

/-- An image written while the area accepts one stands over what was written before (R383). -/
theorem writeImage_image {s : State} (h : acceptsImage s = true) (image : List Byte) :
    (writeImage s image).boot.image = image ++ s.boot.image.drop image.length := by
  rw [writeImage, if_pos h]

/-- GO, where the area accepts an image, starts its verification (R381, R383). -/
theorem writeBootCtrl_go {s : State} {v : Dword} (hgo : bitOf v 31 = true) (h : acceptsImage s = true) :
    writeBootCtrl s v = setBoot { s with boot := { s.boot with imageLen := fld v 0 24 } } .verifying 0 :=
  if_pos ⟨hgo, h⟩

/-- BOOT_START_DONE in STARTING: the stepping is the chip's own, so the chip runs, PARKED, with the image's
version (R14, R383). -/
theorem exec_bootStartDone {s : State} (h : s.boot.state = .starting) :
    Answers .bootStartDone s (fun t => t.boot.state = .running ∧ t.boot.cause = 0 ∧ t.pwr.state = .parked ∧
      t.boot.fwVersion = imageDw s 2) := by
  have hid : fld idDw 8 8 = 0xB0 := by decide
  refine ⟨_, (if_pos h).trans (if_pos hid), ?_⟩
  dsimp only
  split <;> simp [lanesWait]

/-- BOOT_VERIFY_DONE in VERIFYING answers by the first failing check (R438). -/
theorem exec_bootVerifyDone {s : State} (h : s.boot.state = .verifying) :
    Answers .bootVerifyDone s (fun t =>
      (verifyCause s = none → t.boot.state = .starting ∧ t.boot.cause = 0) ∧
      (∀ c : Nat, verifyCause s = some c → t.boot.state = .refused ∧ t.boot.cause = c)) := by
  have hexec : exec .bootVerifyDone s = match verifyCause s with
      | some c => .next (setBoot s .refused c)
      | none => .next (setBoot s .starting 0) := if_pos h
  cases hc : verifyCause s with
  | none => exact ⟨_, hexec.trans (by rw [hc]), by simp⟩
  | some c => exact ⟨_, hexec.trans (by rw [hc]), by simp⟩

/-- An element taken from a list at an index below its length is in the list. -/
theorem getD_mod_mem {α : Type} (l : List α) (k : Nat) (d : α) (h : 0 < l.length) : l.getD (k % l.length) d ∈ l := by
  have hk := Nat.mod_lt k h
  rw [List.getD_eq_getElem _ _ hk]
  exact List.getElem_mem hk

/-- An endpoint reset changes the mailbox and takes one free value; the link comes up in a form R377 lists (R377, R379). -/
theorem exec_endpointReset (s : State) :
    Answers .endpointReset s (fun t =>
      t.mbx.enable = false ∧ (∀ r ∈ t.mbx.inFlight, r.discard = true) ∧
      t.mbx.inFlight.map (fun r => r.entry) = s.mbx.inFlight.map (fun r => r.entry) ∧
      t = { s with mbx := t.mbx, free := t.free } ∧
      t.mbx.pcieWidth ∈ [4, 8, 16] ∧ t.mbx.pcieMts ∈ [2500, 5000, 8000, 16000, 32000] ∧
      t.mbx.maxPayload ∈ [128, 256, 512] ∧ t.mbx.maxRead ∈ [128, 256, 512, 1024, 2048, 4096]) := by
  refine ⟨_, rfl, rfl, ?_, ?_, rfl, getD_mod_mem [4, 8, 16] _ _ (by decide),
    getD_mod_mem [2500, 5000, 8000, 16000, 32000] _ _ (by decide), getD_mod_mem [128, 256, 512] _ _ (by decide),
    getD_mod_mem [128, 256, 512, 1024, 2048, 4096] _ _ (by decide)⟩
  · intro r hr
    obtain ⟨r', -, rfl⟩ := List.mem_map.mp hr
    rfl
  · exact List.map_map ..

/-- Settles O1: a reset of the whole chip is `chipReset`, or `holdReset` while the chip is held; the endpoint's own reset and the
boot's later steps have their lemmas above. -/
theorem resetAndBoot : Obligations.ResetAndBoot := by
  intro s afresh
  have hchip : afresh false (chipReset s) := ⟨rfl, rfl, rfl, rfl, rfl, rfl, rfl, rfl, rfl, rfl⟩
  have hheld : afresh true (holdReset s) := ⟨rfl, rfl, rfl, rfl, rfl, rfl, rfl, rfl, rfl, rfl⟩
  refine ⟨⟨_, rfl, hchip⟩, ?_, ⟨_, rfl, hheld⟩, ?_, ?_, exec_endpointReset s, ?_, exec_bootVerifyDone,
    exec_bootStartDone⟩
  · cases hr : s.pins.resetHeld with
    | false => exact answers_of_eq rfl (if_neg (by simp [hr])) hchip
    | true => exact answers_of_eq rfl (if_pos hr) hheld
  · intro v hkey hoff hr
    exact answers_of_eq rfl (if_pos ⟨hkey, hoff, by simp [hr]⟩) hchip
  · intro v h
    refine congrArg Host.Outcome.next (if_neg ?_)
    rintro ⟨hkey, hoff, hr⟩
    exact h.elim (· hkey) (·.elim hoff hr)
  · intro v image hacc hgo
    have hexec := writeBootCtrl_go hgo ((acceptsImage_writeImage s image).trans hacc)
    exact answers_of_eq rfl hexec (by simp [writeImage_image hacc])

end Sys2Proof.Machine
end

section
/-! SUPPORT. The quench and observation commands: what their checks and their tables of bits come to. -/

namespace Sys2Proof.Machine

/-- At its turn, a command whose row makes checks, all of which pass, does what stands behind them. -/
theorem command_checked {op : Nat} {e : Entry} {s : State} {r : InFlight} (h : Turn op e s r)
    {checks : State → List (Bool × Nat)} (hc : (checks s).all (fun c => !c.1) = true) (body : State → Reply) :
    command [op] e (fun _ u => checked u (checks u) body) s = settle s r (body s) := by
  rw [command_turn h, checked_pass hc]

/-- A payload with its reserved fields 0 and its numbers in range is in form. -/
theorem inForm {rsv : Bool} {bad : Prop} [Decidable bad] (hrsv : rsv = true) (hbad : ¬ bad) : (!rsv || decide bad) = false := by
  simp [hrsv, hbad]

/-- The only check of a row passes. -/
theorem check_passes {fails : Bool} {st : Nat} (h : fails = false) : [(fails, st)].all (fun c => !c.1) = true := by
  simp [h]

/-- Every bit of a field that is 0 is clear. -/
theorem bitOf_of_fld_zero {n : Nat} {w : BitVec n} {lo len : Nat} (h : fld w lo len = 0) {k : Nat} (hk : k < len) :
    bitOf w (lo + k) = false := by
  have hbit : (w.toNat / 2 ^ lo % 2 ^ len).testBit k = w.toNat.testBit (lo + k) := by
    rw [Nat.testBit_mod_two_pow, Nat.testBit_div_two_pow, decide_eq_true hk, Bool.true_and, Nat.add_comm]
  calc bitOf w (lo + k) = w.toNat.testBit (lo + k) := rfl
    _ = (fld w lo len).testBit k := hbit.symm
    _ = false := by rw [h, Nat.zero_testBit]

/-- A one-dword item of a number. -/
theorem it_natCast (n : Nat) : it (n : Int) = [BitVec.ofNat 32 n] := by
  rw [it, BitVec.ofInt_natCast]

theorem hostBytes_getD (s : State) (a : Nat) {n i : Nat} (h : i < n) :
    (hostBytes s a n).getD i 0 = hostByte s ((a + i) % 2 ^ 64) := by
  simp [hostBytes, h]

/-- The codes of a bitmap in host memory: those below 4,096 whose bit is set (R454). -/
theorem mem_bitmapCodes (s : State) (a c : Nat) :
    c ∈ bitmapCodes (hostBytes s a 512) ↔ c < 4096 ∧ (hostByte s ((a + c / 8) % 2 ^ 64)).getLsbD (c % 8) = true := by
  rw [bitmapCodes, List.mem_filter, List.mem_range]
  refine and_congr_right fun hc => ?_
  rw [hostBytes_getD s a (by omega)]

/-- The counters after a clear: those outside the range as they were, and those inside it that were counted in the same TIME tick,
at 1 (R6, R463). -/
theorem mem_clearCounters (s : State) (first n : Nat) (kv : Nat × Nat) :
    kv ∈ (clearCounters s first n).obs.counters ↔
      (kv ∈ s.obs.counters ∧ ¬ (first ≤ kv.1 ∧ kv.1 < first + n)) ∨
      (kv.2 = 1 ∧ kv.1 ∈ freshCounters s ∧ (first ≤ kv.1 ∧ kv.1 < first + n) ∧
        ∃ v, (kv.1, v) ∈ s.obs.counters) := by
  obtain ⟨k, v⟩ := kv
  simp only [clearCounters, List.mem_filterMap]
  constructor
  · rintro ⟨⟨k', v'⟩, hmem, hkept⟩
    split at hkept
    · next hout =>
      cases hkept
      rw [Bool.not_eq_true', decide_eq_false_iff_not] at hout
      exact .inl ⟨hmem, hout⟩
    · next hin =>
      rw [Bool.not_eq_true', decide_eq_false_iff_not, not_not] at hin
      split at hkept
      · next hfresh =>
        cases hkept
        exact .inr ⟨rfl, List.contains_iff_mem.mp hfresh, hin, v', hmem⟩
      · cases hkept
  · rintro (⟨hmem, hout⟩ | ⟨rfl, hfresh, hin, v', hmem⟩)
    · exact ⟨(k, v), hmem, by simp [hout]⟩
    · exact ⟨(k, v'), hmem, by simp [hin, hfresh]⟩

/-- A clear re-arms COUNT_SAT of the counters in its range (R463). -/
theorem mem_saturated_clearCounters (s : State) (first n k : Nat) :
    k ∈ (clearCounters s first n).obs.saturated ↔ k ∈ s.obs.saturated ∧ ¬ (first ≤ k ∧ k < first + n) := by
  simp only [clearCounters, List.mem_filter, Bool.not_eq_true', decide_eq_false_iff_not]

/-- A QUENCH_ARM that disarms, in form, selects nothing: its fields from bit 28 are 0 (R454). -/
theorem armFormatOk_disarm {e : Entry} (hform : armFormatOk e = true) (hdis : bitOf (pw e 0) 0 = true) :
    bitOf (pw e 0) 31 = false ∧ bitOf (pw e 0) 30 = false ∧ bitOf (pw e 0) 29 = false ∧ bitOf (pw e 0) 28 = false := by
  have hfld : fld (pw e 0) 28 4 = 0 := by
    simp only [armFormatOk, Bool.and_eq_true, hdis, Bool.not_true, Bool.false_or, beq_iff_eq] at hform
    exact hform.2
  exact ⟨bitOf_of_fld_zero hfld (k := 3) (by decide), bitOf_of_fld_zero hfld (k := 2) (by decide),
    bitOf_of_fld_zero hfld (k := 1) (by decide), bitOf_of_fld_zero hfld (k := 0) (by decide)⟩

/-! Each command at its turn, its payload in form. -/

theorem exec_quenchArm {e : Entry} {s : State} {r : InFlight} (hT : Turn 0x0A01 e s r) (hdis : bitOf (pw e 0) 0 = false)
    (hform : armFormatOk e = true) (htime : bitOf (pw e 0) 30 = true → laterThanNow s (armTime e).1 (armTime e).2 = true)
    (hread : bitOf (pw e 0) 29 = true → hostReadEnd s (pq e 4) 512 = .ok) :
    exec (.quenchArm e) s = .next (finish (armWith s e true) r stOk []) := by
  refine (if_neg (by simp [hdis])).trans (congrArg Host.Outcome.next (command_checked hT ?_ _))
  have h30 : (bitOf (pw e 0) 30 && !laterThanNow s (armTime e).1 (armTime e).2) = false := by
    cases h : bitOf (pw e 0) 30 <;> simp [h, htime]
  have h29 : (bitOf (pw e 0) 29 && hostReadEnd s (pq e 4) 512 != .ok) = false := by
    cases h : bitOf (pw e 0) 29 <;> simp [h, hread]
  simp [hform, h30, h29]

theorem exec_quenchDisarm {e : Entry} {s : State} {r : InFlight} (hT : Turn 0x0A01 e s r) (hdis : bitOf (pw e 0) 0 = true)
    (hform : armFormatOk e = true) : exec (.quenchDisarm e) s = .next (finish (armWith s e false) r stOk []) := by
  refine (if_pos hdis).trans (congrArg Host.Outcome.next ((command_turn hT _).trans ?_))
  rw [if_pos hform, settle_okWith]

theorem exec_eventRead {e : Entry} {s : State} {r : InFlight} (hT : Turn 0x0A04 e s r)
    (hrsv : rsvOk e [allBits, 0, allBits, allBits] = true) (hlo : 1 ≤ (pw e 0).toNat) (hhi : (pw e 0).toNat ≤ 1024) :
    exec (.eventRead e) s = .next (finish { s with
        obs := { s.obs with log := s.obs.log.drop (pw e 0).toNat,
                            nRead := s.obs.nRead + (s.obs.log.take (pw e 0).toNat).length },
        host := (hostPutDws s (pq e 2) ((s.obs.log.take (pw e 0).toNat).flatMap eventDws)).host } r stOk
      (it (s.obs.log.take (pw e 0).toNat).length ++ it (s.obs.log.drop (pw e 0).toNat).length)) :=
  congrArg Host.Outcome.next (command_checked hT (check_passes (inForm hrsv (by omega))) _)

theorem exec_counterRead {e : Entry} {s : State} {r : InFlight} (hT : Turn 0x0A06 e s r)
    (hrsv : rsvOk e [allBits, allBits, allBits, allBits] = true) (hlo : 1 ≤ (pw e 1).toNat) (hhi : (pw e 1).toNat ≤ 4096)
    (hsome : countersIn (pw e 0).toNat (pw e 1).toNat ≠ []) :
    exec (.counterRead e) s = .next (finish { s with
        obs := { s.obs with paceMin :=
          if (pw e 0).toNat ≤ paceMinNum ∧ paceMinNum < (pw e 0).toNat + (pw e 1).toNat then 0xFFFF else s.obs.paceMin },
        host := (hostPutDws s (pq e 2) ((List.range (pw e 1).toNat).map fun i =>
          if counterWidth ((pw e 0).toNat + i) = 0 then 0
          else BitVec.ofNat 32 (counterValue s ((pw e 0).toNat + i)))).host } r stOk []) := by
  have hempty : (countersIn (pw e 0).toNat (pw e 1).toNat).isEmpty = false := List.isEmpty_eq_false_iff.mpr hsome
  have hpass := Bool.or_eq_false_iff.mpr ⟨inForm hrsv (by omega : ¬ ((pw e 1).toNat < 1 ∨ 4096 < (pw e 1).toNat)), hempty⟩
  refine congrArg Host.Outcome.next ((command_checked hT (check_passes hpass) _).trans ?_)
  simp only [decide_eq_true_eq]
  rfl

theorem exec_counterClear {e : Entry} {s : State} {r : InFlight} (hT : Turn 0x0A07 e s r)
    (hrsv : rsvOk e [allBits, allBits] = true) (hlo : 1 ≤ (pw e 1).toNat) (hhi : (pw e 1).toNat ≤ 53248) :
    exec (.counterClear e) s = .next (finish (clearCounters s (pw e 0).toNat (pw e 1).toNat) r stOk []) :=
  congrArg Host.Outcome.next (command_checked hT (check_passes (inForm hrsv (by omega))) _)

/-- EVENT_MASK: a code is off where its LOG bit is 0, and signals where its SIGNAL bit is 1 (R461). -/
theorem exec_eventMask {e : Entry} {s : State} {r : InFlight} (hT : Turn 0x0A05 e s r)
    (hrsv : rsvOk e [0, 0, allBits, allBits] = true) (halign : pq e 2 % 64 = 0) (hread : hostReadEnd s (pq e 2) 1024 = .ok) :
    exec (.eventMask e) s = .next (finish { s with obs := { s.obs with
        logOff := (List.range 4096).filter fun c => !(bitmapCodes (hostBytes s (pq e 2) 512)).contains c,
        signalOn := bitmapCodes (hostBytes s (pq e 2 + 512) 512) } } r stOk []) :=
  congrArg Host.Outcome.next (command_checked hT (by simp [hrsv, halign, hread]) _)

/-- Settles O3: each command passes its checks, and its effect is read off; a disarming payload selects nothing, the bitmaps are
read by `mem_bitmapCodes`, the cleared counters by `mem_clearCounters`. -/
theorem quenchAndObservation : Obligations.QuenchAndObservation := by
  intro e s r
  refine ⟨exec_quenchArm, ?_, ?_, ?_, ?_, ?_, exec_counterRead, ?_, ?_, rfl, fun hpin => if_pos hpin⟩
  · intro hT hdis hform
    obtain ⟨h31, h30, h29, h28⟩ := armFormatOk_disarm hform hdis
    rw [exec_quenchDisarm hT hdis hform, armWith, h31, h30, h29, h28]
    rfl
  · intro hT hrsv htrig
    refine congrArg Host.Outcome.next ((command_checked hT (by simp [hrsv]) _).trans ?_)
    rw [if_pos (by simpa using htrig), settle_okWith]
  · intro hT hrsv hvalid harmed
    refine congrArg Host.Outcome.next ((command_checked hT (by simp [hrsv, hvalid, harmed]) _).trans ?_)
    rw [it_natCast]
    rfl
  · intro hT hrsv hlo hhi
    rw [exec_eventRead hT hrsv hlo hhi, it_natCast, it_natCast, List.length_take, List.length_drop]
    rfl
  · intro hT hrsv halign hread
    refine ⟨_, _, exec_eventMask hT hrsv halign hread, fun c hc => ?_⟩
    simp [mem_bitmapCodes, hc]
  · intro hT hrsv hlo hhi
    refine ⟨_, exec_counterClear hT hrsv hlo hhi, rfl, ?_, ?_, ?_, ?_⟩
    · intro kv hkv
      rcases (mem_clearCounters ..).mp hkv with ⟨-, hout⟩ | ⟨hone, hfresh, -, -⟩
      · omega
      · exact .inr (.inr ⟨hone, hfresh⟩)
    · intro kv hkv hfresh hfirst hlast
      exact (mem_clearCounters ..).mpr (.inr ⟨rfl, hfresh, ⟨hfirst, hlast⟩, kv.2, hkv⟩)
    · intro kv hkv hout
      exact (mem_clearCounters ..).mpr (.inl ⟨hkv, by omega⟩)
    · intro k hk
      have hout := ((mem_saturated_clearCounters ..).mp hk).2
      omega
  · intro rails hT hrsv
    exact congrArg Host.Outcome.next (command_checked hT (by simp [hrsv]) _)

end Sys2Proof.Machine
end

section
/-! SUPPORT. PTP (R367 to R374): what a change of servo state and an offset do to the servo and the counter's rate, and what
a choice of master leaves. -/

namespace Sys2Proof.Machine

/-! A change of servo state. -/

@[simp] theorem setServo_ptp (s : State) (x : ServoState) : (setServo s x).ptp = { s.ptp with servo := x } := by
  unfold setServo
  split
  · next h => rw [← h]
  · simp

@[simp] theorem setServo_ptpx (s : State) (x : ServoState) : (setServo s x).ptpx = s.ptpx := by
  unfold setServo; split <;> simp

@[simp] theorem setServo_time (s : State) (x : ServoState) : (setServo s x).time = s.time := by
  unfold setServo; split <;> simp

@[simp] theorem startAcquiring_ptp (s : State) : (startAcquiring s).ptp =
    { s.ptp with integ := s.time.adj, inLock := 0, offStep := 0, servo := .acquiring } := by
  simp [startAcquiring]

/-! An offset. -/

/-- The lock counts of R372 change neither the counter nor integ nor the offset shown. -/
@[simp] theorem servoLock_frame (s : State) (o : Int) :
    (servoLock s o).time = s.time ∧ (servoLock s o).ptpx = s.ptpx ∧ (servoLock s o).ptp.integ = s.ptp.integ ∧
    (servoLock s o).ptp.lastOffset = s.ptp.lastOffset := by
  unfold servoLock
  dsimp only
  repeat' split
  all_goals simp

/-- A LOCKED servo is not stepped: the offset moves integ and the rate (R371). -/
theorem servoOffset_locked {s : State} (h : s.ptp.servo = .locked) (o : Int) :
    servoOffset s o = setAdj { s with ptp := { s.ptp with integ := clampI (servoSlew s.ptp.integ s.ptp.ki o) (-adjLim) adjLim } }
      (clampI (servoSlew (clampI (servoSlew s.ptp.integ s.ptp.ki o) (-adjLim) adjLim) s.ptp.kp o) (-adjLim) adjLim) :=
  if_neg fun hstep => hstep.2 h

/-- `t` is what the offset `o` makes of a LOCKED servo in `s`: integ and the rate slewed in 64-bit arithmetic (R371). -/
def Slewed (s : State) (o : Int) (t : State) : Prop :=
  t.ptp.lastOffset = o ∧ t.ptp.integ = clampI (servoSlew s.ptp.integ s.ptp.ki o) (-adjLim) adjLim ∧
  t.time = { s.time with marks := t.time.marks
                         adj := clampI (servoSlew (clampI (servoSlew s.ptp.integ s.ptp.ki o) (-adjLim) adjLim) s.ptp.kp o)
                           (-adjLim) adjLim }

theorem takeOffset_locked {s : State} (h : s.ptp.servo = .locked) (o : Int) :
    Slewed s o (takeOffset s o) ∧ (takeOffset s o).ptpx = s.ptpx := by
  have hidle : ¬ (s.ptp.servo = .free ∨ s.ptp.servo = .holdover) := by simp [h]
  have hlocked : (count { s with ptp := { s.ptp with lastOffset := o } } (cnum 9 1)).ptp.servo = .locked := by simp [h]
  simp only [takeOffset, if_neg hidle, servoOffset_locked hlocked]
  simp [Slewed, setAdj, markTime]

/-- A completed Sync reaches a LOCKED servo as its offset, and waits for nothing more (R371). -/
theorem syncDone_locked {s : State} (h : s.ptp.servo = .locked) (rx origin : Ns16) :
    Slewed s (offsetOf s rx (origin + s.ptp.asym * 256)) (syncDone s rx origin) ∧
    (syncDone s rx origin).ptpx.pendingSync = none := by
  obtain ⟨hslew, hptpx⟩ := takeOffset_locked
    (s := { s with ptpx := { s.ptpx with pendingSync := none, syncRx := rx, syncOrigin := origin + s.ptp.asym * 256 } })
    h (offsetOf s rx (origin + s.ptp.asym * 256))
  exact ⟨hslew, congrArg PtpX.pendingSync hptpx⟩

/-! HOLDOVER and the choice of a master. -/

/-- Entering HOLDOVER puts a at integ and keeps the parent (R372). -/
theorem holdover_enters {s : State} (h : s.ptp.servo ≠ .holdover) :
    (holdover s).ptp = { s.ptp with servo := .holdover } ∧ (holdover s).time.adj = clampI s.ptp.integ (-8000000) 8000000 := by
  simp [holdover, if_neg h, setAdj, adjLim]

/-- With no foreign master left the parent is gone and the servo holds over (R372). -/
theorem choose_none {s : State} (h : bestForeign s.ptpx.foreign = none) :
    choose s = holdover { s with ptp := { s.ptp with parent := none, grandmaster := none } } := by
  simp [choose, h]

/-- The best foreign master becomes the parent; a servo that had this parent stays as it is, another starts acquiring, but for a
FREE one that had none (R368, R372, R373). -/
theorem choose_some {s : State} {p : PortId} {q : Quality} (h : bestForeign s.ptpx.foreign = some (p, q)) :
    (choose s).ptp.parent = some p ∧ (choose s).ptp.grandmaster = some q ∧
    (s.ptp.parent = some p → (choose s).ptp.servo = s.ptp.servo) ∧
    (s.ptp.parent ≠ some p → s.ptp.parent.isSome = true ∨ s.ptp.servo ≠ .free → (choose s).ptp.servo = .acquiring) := by
  simp only [choose, h]
  split
  · next hsame => simp [hsame]
  · next hsame =>
    split
    · next hfree => simp [hsame, hfree]
    · simp [hsame]

/-! Each command at its turn, and each message. -/

/-- PTP_CONFIG takes its payload and restarts the servo from FREE (R369). -/
theorem exec_ptpConfig {e : Entry} {s : State} {r : InFlight} (hT : Turn 0x0702 e s r) (hform : ptpFormatOk e = true) :
    Answers (.ptpConfig e) s (fun t => ∃ u : State, t = finish u r stOk [] ∧ u.ptp.servo = .free ∧
      u.ptp.role = fld (pw e 0) 30 2 ∧ u.ptp.port = fld (pw e 0) 29 1 ∧ u.ptp.domain = fld (pw e 0) 16 8 ∧
      u.ptp.logSync = signed 8 (fld (pw e 1) 24 8) ∧ u.ptp.asym = signed 32 (pw e 2).toNat ∧ u.ptp.parent = none ∧
      u.ptp.kp = s.ptp.kp ∧ u.ptp.ki = s.ptp.ki ∧ u.time = s.time) := by
  refine ⟨_, congrArg Host.Outcome.next (command_checked hT (by simp [hform]) _), _, rfl, ?_⟩
  simp

/-- PTP_STATUS answers twelve dwords and changes nothing (R374). -/
theorem exec_ptpStatus {e : Entry} {s : State} {r : InFlight} (hT : Turn 0x0707 e s r) (hrsv : rsvOk e [] = true) :
    ∃ res : List Dword, res.length = 12 ∧ exec (.ptpStatus e) s = .next (finish s r stOk res) := by
  refine ⟨_, ?_, congrArg Host.Outcome.next (command_checked hT (by simp [hrsv]) _)⟩
  have hparent : (portDws s.ptp.parent).length = 3 := by cases s.ptp.parent <;> rfl
  cases s.ptp.grandmaster <;> simp [hparent, it, itq, clockDws, dwordsOf]

/-- `s` once port `p` has announced the quality `q`, in place of what it announced before (R368). -/
def announced (s : State) (p : PortId) (q : Quality) : State :=
  { s with ptpx := { s.ptpx with foreign := (s.ptpx.foreign.filter fun x => x.1 != p) ++ [(p, q)] } }

/-- ANNOUNCE of the best foreign master, to a slave, selects it (R368, R373). -/
theorem exec_announce {s : State} {src : PtpFrom} {q : Quality} (utc : Int) (hrole : s.ptp.role = 1)
    (hhears : hears s s.ptp.port src = true)
    (hbest : bestForeign (announced s src.id q).ptpx.foreign = some (src.id, q)) :
    Answers (.announce s.ptp.port src q utc) s (fun t => t.ptp.parent = some src.id ∧ t.ptp.grandmaster = some q ∧
      t.ptp.utcOffset = utc ∧ (s.ptp.parent = some src.id → t.ptp.servo = s.ptp.servo) ∧
      (s.ptp.parent ≠ some src.id → s.ptp.parent.isSome = true ∨ s.ptp.servo ≠ .free → t.ptp.servo = .acquiring)) := by
  obtain ⟨hparent, hgm, hsame, hnew⟩ := choose_some hbest
  have hrole0 : s.ptp.role ≠ 0 := by omega
  have hexec : exec (.announce s.ptp.port src q utc) s = .next { choose (announced s src.id q) with
      ptp := { (choose (announced s src.id q)).ptp with utcOffset := utc } } :=
    (if_pos ⟨hrole0, hhears⟩).trans ((if_pos hrole).trans (if_pos hparent))
  exact ⟨_, hexec, hparent, hgm, rfl, hsame, hnew⟩

/-- `s` once the announcements of port `p` have lapsed (R373). -/
def lapsed (s : State) (p : PortId) : State :=
  { s with ptpx := { s.ptpx with foreign := s.ptpx.foreign.filter fun x => x.1 != p } }

/-- ANNOUNCE_TIMEOUT of a slave's parent, with no master left, ends in HOLDOVER with a at integ (R372, R373). -/
theorem exec_announceTimeout {s : State} {p : PortId} (hrole : s.ptp.role = 1) (hparent : s.ptp.parent = some p)
    (hnone : bestForeign (lapsed s p).ptpx.foreign = none) (hservo : s.ptp.servo ≠ .holdover) :
    Answers .announceTimeout s (fun t => t.ptp.parent = none ∧ t.ptp.servo = .holdover ∧
      t.time.adj = clampI s.ptp.integ (-8000000) 8000000) := by
  have hexec : exec .announceTimeout s = .next (choose (lapsed s p)) := (if_pos hrole).trans (by rw [hparent]; rfl)
  refine answers_of_eq hexec (choose_none hnone) ?_
  obtain ⟨hptp, hadj⟩ := holdover_enters
    (s := { lapsed s p with ptp := { (lapsed s p).ptp with parent := none, grandmaster := none } }) hservo
  exact ⟨by rw [hptp], by rw [hptp], hadj⟩

/-- A stamp in 1/65,536 ns is its seconds, its nanoseconds and its part of a nanosecond (R368). -/
theorem stamp_parts (t : Int) :
    0 ≤ t / 65536 % 1000000000 ∧ t / 65536 % 1000000000 < 1000000000 ∧ 0 ≤ t % 65536 ∧ t % 65536 < 65536 ∧
    (t / 65536000000000 * 1000000000 + t / 65536 % 1000000000) * 65536 + t % 65536 = t := by
  omega

/-- Settles O10: an offset's effect is `syncDone_locked`, a choice of master's `choose_some` and `choose_none`, a timeout's
`holdover_enters`; the rest is read off. -/
theorem ptpCommands : Obligations.PtpCommands := by
  intro e s r slew
  refine ⟨exec_ptpConfig, ?_, exec_ptpStatus, ?_, ?_, ?_, ?_, fun _ _ => exec_announce, ?_,
    fun _ => exec_announceTimeout, ?_, ?_⟩
  · intro hT hrsv hstepLo hstepHi hlockLo hlockHi
    exact congrArg Host.Outcome.next (command_checked hT (check_passes (inForm hrsv (by omega))) _)
  · intro port p origin rx corr hslave
    exact ⟨if_pos hslave, fun hlocked => ⟨_, if_pos hslave, (syncDone_locked hlocked _ _).1⟩⟩
  · intro port p origin corr t2 c hslave hpend hlocked
    obtain ⟨hslew, hdone⟩ := syncDone_locked hlocked t2 (origin + c + corr)
    exact ⟨_, (if_pos hslave).trans (by rw [hpend]), hdone, hslew⟩
  · intro txMac hrole hon hparent
    exact ⟨_, if_pos ⟨hrole, hon, hparent⟩, rfl, rfl⟩
  · intro port p rx corr t3 hslave htx
    exact (if_pos hslave).trans (by rw [htx])
  · intro hrole hparent hservo
    obtain ⟨hptp, hadj⟩ := holdover_enters hservo
    exact ⟨_, if_pos ⟨hrole, hparent⟩, by rw [hptp], hadj⟩
  · intro src rx corr hmaster hhears
    exact if_pos ⟨hmaster, hhears⟩
  · intro hmaster
    exact ⟨⟨_, if_pos hmaster, ⟨_, _, _, rfl, stamp_parts _⟩, rfl⟩, _, if_pos hmaster, rfl, rfl, rfl⟩

end Sys2Proof.Machine
end

section
/-! SUPPORT. The ejector ordinal (R38): a number in mixed radix, whose digits are module, plane-in-module, column and row. -/

namespace Sys2Proof.Machine

theorem ordinal_eq (m q c i : Nat) : ordinal m q c i = ((m * 4 + q) * 16640 + c) * 12 + i := rfl

/-- Ordinals are ordered as their leading digits, and where these agree as their rows. -/
theorem ordinal_lt_iff_row {m q c i m' q' c' i' : Nat} (hi : i < 12) (hi' : i' < 12) :
    ordinal m q c i < ordinal m' q' c' i' ↔ (m * 4 + q) * 16640 + c < (m' * 4 + q') * 16640 + c' ∨
      ((m * 4 + q) * 16640 + c = (m' * 4 + q') * 16640 + c' ∧ i < i') := by
  rw [ordinal_eq, ordinal_eq]
  omega

/-- The digits of `k`, taken off from the lowest. -/
theorem ordinal_digits (k : Nat) : ordinal (k / 12 / 16640 / 4) (k / 12 / 16640 % 4) (k / 12 % 16640) (k % 12) = k := by
  rw [ordinal_eq]
  omega

/-- Settles O49: a mixed-radix number is less than another where the highest digit that differs is less, and its digits are the
remainders of dividing by the radices in turn. -/
theorem ejectorOrdinal : Obligations.EjectorOrdinal := by
  refine ⟨ordinal_eq, ?_, ?_, ?_⟩
  · intro m q c i hm hq hc hi
    rw [ordinal_eq]
    omega
  · intro k hk
    exact ⟨k / 12 / 16640 / 4, _, _, _, by omega, Nat.mod_lt _ (by decide), Nat.mod_lt _ (by decide), Nat.mod_lt _ (by decide),
      ordinal_digits k⟩
  · intro m q c i m' q' c' i' hq hc hi hq' hc' hi'
    have hplane : m * 4 + q < m' * 4 + q' ↔ m < m' ∨ (m = m' ∧ q < q') := by omega
    have hcol : (m * 4 + q) * 16640 + c < (m' * 4 + q') * 16640 + c' ↔
        m * 4 + q < m' * 4 + q' ∨ (m * 4 + q = m' * 4 + q' ∧ c < c') := by omega
    rw [ordinal_lt_iff_row hi hi', hcol, hplane]
    omega

end Sys2Proof.Machine
end

section
/-! SUPPORT. What a step takes from the state it leads to: `Within F s t` says that `t` is `s` but for the places that the overlay
`F` takes from `t`. Overlays compose, so that the frame of an operation is put together from those of its parts. -/

set_option Elab.async false

namespace Sys2Proof.Machine

/-- `t` is `s` but for what `F` takes from `t`. -/
def Within (F : State → State → State) (s t : State) : Prop := t = F s t

/-- `F s t` is `s` with certain places of `t`, the same places whatever they hold. -/
structure Overlay (F : State → State → State) : Prop where
  self : ∀ t, F t t = t
  absorb : ∀ s t u, F (F s t) u = F s u

/-- `F` takes at least the places that `G` takes. -/
def Covers (F G : State → State → State) : Prop := ∀ s t, F s (G s t) = G s t

theorem Overlay.covers_self {F : State → State → State} (hF : Overlay F) : Covers F F := fun s t =>
  (hF.absorb s t (F s t)).symm.trans (hF.self (F s t))

namespace Within

variable {F G H : State → State → State} {s t u : State}

theorem refl (s : State) (hF : Overlay F := by exact ⟨fun _ => rfl, fun _ _ _ => rfl⟩) : Within F s s := (hF.self s).symm

/-- A frame holds of every overlay that takes more. -/
theorem widen (h : Within G s t) (hG : Covers F G := by exact fun _ _ => rfl) : Within F s t :=
  calc t = G s t := h
    _ = F s (G s t) := (hG s t).symm
    _ = F s t := by rw [← h]

/-- A step in `G` and one in `H` make a step in any overlay that takes what both take. -/
theorem andThen (h : Within G s t) (h' : Within H t u) (hF : Overlay F := by exact ⟨fun _ => rfl, fun _ _ _ => rfl⟩)
    (hG : Covers F G := by exact fun _ _ => rfl) (hH : Covers F H := by exact fun _ _ => rfl) : Within F s u := by
  have hst : t = F s t := h.widen hG
  calc u = F t u := h'.widen hH
    _ = F (F s t) u := by rw [← hst]
    _ = F s u := hF.absorb s t u

/-- The same where the first step writes places that `F` takes. -/
theorem after (h' : Within H t u) (h : Within F s t := by exact rfl)
    (hF : Overlay F := by exact ⟨fun _ => rfl, fun _ _ _ => rfl⟩) (hH : Covers F H := by exact fun _ _ => rfl) : Within F s u :=
  h.andThen h' hF hF.covers_self hH

/-- What `F` does not take is in `t` as it was in `s`. -/
theorem view (h : Within F s t) (hF : Overlay F := by exact ⟨fun _ => rfl, fun _ _ _ => rfl⟩) (u : State) : F t u = F s u :=
  (congrArg (F · u) h).trans (hF.absorb s t u)

/-- A view that does not read what `F` takes is the same before and after. -/
theorem untouched {α : Type} (h : Within F s t) (v : State → α) (hv : ∀ s t, v (F s t) = v s := by exact fun _ _ => rfl) :
    v t = v s := (congrArg v h).trans (hv s t)

/-- Where what `F` does not take is in `t` as it was in `s`, `t` is within `F` of `s`. -/
theorem of_view (h : F t s = F s s) (hF : Overlay F := by exact ⟨fun _ => rfl, fun _ _ _ => rfl⟩) : Within F s t :=
  calc t = F t t := (hF.self t).symm
    _ = F (F t s) t := (hF.absorb t s t).symm
    _ = F s t := by rw [h, hF.self]

theorem ite {c : Prop} [Decidable c] (ht : Within F s t) (hu : Within F s u) : Within F s (if c then t else u) :=
  iteInduction (fun _ => ht) fun _ => hu

theorem ite_fst {α : Type} {c : Prop} [Decidable c] {x y : State × α} (hx : Within F s x.1) (hy : Within F s y.1) :
    Within F s (if c then x else y).1 :=
  iteInduction (motive := fun x : State × α => Within F s x.1) (fun _ => hx) fun _ => hy

theorem foldl {α : Type} {g : State → α → State} (h : ∀ b a, Within F b (g b a)) (l : List α) (s : State)
    (hF : Overlay F := by exact ⟨fun _ => rfl, fun _ _ _ => rfl⟩) : Within F s (l.foldl g s) :=
  of_view (foldl_keeps (F · s) g (fun b a => (h b a).view hF s) l s) hF

end Within

/-! What leaves the chip, the pending bits, and the log. -/

theorem emit_within (s : State) (x : Sent) : Within (fun s t => { s with out := t.out }) s (emit s x) := rfl

theorem sendVector_within (s : State) (v : Nat) :
    Within (fun s t => { s with mbx := { s.mbx with pba := t.mbx.pba }, out := t.out }) s (sendVector s v) := by
  unfold sendVector
  split
  · rfl
  · exact .ite (emit_within s _).widen (.refl s)

/-- Counting takes the counters alone from its result. -/
theorem bump_within (s : State) (k n : Nat) : Within reported s (bump s k n).1 := rfl

theorem loseEntry_within (s : State) : Within reported s (loseEntry s) := rfl

theorem putEntry_within (s : State) (code : Nat) (cont : Bool) (pay : List Dword) :
    Within reported s (putEntry s code cont pay) := by
  unfold putEntry storeEntry
  dsimp only
  split
  · exact loseEntry_within s
  · rfl

theorem putRest_within (s : State) (code fuel : Nat) (pay : List Dword) : Within reported s (putRest s code fuel pay) := by
  induction fuel generalizing s pay with
  | zero => exact .refl s
  | succ fuel ih =>
    cases pay with
    | nil => exact .refl s
    | cons d ds => exact (putEntry_within s code true _).andThen (ih _ _)

theorem signalLog_within (s : State) : Within reported s (signalLog s) := .ite rfl (.after (sendVector_within _ 30))

theorem logOnly_within (s : State) (code : Nat) (pay : List Dword) : Within reported s (logOnly s code pay) := by
  have hput := (putEntry_within s code false (pay.take 10)).andThen (F := reported) (putRest_within _ code pay.length (pay.drop 10))
  exact .ite (.refl s) (.ite (hput.andThen (signalLog_within _)) hput)

theorem logEvent_within (s : State) (code : Nat) (pay : List Dword) : Within reported s (logEvent s code pay) :=
  .ite ((logOnly_within s code pay).andThen (logOnly_within _ _ _)) (logOnly_within s code pay)

theorem countLog_within (s : State) (k : Nat) : Within reported s (countLog s k) :=
  .ite ((bump_within s k 1).andThen (logEvent_within _ _ _)) (bump_within s k 1)

/-! CEASE and the quench trigger. -/

theorem startCease_within (s : State) (cause : Nat) (gs wait : List Nat) : Within reported s (startCease s cause gs wait) := rfl

theorem sendCease_within (s : State) (cause : Nat) : Within reported s (sendCease s cause) :=
  .ite (.ite (startCease_within s _ _ _) rfl) (startCease_within s _ _ _)

theorem takeTrigger_within (s : State) (source evCode evSeq : Nat) : Within reported s (takeTrigger s source evCode evSeq) :=
  .ite (.ite (.andThen (G := reported) (.after (countLog_within _ _)) (sendCease_within _ 3)) (.after (countLog_within _ _)))
    (.ite rfl (countLog_within s _))

theorem satTrigger_within (s0 s : State) : Within reported s (satTrigger s0 s) := .ite (takeTrigger_within s _ _ _) (.refl s)

theorem raise_within (s : State) (code : Nat) (pay : List Dword) : Within reported s (raise s code pay) :=
  ((logEvent_within s code pay).andThen (F := reported) (.ite (takeTrigger_within _ _ _ _) (.refl _))).andThen
    (satTrigger_within s _)

theorem raiseIf_within (b : Bool) (s : State) (code : Nat) (pay : List Dword) : Within reported s (raiseIf b s code pay) :=
  .ite (raise_within s code pay) (.refl s)

theorem count_within (s : State) (k : Nat) : Within reported s (count s k) :=
  (bump_within s k 1).andThen (raiseIf_within _ _ _ _)

/-! A command's completion. -/

theorem finish_within (s : State) (r : InFlight) (st : Nat) (res : List Dword) : Within completed s (finish s r st res) := by
  unfold finish
  dsimp only
  split
  · rfl
  · exact .after (sendVector_within _ _)

theorem finishOp_within (s : State) (op st : Nat) (res : List Dword) : Within completed s (finishOp s op st res) := by
  unfold finishOp
  split
  · exact finish_within s _ st res
  · exact .refl s

/-- `s` with what a command's completion and the events it raises may touch taken from `t`. -/
def answered (s t : State) : State :=
  { s with obs := { s.obs with log := t.obs.log, seq := t.obs.seq, lostNext := t.obs.lostNext, window := t.obs.window
                               signalDue := t.obs.signalDue, signalAt := t.obs.signalAt, counters := t.obs.counters
                               saturated := t.obs.saturated, freshAt := t.obs.freshAt, fresh := t.obs.fresh }
           quench := { s.quench with armed := t.quench.armed, valid := t.quench.valid, sources := t.quench.sources
                                     ceaseSent := t.quench.ceaseSent, qseq := t.quench.qseq, tqSec := t.quench.tqSec
                                     tqNsec := t.quench.tqNsec, evCode := t.quench.evCode, evSeq := t.quench.evSeq
                                     latchDue := t.quench.latchDue, tqClk := t.quench.tqClk }
           cease := t.cease
           pins := { s.pins with ceaseAck := t.pins.ceaseAck }
           mbx := { s.mbx with inFlight := t.mbx.inFlight, cqIndex := t.mbx.cqIndex, cqUnread := t.mbx.cqUnread
                               phase := t.mbx.phase, pba := t.mbx.pba }
           host := { s.host with bytes := t.host.bytes }
           out := t.out }

theorem answered_eq (s t : State) : answered s t = reported (completed s t) t := rfl

/-- The state that a reply leaves is within `F` of `s`. -/
def ReplyWithin (F : State → State → State) (s : State) : Reply → Prop
  | .done u _ _ => Within F s u
  | .waits => True
  | .runs u _ => Within F s u

namespace ReplyWithin

variable {F G : State → State → State} {s : State} {x y : Reply}

theorem widen (h : ReplyWithin G s x) (hG : Covers F G := by exact fun _ _ => rfl) : ReplyWithin F s x := by
  cases x with
  | done u st res => exact Within.widen h hG
  | waits => trivial
  | runs u note => exact Within.widen h hG

theorem keeps (h : ReplyWithin F s x) (hF : Overlay F) : ReplyKeeps (F · s) s x := by
  cases x with
  | done u st res => exact Within.view h hF s
  | waits => trivial
  | runs u note => exact Within.view h hF s

theorem reject (s : State) (st : Nat) (hF : Overlay F := by exact ⟨fun _ => rfl, fun _ _ _ => rfl⟩) :
    ReplyWithin F s (reject s st) := .refl s hF

theorem okWith {u : State} (h : Within F s u) (res : List Dword) : ReplyWithin F s (okWith u res) := h

theorem ite {c : Prop} [Decidable c] (hx : ReplyWithin F s x) (hy : ReplyWithin F s y) :
    ReplyWithin F s (if c then x else y) :=
  iteInduction (fun _ => hx) fun _ => hy

theorem checked {body : State → Reply} (h : ReplyWithin F s (body s)) (cs : List (Bool × Nat))
    (hF : Overlay F := by exact ⟨fun _ => rfl, fun _ _ _ => rfl⟩) : ReplyWithin F s (checked s cs body) := by
  unfold Machine.checked
  split
  · exact .reject s _ hF
  · exact h

theorem withRecord {body : List Dword → Reply} (h : ∀ ds, ReplyWithin F s (body ds)) (a n : Nat)
    (hF : Overlay F := by exact ⟨fun _ => rfl, fun _ _ _ => rfl⟩) : ReplyWithin F s (withRecord s a n body) :=
  .ite (h _) (.reject s _ hF)

end ReplyWithin

/-- A mailbox command is within `F` where its own effect is and `F` takes what completing a command touches. -/
theorem command_within {F : State → State → State} {ops : List Nat} {e : Entry} {body : InFlight → State → Reply}
    {s : State} (hb : ∀ r, ReplyWithin F s (body r s)) (hF : Overlay F := by exact ⟨fun _ => rfl, fun _ _ _ => rfl⟩)
    (hC : Covers F completed := by exact fun _ _ => rfl) : Within F s (command ops e body s) :=
  have hkeep (u v : State) (h : Within completed u v) : F v s = F u s := (h.widen hC).view hF s
  .of_view (command_keeps (F · s) (fun u r st res => hkeep _ _ (finish_within u r st res))
    (fun _ _ _ => hkeep _ _ rfl) (fun _ _ => hkeep _ _ rfl) rfl fun r => (hb r).keeps hF) hF

/-- The next state that an outcome names is within `F` of `s`. -/
def OutcomeWithin (F : State → State → State) (s : State) : Host.Outcome State Fault Refusal → Prop
  | .next t => Within F s t
  | .fault _ => True
  | .refused _ => True

theorem OutcomeWithin.ite {F : State → State → State} {s : State} {c : Prop} [Decidable c]
    {x y : Host.Outcome State Fault Refusal} (hx : OutcomeWithin F s x) (hy : OutcomeWithin F s y) :
    OutcomeWithin F s (if c then x else y) :=
  iteInduction (fun _ => hx) fun _ => hy

/-- A command's frame is the overlay of its outcome. -/
theorem changesOnly_of_within {F : State → State → State} {c : Instr} {s : State} (h : OutcomeWithin F s (exec c s)) :
    ChangesOnly [c] s (F s) := by
  intro c' hc t ht
  obtain rfl := List.mem_singleton.mp hc
  rw [ht] at h
  exact h

end Sys2Proof.Machine
end

section
/-! SUPPORT. The overlays of the operations on jobs, offsets and pages, and of the messages to the servitor. -/

set_option Elab.async false

namespace Sys2Proof.Machine

/-! The pacing timebase, once-per-job reports and placement phases (R172, R174). -/

/-- `s` with what bringing the pacing to an instant may touch taken from `t` (R167, R174). -/
def paced (s t : State) : State :=
  { s with ftb := { s.ftb with lamI := t.ftb.lamI, lamF := t.ftb.lamF, speed := t.ftb.speed, rate := t.ftb.rate
                               paceAt := t.ftb.paceAt }
           cues := t.cues }

/-- `s` with what sending phases may touch taken from `t`: what is sent, and TRIM_CLAMP, once per job (R172). -/
def phased (s t : State) : State := { reported s t with job := t.job }

theorem advancePacing_within (s : State) (t : Nat) : Within paced s (advancePacing s t) := .ite rfl (.refl s)

theorem noteDropped_within (s : State) : Within (fun s t => { s with
    tables := { s.tables with curveUpds := t.tables.curveUpds, maskUpds := t.tables.maskUpds } }) s (noteDropped s) := rfl

theorem onceJob_within (s : State) (key : Nat) : Within (fun s t => { s with job := t.job }) s (onceJob s key).2 := by
  unfold onceJob
  split
  · exact .refl s
  · split <;> rfl

theorem sendPhase_within (s : State) (m q i : Nat) (n : Int) : Within phased s (sendPhase s m q i n) := by
  unfold sendPhase
  dsimp only
  split
  · exact ((emit_within s _).andThen (F := phased) (onceJob_within _ onceTrim)).andThen (raiseIf_within _ _ _ _)
  · exact (emit_within s _).widen

theorem sendRows_within (s : State) (m q : Nat) (n : Int) : Within phased s (sendRows s m q n) :=
  .ite (.foldl (fun t i => sendPhase_within t m q i n) _ s) (.refl s)

theorem sendRowsFrom_within (s : State) (m q : Nat) (n : Int) : Within phased s (sendRowsFrom s m q n) :=
  .foldl (fun t k => sendRows_within t m q k) _ s

theorem sendModulePhases_within (s : State) (m : Nat) : Within phased s (sendModulePhases s m) :=
  .foldl (fun t q => sendRowsFrom_within t m q _) _ s

/-! Pages and messages (R50 to R52, R79, R80, R268). -/

/-- `s` with the list of pages taken from `t`. -/
def listed (s t : State) : State := { s with pages := { s.pages with list := t.pages.list } }

/-- `s` with what a message to the servitor touches taken from `t` (R268). -/
def told (s t : State) : State := { s with par := { s.par with mseqTx := t.par.mseqTx }, out := t.out }

/-- `s` with what resolving pages may touch taken from `t` (R51, R52). -/
def resolved (s t : State) : State :=
  { reported s t with
      pages := { s.pages with list := t.pages.list, lastEnd := t.pages.lastEnd }, par := { s.par with mseqTx := t.par.mseqTx } }

/-- `s` with what returning a band's planes touches taken from `t` (R244). -/
def bandReturned (s t : State) : State := { reported s t with asy := { s.asy with due := t.asy.due } }

/-- `s` with what removing a page may touch taken from `t` (R80). -/
def removed (s t : State) : State :=
  { reported s t with
      pages := { s.pages with list := t.pages.list }, slices := { s.slices with recs := t.slices.recs }
      asy := { s.asy with due := t.asy.due } }

/-- `s` with what cutting a page may touch taken from `t` (R80, R240). -/
def cutShort (s t : State) : State :=
  { reported s t with
      pages := { s.pages with list := t.pages.list }, slices := { s.slices with recs := t.slices.recs }
      asy := { s.asy with due := t.asy.due, cutMarks := t.asy.cutMarks } }

/-- `s` with what retiring pages touches taken from `t` (R79). -/
def retired (s t : State) : State := { reported s t with pages := { s.pages with list := t.pages.list } }

theorem setPage_within (s : State) (id : Dword) (f : Page → Page) : Within listed s (setPage s id f) := rfl

theorem tellServitor_within (s : State) (kind : Nat) (words : List Qword) : Within told s (tellServitor s kind words) :=
  .ite rfl (.refl s)

theorem tellPage_within (s : State) (p : Page) (state : Nat) : Within told s (tellPage s p state) := tellServitor_within s 3 _

theorem reportSkips_within (s : State) (p : Page) : Within reported s (reportSkips s p) := raiseIf_within _ s _ _

theorem resolvePage_within (s : State) (id : Dword) (line : Int) : Within resolved s (resolvePage s id line) := by
  unfold resolvePage
  dsimp only
  split
  · exact .refl s
  · next p _ =>
    exact (Within.after (F := resolved) (reportSkips_within _ p)).andThen (tellPage_within _ _ 1)

theorem resolveChained_within (s : State) (p : Page) : Within resolved s (resolveChained s p) :=
  (raiseIf_within _ s _ _).andThen (resolvePage_within _ _ _)

theorem resolveChain_within (s : State) (fuel : Nat) : Within resolved s (resolveChain s fuel) := by
  induction fuel generalizing s with
  | zero => exact .refl s
  | succ fuel ih =>
    unfold resolveChain
    split
    · exact .refl s
    · next p _ => exact .ite (.refl s) ((resolveChained_within s p).andThen (ih _))

theorem addDue_within (s : State) (plane : Nat) : Within bandReturned s (addDue s plane) := .ite (.refl s) rfl

theorem returnBand_within (s : State) (p : Page) (planes : List Nat) : Within bandReturned s (returnBand s p planes) :=
  .foldl (fun t k => (addDue_within t k).andThen (raise_within _ _ _)) planes s

theorem uncover_within (s : State) (p : Page) : Within removed s (uncover s p) := .ite rfl (.refl s)

theorem removePage_within (s : State) (p : Page) : Within removed s (removePage s p) := by
  unfold removePage
  dsimp only
  have hskips : ∀ f, Within removed s (reportSkips (uncover (setPage s p.id f) p) p) := fun f =>
    ((setPage_within s p.id f).andThen (F := removed) (uncover_within _ p)).andThen (reportSkips_within _ p)
  split
  · exact .ite ((hskips _).andThen (returnBand_within _ p _)) (hskips _)
  · exact hskips _

theorem markCuts_within (s : State) (p : Page) (cuts : List (Nat × Int)) : Within cutShort s (markCuts s p cuts) := by
  unfold markCuts
  split <;> rfl

theorem cutPage_within (s : State) (p : Page) (cuts : List (Nat × Int)) : Within cutShort s (cutPage s p cuts) := by
  unfold cutPage
  dsimp only
  split
  · exact (Within.after (F := cutShort) (markCuts_within _ p cuts)).andThen (returnBand_within _ p _)
  · exact .after (markCuts_within _ p cuts)

theorem retirePage_within (s : State) (p : Page) : Within retired s (retirePage s p) := by
  unfold retirePage
  exact (setPage_within s p.id _).andThen (raise_within _ _ _)

theorem retirePages_within (s : State) : Within retired s (retirePages s) := .foldl retirePage_within _ s

/-! Jobs (R395, R398). -/

/-- `s` with what JOB_CLOSE may touch taken from `t`, its completion included. -/
def jobEnded (s t : State) : State :=
  { answered s t with
      job := t.job, pages := { s.pages with list := t.pages.list, fireEnd := t.pages.fireEnd }
      tables := { s.tables with curveUpds := t.tables.curveUpds, maskUpds := t.tables.maskUpds }
      slices := { s.slices with recs := t.slices.recs }
      ftb := { s.ftb with
        lamI := t.ftb.lamI, lamF := t.ftb.lamF, speed := t.ftb.speed, rate := t.ftb.rate, paceAt := t.ftb.paceAt }
      cues := t.cues
      asy := { s.asy with setup := t.asy.setup, due := t.asy.due, variantsDue := t.asy.variantsDue } }

/-- `s` with what JOB_OPEN may touch taken from `t`, its completion and the end of the job before it included. -/
def jobOpened (s t : State) : State :=
  { answered s t with
      job := t.job, web := { s.web with dOff := t.web.dOff, xShift := t.web.xShift, screens := t.web.screens }
      pages := { s.pages with list := t.pages.list, fireEnd := t.pages.fireEnd }
      tables := { s.tables with curveUpds := t.tables.curveUpds, maskUpds := t.tables.maskUpds }
      slices := { s.slices with recs := t.slices.recs, handed := t.slices.handed }
      map := { s.map with gens := t.map.gens }
      ftb := { s.ftb with
        lamI := t.ftb.lamI, lamF := t.ftb.lamF, speed := t.ftb.speed, rate := t.ftb.rate, paceAt := t.ftb.paceAt }
      cues := t.cues, dxl := { s.dxl with released := t.dxl.released }
      asy := { s.asy with setup := t.asy.setup, due := t.asy.due, variantsDue := t.asy.variantsDue }
      par := { s.par with mseqTx := t.par.mseqTx } }

theorem boundPending_within (s : State) : Within jobOpened s (boundPending s) := by
  unfold boundPending
  split
  · exact .refl s
  · split
    · exact .refl s
    · exact .ite (.refl s) (.after (tellServitor_within _ 1 _))

/-- `s` with what settling the job that has been open until now touches taken from `t`: its pacing (R174), and which of its updates
have dropped out (R105). -/
def settledUp (s t : State) : State :=
  { paced s t with tables := { s.tables with curveUpds := t.tables.curveUpds, maskUpds := t.tables.maskUpds } }

theorem settledUp_within (s : State) : Within settledUp s (noteDropped (advancePacing s (nowUnits s))) :=
  (advancePacing_within s _).andThen (noteDropped_within _)

theorem closeJob_within (s : State) : Within jobEnded s (closeJob s) := by
  have hremoved (ps : List Page) : Within jobEnded s (ps.foldl removePage (noteDropped (advancePacing s (nowUnits s)))) :=
    (settledUp_within s).andThen (.foldl removePage_within ps _)
  unfold closeJob
  exact (Within.andThen (F := jobEnded) (hremoved _) (H := jobEnded) (by exact rfl)).andThen (retirePages_within _)

theorem startJob_within (s : State) (j : Job) (geo : List Dword) : Within jobOpened s (startJob s j geo) := by
  have hlink (t : State) (m : Nat) : Within phased t (sendModulePhases (emit t (.ctrl m (jobcfgWord t j m))) m) :=
    (emit_within t _).andThen (sendModulePhases_within _ m)
  unfold startJob
  exact ((Within.andThen (F := jobOpened) (settledUp_within s) (H := jobOpened) (by exact rfl)).andThen (F := jobOpened)
    (.foldl hlink _ _)).andThen (boundPending_within _)

end Sys2Proof.Machine
end

section
/-! SUPPORT. The overlays of page loading, admission and abort, and the frames of the commands of the job, the offsets and the
pages. -/

set_option Elab.async false

namespace Sys2Proof.Machine

/-! Loading (R57 to R65). -/

/-- `s` with what a load that moves on may touch taken from `t`: the page, the load, and PAGE_LOAD's completion (R58 to R65). -/
def loaded (s t : State) : State :=
  { completed s t with pages := { s.pages with list := t.pages.list, load := t.pages.load } }

theorem failLoad_within (s : State) (ld : Load) (st : Nat) (res : List Dword) : Within loaded s (failLoad s ld st res) :=
  .after (finishOp_within _ _ _ _)

theorem failBlock_within (s : State) (ld : Load) (st : Nat) : Within loaded s (failBlock s ld st) := failLoad_within s ld st _

theorem completeLoad_within (s : State) (ld : Load) : Within loaded s (completeLoad s ld) := by
  unfold completeLoad
  split
  · exact .refl s
  · exact .after (finishOp_within _ _ _ _)

theorem setLoad_within (s : State) (ld : Load) : Within loaded s (setLoad s ld) := rfl

theorem beginRow_within {s t : State} {ld : Load} {p : Page} {l : Layer} {addr len : Nat} {ld' : Option Load}
    (h : beginRow s ld p l addr len = (t, ld')) : Within loaded s t := by
  have hfst : Within loaded s (beginRow s ld p l addr len).1 :=
    .ite_fst (failBlock_within s ld _) (.ite_fst (failLoad_within s ld _ _)
      (.ite_fst (setPage_within s _ _).widen (setPage_within s _ _).widen))
  rwa [h] at hfst

theorem advanceLoad_within (s : State) (ld : Load) (p : Page) (fuel : Nat) : Within loaded s (advanceLoad s ld p fuel) := by
  induction fuel generalizing s ld with
  | zero => exact setLoad_within s ld
  | succ fuel ih =>
    unfold advanceLoad
    split
    · exact completeLoad_within s ld
    · refine .ite (ih s _) (.ite (setLoad_within s ld) (.ite ?_ (setLoad_within s ld)))
      split
      · next t ld1 hbegin => exact (beginRow_within hbegin).andThen (ih t ld1)
      · next t hbegin => exact beginRow_within hbegin

theorem driveLoad_within (s : State) (ld : Load) : Within loaded s (driveLoad s ld) := by
  unfold driveLoad
  split
  · exact advanceLoad_within s ld _ _
  · exact .refl s

theorem afterBlock_within (s : State) (ld : Load) (p : Page) (l : Layer) (addr len used : Nat) :
    Within loaded s (afterBlock s ld p l addr len used) := by
  unfold afterBlock
  dsimp only
  split
  · exact driveLoad_within s _
  · exact .ite (driveLoad_within s _) (failBlock_within s ld _)

/-- Room for a raw block is found in the same state, or with one free value taken (R64). -/
theorem takeUnits_within {s t : State} {p : Page} {contone : Bool} {chain : List Nat} {unit : Nat}
    (h : takeUnits s p contone = some (t, chain, unit)) : Within (fun s t => { s with free := t.free }) s t := by
  unfold takeUnits at h
  dsimp only at h
  split at h
  · cases h; exact .refl s
  · split at h
    · cases h
    · cases h; rfl

/-- `s` with what a PAGE_LOAD may touch taken from `t`, its completion included (R58, R79, R406). -/
def loadEntered (s t : State) : State :=
  { completed s t with pages := { s.pages with list := t.pages.list, load := t.pages.load, fireEnd := t.pages.fireEnd } }

/-- PAGE_LOAD fails with nothing changed, or the page enters LOADING (R58). -/
theorem loadPage_within (e : Entry) (s : State) : ReplyWithin loadEntered s (loadPage e s) := by
  refine .ite (.reject s _) (.ite (.reject s _) (.ite (.refl s) (.ite (.reject s _) (.ite (.reject s _) ?_))))
  dsimp only
  split
  · exact .refl s
  · exact .refl s
  · rfl

/-! Admission (R76 to R78, R243, R268, R273). -/

/-- `s` with what a PAGE_COMMIT's own effect may touch taken from `t` (R78, R243, R273). -/
def admitted (s t : State) : State :=
  { reported s t with
      pages := { s.pages with list := t.pages.list, nextAdm := t.pages.nextAdm, lastEnd := t.pages.lastEnd }
      asy := { s.asy with due := t.asy.due, periodic := t.asy.periodic, lastPeriodic := t.asy.lastPeriodic }
      par := { s.par with mseqTx := t.par.mseqTx, pageMsgs := t.par.pageMsgs, refused := t.par.refused
                          unshadowed := t.par.unshadowed } }

theorem attachBand_within (s : State) (planes : List Nat) : Within admitted s (attachBand s planes) := by
  refine .ite ?_ (.andThen (G := admitted) ?_ (count_within _ _)) <;> rfl

theorem enterAdmitted_within (s : State) (p : Page) (thin : Bool) (planes : List Nat) :
    Within admitted s (enterAdmitted s p thin planes) :=
  .after (attachBand_within _ planes)

theorem unshadow_within (s : State) (id : Dword) (n0 : Option Int) (lines : Nat) (band : List Nat) :
    Within admitted s (unshadow s id n0 lines band) :=
  .after (raiseIf_within _ _ _ _)

theorem unshadowMsg_within (s : State) (m : Dword × Nat × Bool × Nat × Int × Nat) : Within admitted s (unshadowMsg s m) :=
  .ite (.refl s) (unshadow_within s _ _ _ _)

theorem refusePage_within (s : State) (id : Dword) : Within admitted s (refusePage s id) := by
  refine .ite (.refl s) ?_
  split
  · exact unshadowMsg_within s _
  · rfl

theorem tellRejected_within (s : State) (id : Dword) : Within told s (tellRejected s id) := tellServitor_within s _ _

theorem rejectPage_within (s : State) (id : Dword) (st : Nat) (res : List Dword) :
    ReplyWithin admitted s (rejectPage s id st res) :=
  (tellRejected_within s id).andThen (F := admitted) (refusePage_within _ id)

theorem commitOwn_within (s : State) (p : Page) : ReplyWithin admitted s (commitOwn s p) := by
  have hadm := enterAdmitted_within s p (!e5 s) (bandPlanesNow s)
  have hstart (q : Page) := Within.ite (c := p.startMode = 2) (hadm.andThen (F := admitted) (resolvePage_within _ p.id p.startLine))
    (hadm.andThen (resolveChained_within _ q))
  have htell (q : Page) := hadm.andThen (F := admitted) (tellPage_within _ q 0)
  unfold commitOwn
  dsimp only
  split
  · exact rejectPage_within s _ _ _
  · split
    · exact rejectPage_within s _ _ _
    · split <;> refine .okWith ?_ _ <;> split
      · exact .ite (htell _) (hstart _)
      · exact hadm
      · exact .ite (htell _) (hstart _)
      · exact hadm

theorem commitServitor_within (s : State) (p : Page) (m : Dword × Nat × Bool × Nat × Int × Nat) :
    ReplyWithin admitted s (commitServitor s p m) := by
  have hmsg (pms) : Within admitted s { s with par := { s.par with pageMsgs := pms } } := rfl
  unfold commitServitor
  refine .ite ((hmsg _).andThen (F := admitted) (unshadowMsg_within _ m)) (.ite (hmsg _) ?_)
  split
  · exact (hmsg _).andThen (F := admitted) (unshadow_within _ _ _ _ _)
  · have hadm (us planes) : Within admitted s (enterAdmitted { s with par := { s.par with
        pageMsgs := s.par.pageMsgs.erase m, unshadowed := us } } p m.2.2.1 planes) := by
      exact .after (enterAdmitted_within _ p _ _)
    dsimp only
    split <;> exact .okWith (.ite ((hadm _ _).andThen (resolvePage_within _ _ _)) (hadm _ _)) _

/-! Abort (R80, R273, R400). -/

/-- `s` with what a PAGE_ABORT may touch taken from `t`, the completions of its PAGE_COMMIT or PAGE_LOAD included (R80, R273). -/
def aborted (s t : State) : State :=
  { answered s t with
      pages := { s.pages with list := t.pages.list, load := t.pages.load, lastEnd := t.pages.lastEnd }
      slices := { s.slices with recs := t.slices.recs }
      asy := { s.asy with due := t.asy.due, cutMarks := t.asy.cutMarks }
      par := { s.par with mseqTx := t.par.mseqTx, pageEnds := t.par.pageEnds } }

theorem endWaitingCommit_within (s : State) (id : Dword) : Within aborted s (endWaitingCommit s id) := by
  unfold endWaitingCommit
  split
  · exact (finish_within s _ _ _).andThen (tellRejected_within _ id)
  · exact .refl s

theorem abortPage_within (s : State) (p : Page) (cuts : List (Nat × Int)) : Within aborted s (abortPage s p cuts) := by
  have hend (u : State) (h : Within aborted s u) : Within aborted s (endWaitingCommit u p.id) :=
    h.andThen (endWaitingCommit_within u p.id)
  have hgone : Within aborted s (resolveAll (removePage s p)) :=
    (removePage_within s p).andThen (resolveChain_within _ _)
  have hcut : Within aborted s (retirePages (cutPage s p cuts)) :=
    (cutPage_within s p cuts).andThen (retirePages_within _)
  unfold abortPage
  split
  · refine hend _ ?_
    split
    · exact (failLoad_within s _ _ _).widen
    · exact .refl s
  · exact hend _ hgone
  · exact hend _ hgone
  · exact hcut.andThen (resolveChain_within _ _)
  · exact .refl s

theorem abortServitor_within (s : State) (p : Page) : ReplyWithin aborted s (abortServitor s p) := by
  unfold abortServitor
  split
  · exact .okWith (.after (abortPage_within _ p _)) _
  · exact .ite trivial (.reject s _)

/-! The commands. -/

/-- `s` with what a PAGE_COMMIT may touch taken from `t`, its completion included. -/
def committed (s t : State) : State :=
  { answered s t with
      pages := { s.pages with list := t.pages.list, nextAdm := t.pages.nextAdm, lastEnd := t.pages.lastEnd }
      asy := { s.asy with due := t.asy.due, periodic := t.asy.periodic, lastPeriodic := t.asy.lastPeriodic }
      par := { s.par with mseqTx := t.par.mseqTx, pageMsgs := t.par.pageMsgs, refused := t.par.refused
                          unshadowed := t.par.unshadowed } }

theorem pageCommit_changesOnly (e : Entry) (s : State) : ChangesOnly [.pageCommit e] s (committed s) := by
  have hreject (u : State) (st : Nat) : ReplyWithin committed u (rejectPage u (pw e 0) st []) := (rejectPage_within u _ st []).widen
  have hstart : Within committed s (if commitFailsEarly e s then tellRejected s (pw e 0) else s) :=
    .ite (tellRejected_within s _).widen (.refl s)
  refine changesOnly_of_within (show Within committed s (pageCommit e s) from ?_)
  unfold pageCommit
  refine hstart.andThen (command_within (F := committed) fun r => ?_)
  generalize (if commitFailsEarly e s then tellRejected s (pw e 0) else s) = u
  refine .ite (hreject u _) ?_
  split
  · exact hreject u _
  · next p _ =>
    refine .ite trivial (.ite (hreject u _) (.ite ?_ (.ite trivial (commitOwn_within u p).widen)))
    split
    · exact (commitServitor_within u p _).widen
    · exact .ite trivial (.reject u _)

theorem pageAbort_changesOnly (e : Entry) (s : State) : ChangesOnly [.pageAbort e] s (aborted s) := by
  refine changesOnly_of_within (command_within (F := aborted) fun r => .ite (.reject s _) ?_)
  split
  · exact .reject s _
  · next p _ =>
    have htold (lines : List Int) : Within aborted s (if pageActive p then tellPageEnd s p.id 1 lines else s) :=
      .ite (tellServitor_within s 4 _).widen (.refl s)
    exact .ite (.refl s) (.ite (abortServitor_within s p) (.okWith ((htold _).andThen (abortPage_within _ p _)) _))

theorem pageLoad_changesOnly (e : Entry) (s : State) : ChangesOnly [.pageLoad e] s (loadEntered s) := by
  have hcommand (body : InFlight → State → Reply) (hbody : ∀ r, ReplyWithin loadEntered s (body r s)) :
      Within loadEntered s (match s.pages.load, (command [0x0103] e body s).pages.load with
        | none, some ld => driveLoad (command [0x0103] e body s) ld
        | _, _ => command [0x0103] e body s) := by
    have hcmd : Within loadEntered s (command [0x0103] e body s) := command_within hbody
    split
    · exact hcmd.andThen (driveLoad_within _ _)
    · exact hcmd
  refine changesOnly_of_within (hcommand _ fun r => ?_)
  exact .ite (.reject s _) (.ite trivial (loadPage_within e s))

theorem jobClose_changesOnly (e : Entry) (s : State) : ChangesOnly [.jobClose e] s (jobEnded s) :=
  changesOnly_of_within (command_within (fun _ => .checked (.okWith (closeJob_within s) _) _))

theorem jobOpen_changesOnly (e : Entry) (s : State) : ChangesOnly [.jobOpen e] s (jobOpened s) := by
  have hclosed : Within jobOpened s (if s.job.isSome then closeJob s else s) :=
    .ite (closeJob_within s).widen (.refl s)
  refine changesOnly_of_within (command_within (fun r => .checked (.withRecord (fun d => .checked (.withRecord (fun geo => ?_)
    _ _) _) _ _) _))
  dsimp only
  split
  · exact .reject s _
  · split
    · exact .refl s
    · exact .okWith (hclosed.andThen (startJob_within _ _ _)) _

/-- `s` with what DOFFSET_SET may touch taken from `t`, its completion included. -/
def offsetSet (s t : State) : State :=
  { answered s t with job := t.job, web := { s.web with dOff := t.web.dOff } }

theorem doffsetSet_changesOnly (e : Entry) (s : State) : ChangesOnly [.doffsetSet e] s (offsetSet s) := by
  have hsent (w : Web) (hw : Within offsetSet s { s with web := w }) (rows : List (Nat × Nat)) (n : Int) :
      Within offsetSet s (rows.foldl (fun t x => sendRowsFrom t x.1 x.2 n) { s with web := w }) :=
    hw.andThen (.foldl (F := phased) (fun t x => sendRowsFrom_within t x.1 x.2 n) rows _)
  refine changesOnly_of_within (command_within (fun _ => .checked (.okWith (hsent _ ?_ _ _) _) _))
  rfl

/-- `s` with what XSHIFT_SET may touch taken from `t`, its completion included. -/
def shiftSet (s t : State) : State := { completed s t with web := { s.web with xShift := t.web.xShift } }

theorem xshiftSet_changesOnly (e : Entry) (s : State) : ChangesOnly [.xshiftSet e] s (shiftSet s) := by
  refine changesOnly_of_within (c := .xshiftSet e) (F := shiftSet) (command_within fun r => .checked (.okWith ?_ _) _)
  rfl

theorem dmaReadCompletion_changesOnly (addr len : Nat) (outcome : DmaEnd) (s : State) :
    ChangesOnly [.dmaReadCompletion addr len outcome] s (loaded s) := by
  refine changesOnly_of_within (show OutcomeWithin loaded s (execDmaReadCompletion addr len outcome s) from ?_)
  unfold execDmaReadCompletion
  split
  · exact .refl s
  · next ld _ =>
    exact .ite (.refl s) (.ite (failLoad_within s ld _ _) ((setLoad_within s _).andThen (F := loaded) (driveLoad_within _ _)))

/-- `s` with what BLOCK_STORE may touch taken from `t`. -/
def blockStored (s t : State) : State :=
  { completed s t with pages := { s.pages with list := t.pages.list, load := t.pages.load }, free := t.free }

theorem blockStore_changesOnly (s : State) : ChangesOnly [.blockStore] s (blockStored s) := by
  have hstored (t : State) (h : Within blockStored s t) (ld : Load) (f : Page → Page) (p : Page) (l : Layer)
      (addr len used : Nat) : Within blockStored s (afterBlock (setPage t ld.pageId f) ld p l addr len used) :=
    (h.andThen (F := blockStored) (setPage_within t _ f)).andThen (afterBlock_within _ ld p l addr len used)
  refine changesOnly_of_within (show OutcomeWithin blockStored s (execBlockStore s) from ?_)
  unfold execBlockStore
  split
  · exact .refl s
  · next ld _ =>
    split
    · exact .refl s
    · next p _ =>
      split
      · exact .refl s
      · next l _ =>
        refine .ite (.refl s) ?_
        dsimp only
        split
        · exact (failBlock_within s ld _).widen
        · exact hstored s (.refl s) ld _ p l _ _ _
        · split
          · exact (failLoad_within s ld _ _).widen
          · next htake => exact hstored _ (takeUnits_within htake).widen ld _ p l _ _ _

theorem pageStatus_changesOnly (e : Entry) (s : State) : ChangesOnly [.pageStatus e] s (completed s) := by
  refine changesOnly_of_within (command_within fun r => .ite (.reject s _) ?_)
  split
  · exact .reject s _
  · exact .refl s

/-- Settles O55: each clause is the overlay of its command, put together from those of the operations it calls. -/
theorem frameJobPagesAndTables : Obligations.FrameJobPagesAndTables := fun s =>
  ⟨fun e => jobOpen_changesOnly e s, fun e => jobClose_changesOnly e s, fun e => pageLoad_changesOnly e s,
    fun e => pageCommit_changesOnly e s, fun e => pageAbort_changesOnly e s, fun e => pageStatus_changesOnly e s,
    fun e => doffsetSet_changesOnly e s, fun e => xshiftSet_changesOnly e s,
    fun addr len outcome => dmaReadCompletion_changesOnly addr len outcome s, blockStore_changesOnly s⟩

end Sys2Proof.Machine
end

section
/-! SUPPORT. What closing a job leaves of the tables (R105, R395). -/

namespace Sys2Proof.Machine

/-- Closing a job changes the tables in one way: the updates that have dropped out by now are noted (R105). -/
theorem closeJob_tables (s : State) : (closeJob s).tables = (noteDropped (advancePacing s (nowUnits s))).tables :=
  ((retirePages_within _).untouched State.tables).trans ((Within.foldl removePage_within _ _).untouched State.tables)

theorem exec_jobClose {e : Entry} {s : State} {r : InFlight} (hT : Turn 0x0102 e s r) (hrsv : rsvOk e [] = true)
    (hjob : s.job ≠ none) (hidle : anyActive s = false) : exec (.jobClose e) s = .next (finish (closeJob s) r stOk []) :=
  congrArg Host.Outcome.next (command_checked hT (by simp [hrsv, Option.isSome_iff_ne_none, hjob, hidle]) _)

/-- The submission entry of a JOB_CLOSE. -/
def jobCloseEntry : Entry := { words := 0x01020000 :: List.replicate 15 0 }

/-- The stitch mask of a rank that the job does not use, changed at web line -1. -/
def passedMask : MaskUpd := { mask := 36, rows := List.replicate 16 0, line := -1, out := false }

/-- The JOB_CLOSE, fetched and not yet committed. -/
def jobCloseFlight : InFlight :=
  { entry := jobCloseEntry, latch := .gaffer, epoch := 0, seen := 0, committed := false, discard := false, note := [] }

/-- A running chip at line 0 with a job open and a JOB_CLOSE in flight, whose list still holds the mask change of line -1. -/
def closingState : State :=
  { State.reset with
      boot := { State.reset.boot with state := .running }
      mbx := { State.reset.mbx with inFlight := [jobCloseFlight] }
      pwr := { State.reset.pwr with state := .print }
      job := some (jobOf State.reset ([0x01000000, 7, 10] ++ List.replicate 13 0 ++ [0xC0000000]) [])
      tables := { State.reset.tables with maskUpds := [passedMask] }
      mem := { State.reset.mem with ready := true } }

/-- The line counter is past the change's line, so it has dropped out, and closing the job notes it. -/
theorem closeJob_closingState_tables : (closeJob closingState).tables ≠ closingState.tables := by
  rw [closeJob_tables]
  decide

/-- Refutes O13: JOB_CLOSE does not leave the tables as they were. It notes the updates that have dropped out by then (R105), so
where the list holds a mask change whose web line has passed, the tables of the next state are not those before. -/
theorem not_jobAndOffsets : ¬ Obligations.JobAndOffsets := by
  intro h
  have hT : Turn 0x0102 jobCloseEntry closingState jobCloseFlight := by decide
  have hjob : closingState.job ≠ none := by decide
  obtain ⟨-, hclose, -⟩ := h jobCloseEntry closingState jobCloseFlight
  obtain ⟨t, hexec, u, rfl, -, -, -, -, htables⟩ := hclose hT (by decide) hjob (by decide)
  have hfinish := Host.Outcome.next.inj ((exec_jobClose hT (by decide) hjob (by decide)).symm.trans hexec)
  refine closeJob_closingState_tables ?_
  calc (closeJob closingState).tables
      = (finish (closeJob closingState) jobCloseFlight stOk []).tables := by simp
    _ = (finish u jobCloseFlight stOk []).tables := by rw [hfinish]
    _ = u.tables := by simp
    _ = closingState.tables := htables

end Sys2Proof.Machine
end

section
/-! SUPPORT. The bits of a number and its Rice code (R66, R69): what the encoder writes, the decoder reads back. -/

set_option Elab.async false

namespace Sys2Proof.Machine

/-! Fixed-width fields. -/

@[simp] theorem length_valBits (w v : Nat) : (valBits w v).length = w := by simp [valBits]

theorem valBits_succ (w v : Nat) : valBits (w + 1) v = valBits w (v / 2) ++ [v.testBit 0] := by
  have hshift : ∀ i ∈ List.range w, v.testBit (w - i) = (v / 2).testBit (w - 1 - i) := fun i hi => by
    have hlt := List.mem_range.mp hi
    rw [show w - i = (w - 1 - i) + 1 by omega, Nat.testBit_succ]
  simp only [valBits, List.range_succ, List.map_append, List.map_cons, List.map_nil, Nat.add_sub_cancel, Nat.sub_self]
  rw [List.map_congr_left hshift]

theorem bitsVal_append_bit (bs : List Bool) (b : Bool) : bitsVal (bs ++ [b]) = 2 * bitsVal bs + b.toNat := by
  cases b <;> simp [bitsVal]

/-- A field of `w` bits holds the number modulo 2^w. -/
theorem bitsVal_valBits (w v : Nat) : bitsVal (valBits w v) = v % 2 ^ w := by
  induction w generalizing v with
  | zero => simp [valBits, bitsVal, Nat.mod_one]
  | succ w ih =>
    have hbit : (v.testBit 0).toNat = v % 2 := by rw [Nat.toNat_testBit, pow_zero, Nat.div_one]
    rw [valBits_succ, bitsVal_append_bit, ih, hbit, Nat.pow_succ', Nat.mod_mul]
    omega

theorem valBits_mod (w v : Nat) : valBits w (v % 2 ^ w) = valBits w v := by
  refine List.map_congr_left fun i hi => ?_
  have hlt := List.mem_range.mp hi
  rw [Nat.testBit_mod_two_pow, decide_eq_true (by omega), Bool.true_and]

theorem readBits_valBits (w v : Nat) (rest : List Bool) : readBits w (valBits w v ++ rest) = some (v % 2 ^ w, rest) := by
  simp [readBits, bitsVal_valBits]

/-! The unary part. -/

theorem riceOnes_replicate (n fuel q : Nat) (rest : List Bool) :
    riceOnes (n + fuel) q (List.replicate n true ++ rest) = riceOnes fuel (q + n) rest := by
  induction n generalizing q with
  | zero => simp
  | succ n ih =>
    rw [Nat.add_right_comm, List.replicate_succ, List.cons_append, riceOnes, if_pos rfl, ih, Nat.add_right_comm, Nat.add_assoc]

theorem riceOnes_short {q : Nat} (hq : q < 12) (rest : List Bool) :
    riceOnes 12 0 (List.replicate q true ++ false :: rest) = some (q, rest) := by
  obtain ⟨d, hd⟩ : ∃ d, 12 = q + (d + 1) := ⟨11 - q, by omega⟩
  rw [hd, riceOnes_replicate, Nat.zero_add]
  rfl

theorem riceOnes_escape (rest : List Bool) : riceOnes 12 0 (List.replicate 12 true ++ rest) = some (12, rest) :=
  riceOnes_replicate 12 0 0 rest

/-! The two forms of the code. -/

theorem riceBits_short {k v : Nat} (hq : v / 2 ^ k < 12) (w : Nat) :
    riceBits k w v = List.replicate (v / 2 ^ k) true ++ false :: valBits k v := by
  rw [riceBits, if_neg (Nat.not_le.mpr hq), valBits_mod]

theorem riceBits_escape {k v : Nat} (hq : 12 ≤ v / 2 ^ k) (w : Nat) :
    riceBits k w v = List.replicate 12 true ++ valBits w v := if_pos hq

theorem readRice_short {k v : Nat} (hq : v / 2 ^ k < 12) (w : Nat) (rest : List Bool) :
    readRice k w (List.replicate (v / 2 ^ k) true ++ false :: (valBits k v ++ rest)) = some (v, rest) := by
  have hv : v / 2 ^ k * 2 ^ k + v % 2 ^ k = v := Nat.div_add_mod' v (2 ^ k)
  simp [readRice, riceOnes_short hq, Nat.ne_of_lt hq, readBits_valBits, hv]

theorem readRice_escape {w v : Nat} (hv : v < 2 ^ w) (k : Nat) (rest : List Bool) :
    readRice k w (List.replicate 12 true ++ (valBits w v ++ rest)) = some (v, rest) := by
  simp only [readRice, riceOnes_escape, readBits_valBits, Nat.mod_eq_of_lt hv, if_true]

/-- The decoder reads back every value of `w` bits that the encoder writes. -/
theorem readRice_riceBits {w v : Nat} (hv : v < 2 ^ w) (k : Nat) (rest : List Bool) :
    readRice k w (riceBits k w v ++ rest) = some (v, rest) := by
  by_cases hq : v / 2 ^ k < 12
  · rw [riceBits_short hq, List.append_assoc, List.cons_append, readRice_short hq]
  · rw [riceBits_escape (by omega), List.append_assoc, readRice_escape hv]

/-- Settles O51: the unary part is counted off, and what follows it is a field of k or of w bits. -/
theorem riceCode : Obligations.RiceCode := by
  intro k w v rest q low whole
  have hq : q = v / 2 ^ k := Nat.shiftRight_eq_div_pow v k
  rw [hq]
  refine ⟨fun h => riceBits_short h w, fun h => riceBits_escape h w, fun h => ?_, fun h => ?_⟩
  · rw [List.append_assoc, List.cons_append]
    exact readRice_short h w rest
  · rw [List.append_assoc]
    exact readRice_escape h k rest

end Sys2Proof.Machine
end

section
/-! SUPPORT. The block codec (R66 to R74): each token that the encoder chooses says the samples it covers, and the decoder makes
those samples of it. -/

set_option Elab.async false

namespace Sys2Proof.Machine

/-! The prediction and the residual of a literal (R68). -/

theorem getD_lt_of_forall {n : Nat} {l : List Nat} (h : ∀ v ∈ l, v < n) (hn : 0 < n) (i : Nat) : l.getD i 0 < n := by
  rw [List.getD_eq_getElem?_getD]
  cases hi : l[i]? with
  | none => exact hn
  | some v => exact h v (List.mem_of_getElem? hi)

/-- A prediction lies between the samples it is made of. -/
theorem predict_lt {n : Nat} {rev : List Nat} (h : ∀ v ∈ rev, v < n) (hn : 0 < n) (pos : Nat) : predict rev pos < n := by
  have h0 := getD_lt_of_forall h hn 0
  have h15 := getD_lt_of_forall h hn 15
  unfold predict
  dsimp only
  split
  · exact hn
  · split
    · exact h0
    · split
      · exact h15
      · split
        · omega
        · split <;> omega

theorem residual_lt {b : Nat} (hb : 0 < b) (v pred : Nat) : residual b v pred < 2 ^ b := by
  obtain ⟨c, rfl⟩ : ∃ c, b = c + 1 := ⟨b - 1, by omega⟩
  have he := Nat.mod_lt (v + 2 ^ (c + 1) - pred) (Nat.two_pow_pos (c + 1))
  unfold residual
  dsimp only
  rw [Nat.add_sub_cancel]
  rw [Nat.pow_succ] at *
  split <;> omega

/-- A literal gives back the sample whose residual it carries: M holds the difference e to the prediction, as 2e or from above. -/
theorem literal_residual {b v pred : Nat} (hb : 0 < b) (hv : v < 2 ^ b) (hpred : pred < 2 ^ b) :
    literal b pred (residual b v pred) = v := by
  obtain ⟨c, rfl⟩ : ∃ c, b = c + 1 := ⟨b - 1, by omega⟩
  have hsum : (pred + (v + 2 ^ (c + 1) - pred) % 2 ^ (c + 1)) % 2 ^ (c + 1) = v := by
    rw [Nat.add_mod_mod, Nat.add_sub_cancel' (by omega), Nat.add_mod_right, Nat.mod_eq_of_lt hv]
  have he := Nat.mod_lt (v + 2 ^ (c + 1) - pred) (Nat.two_pow_pos (c + 1))
  unfold literal residual
  dsimp only
  rw [Nat.add_sub_cancel]
  generalize (v + 2 ^ (c + 1) - pred) % 2 ^ (c + 1) = e at *
  split
  · rw [if_pos (by omega), Nat.mul_div_cancel_left _ (by decide)]
    exact hsum
  · rw [Nat.pow_succ] at *
    rw [if_neg (by omega), show pred + 2 ^ c * 2 - (2 * (2 ^ c * 2 - e) - 1 + 1) / 2 = pred + e by omega]
    exact hsum

/-! Runs (R71, R73): the encoder's length is that of samples the decoder's run makes. -/

theorem take_succ_reverse_append {α : Type} (v : α) (vs rev : List α) (n : Nat) :
    ((v :: vs).take (n + 1)).reverse ++ rev = (vs.take n).reverse ++ v :: rev := by
  simp

theorem zeroLength_le (rest rev : List Nat) (pos : Nat) : zeroLength rest rev pos ≤ rest.length := by
  induction rest generalizing rev pos with
  | nil => exact Nat.le_refl 0
  | cons v vs ih =>
    unfold zeroLength
    split
    · exact Nat.succ_le_succ (ih _ _)
    · exact Nat.zero_le _

theorem copyLength_le (d : Nat) (rest rev : List Nat) : copyLength d rest rev ≤ rest.length := by
  induction rest generalizing rev with
  | nil => exact Nat.le_refl 0
  | cons v vs ih =>
    unfold copyLength
    split
    · exact Nat.succ_le_succ (ih _)
    · exact Nat.zero_le _

theorem zeroRun_zeroLength (rest rev : List Nat) (pos : Nat) :
    zeroRun (zeroLength rest rev pos) rev pos = (rest.take (zeroLength rest rev pos)).reverse ++ rev := by
  induction rest generalizing rev pos with
  | nil => rfl
  | cons v vs ih =>
    unfold zeroLength
    split
    · next hv => rw [zeroRun, ← hv, take_succ_reverse_append, ih]
    · rfl

theorem copyRun_copyLength (d : Nat) (rest rev : List Nat) :
    copyRun d (copyLength d rest rev) rev = (rest.take (copyLength d rest rev)).reverse ++ rev := by
  induction rest generalizing rev with
  | nil => rfl
  | cons v vs ih =>
    unfold copyLength
    split
    · next hv => rw [copyRun, ← hv, take_succ_reverse_append, ih]
    · rfl

/-- The copy of index `i` and length `n` is none at all, or one as long as the samples allow. -/
def CopyFits (rest rev : List Nat) (pos i n : Nat) : Prop :=
  n = 0 ∨ (i < 8 ∧ copyOffset i ≤ pos ∧ n = copyLength (copyOffset i) rest rev)

theorem bestCopy_fits {e : Nat} (he : e ≤ 7) (rest rev : List Nat) (pos : Nat) :
    CopyFits rest rev pos (bestCopy e rest rev pos).2 (bestCopy e rest rev pos).1 := by
  refine List.foldlRecOn (motive := fun acc : Nat × Nat => CopyFits rest rev pos acc.2 acc.1) _ _ (.inl rfl)
    fun acc hacc i hi => ?_
  have hi8 : i < 8 := Nat.lt_of_lt_of_le (List.mem_range.mp hi) (Nat.succ_le_succ he)
  have hnew : CopyFits rest rev pos i (if copyOffset i ≤ pos then copyLength (copyOffset i) rest rev else 0) := by
    split
    · next hd => exact .inr ⟨hi8, hd, rfl⟩
    · exact .inl rfl
  exact iteInduction (motive := fun x : Nat × Nat => CopyFits rest rev pos x.2 x.1) (fun _ => hnew) fun _ => hacc

/-! Tokens (R70, R72, R73). -/

/-- The token, where `rev` holds `pos` samples, says the first `tokenLength` of `rest`, within the numbers its fields can carry. -/
def TokenFits (b : Nat) (rest rev : List Nat) (pos : Nat) : Token → Prop
  | .lit m => m < 2 ^ b ∧ literal b (predict rev pos) m :: rev = (rest.take 1).reverse ++ rev
  | .zero n => zeroRun n rev pos = (rest.take n).reverse ++ rev
  | .copy i n => 2 ≤ n ∧ i < 8 ∧ copyOffset i ≤ pos ∧ copyRun (copyOffset i) n rev = (rest.take n).reverse ++ rev

theorem chooseToken_fits {b e : Nat} (hb : 0 < b) (he : e ≤ 7) {rest rev : List Nat} (hrest : ∀ v ∈ rest, v < 2 ^ b)
    (hrev : ∀ v ∈ rev, v < 2 ^ b) (hne : rest ≠ []) (pos : Nat) :
    1 ≤ tokenLength (chooseToken b e rest rev pos) ∧ tokenLength (chooseToken b e rest rev pos) ≤ rest.length ∧
    TokenFits b rest rev pos (chooseToken b e rest rev pos) := by
  have hcopy := bestCopy_fits he rest rev pos
  unfold chooseToken
  dsimp only
  split
  · next hc =>
    obtain hzero | ⟨hi, hd, hn⟩ := hcopy
    · omega
    · refine ⟨Nat.le_of_succ_le hc.1, hn ▸ copyLength_le _ _ _, hc.1, hi, hd, ?_⟩
      rw [hn]
      exact copyRun_copyLength _ _ _
  · split
    · next hz => exact ⟨Nat.le_of_succ_le hz, zeroLength_le _ _ _, zeroRun_zeroLength _ _ _⟩
    · obtain ⟨v, vs, rfl⟩ := List.exists_cons_of_ne_nil hne
      refine ⟨Nat.le_refl 1, Nat.succ_le_succ (Nat.zero_le _), residual_lt hb _ _, ?_⟩
      rw [List.headD_cons, literal_residual hb (hrest v List.mem_cons_self) (predict_lt hrev (Nat.two_pow_pos b) pos)]
      rfl

/-- The decoder makes of a token's bits the samples that the token says. -/
theorem decodeTokens_token {b k : Nat} {rest rev : List Nat} {pos : Nat} {t : Token} (hsum : pos + rest.length = 256)
    (hpos : 1 ≤ tokenLength t) (hlen : tokenLength t ≤ rest.length) (ht : TokenFits b rest rev pos t) (fuel : Nat)
    (bs : List Bool) :
    decodeTokens b k (fuel + 1) rev pos (tokenBits b k t ++ bs) =
      decodeTokens b k fuel ((rest.take (tokenLength t)).reverse ++ rev) (pos + tokenLength t) bs := by
  have hroom : ¬ 256 ≤ pos := by omega
  cases t with
  | lit m =>
    obtain ⟨hm, hrev⟩ := ht
    simp [decodeTokens, tokenBits, tokenLength, hroom, readRice_riceBits hm, Nat.not_le.mpr hm, ← hrev]
  | zero n =>
    dsimp only [tokenLength] at hpos hlen
    have hrev : zeroRun n rev pos = (rest.take n).reverse ++ rev := ht
    have hfit : ¬ 256 - pos < n := by omega
    have hbyte : n - 1 < 2 ^ 8 := by omega
    simp only [decodeTokens, tokenBits, tokenLength, hroom, List.cons_append, readRice_riceBits hbyte,
      Nat.sub_add_cancel hpos, hfit, ← hrev, if_false]
  | copy i n =>
    obtain ⟨hn, hi, hd, hrev⟩ := ht
    dsimp only [tokenLength] at hpos hlen
    have hfit : ¬ (pos < copyOffset i ∨ 256 - pos < n) := by omega
    have hbyte : n - 2 < 2 ^ 8 := by omega
    have hindex : i % 2 ^ 3 = i := Nat.mod_eq_of_lt hi
    simp only [decodeTokens, tokenBits, tokenLength, hroom, List.cons_append, List.append_assoc, readBits_valBits, hindex,
      readRice_riceBits hbyte, Nat.sub_add_cancel hn, hfit, ← hrev, if_false]

theorem decodeTokens_full (b k fuel : Nat) {pos : Nat} (hpos : 256 ≤ pos) (rev : List Nat) (bs : List Bool) :
    decodeTokens b k fuel rev pos bs = .ok rev.reverse bs := by
  cases fuel with
  | zero => rfl
  | succ fuel => unfold decodeTokens; rw [if_pos hpos]

theorem tokens_step (b e fuel : Nat) {rest : List Nat} (hne : rest ≠ []) (rev : List Nat) (pos : Nat) :
    tokens b e (fuel + 1) rest rev pos = chooseToken b e rest rev pos ::
      tokens b e fuel (rest.drop (tokenLength (chooseToken b e rest rev pos)))
        ((rest.take (tokenLength (chooseToken b e rest rev pos))).reverse ++ rev)
        (pos + tokenLength (chooseToken b e rest rev pos)) := by
  cases rest with
  | nil => exact absurd rfl hne
  | cons v vs => rfl

/-- From any place in a block, decoding the encoder's tokens for the samples left gives those samples. -/
theorem decodeTokens_tokens {b e : Nat} (hb : 0 < b) (he : e ≤ 7) (k fuel : Nat) {rest rev : List Nat} {pos : Nat}
    (hrest : ∀ v ∈ rest, v < 2 ^ b) (hrev : ∀ v ∈ rev, v < 2 ^ b) (hsum : pos + rest.length = 256)
    (hfuel : rest.length ≤ fuel) (bs : List Bool) :
    decodeTokens b k fuel rev pos ((tokens b e fuel rest rev pos).flatMap (tokenBits b k) ++ bs) =
      .ok (rev.reverse ++ rest) bs := by
  induction fuel generalizing rest rev pos with
  | zero =>
    obtain rfl := List.length_eq_zero_iff.mp (Nat.le_zero.mp hfuel)
    simp [decodeTokens, tokens]
  | succ fuel ih =>
    by_cases hne : rest = []
    · subst hne
      simp [tokens, decodeTokens_full b k _ (show 256 ≤ pos from hsum.ge)]
    · obtain ⟨hpos, hlen, hfits⟩ := chooseToken_fits hb he hrest hrev hne pos
      rw [tokens_step b e fuel hne, List.flatMap_cons, List.append_assoc, decodeTokens_token hsum hpos hlen hfits, ih]
      · simp
      · exact fun v hv => hrest v (List.mem_of_mem_drop hv)
      · intro v hv
        obtain hv | hv := List.mem_append.mp hv
        · exact hrest v (List.mem_of_mem_take (List.mem_reverse.mp hv))
        · exact hrev v hv
      · rw [List.length_drop]; omega
      · rw [List.length_drop]; omega

/-- Settles O52: the mode and K are read off the front, and the tokens are decoded from the first sample on. -/
theorem blockRoundTrip : Obligations.BlockRoundTrip := by
  intro b e k samples rest hbits he hk hlen hsamples
  have hb : 0 < b := by omega
  have hmode (bs : List Bool) : readBits 2 (false :: false :: bs) = some (0, bs) := readBits_valBits 2 0 bs
  rw [codedBits, List.cons_append, List.cons_append, List.append_assoc, decodeBits, hmode]
  simp only [readBits_valBits, Nat.mod_eq_of_lt hk]
  rw [decodeTokens_tokens hb he k 256 hsamples (fun v hv => absurd hv List.not_mem_nil) ((Nat.zero_add _).trans hlen) hlen.le]
  rfl

end Sys2Proof.Machine
end

section
/-! SUPPORT. The overlay of what noting a record touches, and what planning and releasing leave of the records in a queue (R107,
R131 to R142, R197 to R201). -/

set_option Elab.async false

namespace Sys2Proof.Machine

/-! Notes: counts and events, marks, the cluster state, once-per-page reports. -/

/-- `s` with what noting a record may touch taken from `t`: reports, the marks of the expected-defect map, the cluster state and
the pages (R79, R107, R137 to R142). -/
def noted (s t : State) : State :=
  { reported s t with pages := { s.pages with list := t.pages.list }, asy := t.asy, csc := t.csc }

theorem countN_within (s : State) (k n : Nat) : Within reported s (countN s k n) :=
  (bump_within s k n).andThen (raiseIf_within _ _ _ _)

theorem oncePage_within (s : State) (id : Dword) (key : Nat) : Within listed s (oncePage s id key).2 := by
  unfold oncePage
  split
  · exact .refl s
  · split
    · exact .refl s
    · exact setPage_within s id _

theorem markArea_within (s : State) (p : Nat) (x0 x1 n0 n1 : Int) :
    Within (fun s t => { s with asy := t.asy }) s (markArea s p x0 x1 n0 n1) := rfl

theorem setMark_within (s : State) (k : Nat) (refill : Bool) :
    Within (fun s t => { s with csc := t.csc }) s (setMark s k refill) := rfl

theorem clearMark_within (s : State) (k : Nat) : Within (fun s t => { s with csc := t.csc }) s (clearMark s k) := rfl

theorem outOfStep_within (s : State) (m q cause : Nat) (n : Int) : Within noted s (outOfStep s m q cause n) :=
  .ite (setMark_within s _ _).widen (.ite (emit_within s _).widen (.refl s))

theorem lateLine_within (s : State) (m q : Nat) (n : Int) : Within noted s (lateLine s m q n) := by
  have hmark : Within noted s (markModule (count s (cnum 1 0)) m q n) :=
    (count_within s _).andThen (markArea_within _ _ _ _ _ _)
  unfold lateLine
  dsimp only
  refine .andThen (G := noted) ?_ (outOfStep_within _ _ _ _ _)
  split
  · exact (hmark.andThen (F := noted) (oncePage_within _ _ _)).andThen (raiseIf_within _ _ _ _)
  · exact hmark

/-! What a record's release notes. -/

theorem countThin_within (r : Rec) (s : State) (l : Nat × Nat) : Within reported s (countThin r s l) :=
  .ite (count_within s _) (((count_within s _).andThen (F := reported) (count_within _ _)).andThen (count_within _ _))

theorem reportThin_within (s : State) (r : Rec) : Within noted s (reportThin s r) := by
  have hdrops (x : Nat × Nat → Int) : Within noted s ((thinnedOf r).foldl (fun t l =>
      markArea (countThin r t l) (planeOf r.m r.q) (x l) (x l) r.n r.n) s) :=
    .foldl (fun t l => (countThin_within r t l).andThen (markArea_within _ _ _ _ _ _)) _ s
  unfold reportThin
  dsimp only
  split
  · exact .ite (hdrops _) (((hdrops _).andThen (F := noted) (oncePage_within _ _ _)).andThen (raiseIf_within _ _ _ _))
  · exact hdrops _

theorem countClamps_within (s : State) (r : Rec) : Within reported s (countClamps s r) := .ite (.refl s) (countN_within s _ _)

theorem reportSeam_within (s : State) (r : Rec) : Within noted s (reportSeam s r) :=
  .ite (.refl s) ((Within.after (F := noted) (count_within _ _)).andThen (raise_within _ _ _))

theorem noteRefill_within (s : State) (r : Rec) : Within noted s (noteRefill s r) := rfl

theorem noteDrops_within (s : State) (r : Rec) (drops : Bool) : Within noted s (noteDrops s r drops) :=
  .ite (.ite (clearMark_within s _).widen rfl) (.refl s)

theorem releasePrint_within (s : State) (r : Rec) : Within noted s (releasePrint s r) :=
  (Within.after (F := noted) (reportThin_within _ r)).andThen (reportSeam_within _ r)

theorem beginPrinting_within (s : State) (n : Int) : Within listed s (beginPrinting s n) := by
  unfold beginPrinting
  split
  · exact .ite (setPage_within s _ _) (.refl s)
  · exact .refl s

/-- Before a released record is sent, its release only notes it. -/
theorem release_notes (s : State) (r : Rec) :
    Within noted s (beginPrinting (noteDrops (noteRefill (countClamps (if r.kind = .print then releasePrint s r else s) r) r) r
      (!r.picks.isEmpty)) r.n) := by
  have hprint : Within noted s (if r.kind = .print then releasePrint s r else s) := .ite (releasePrint_within s r) (.refl s)
  exact (((hprint.andThen (F := noted) (countClamps_within _ r)).andThen (F := noted) (noteRefill_within _ r)).andThen
    (F := noted) (noteDrops_within _ r _)).andThen (beginPrinting_within _ _)

/-! Sending a record. -/

theorem freeWords_within (n : Nat) (s : State) : Within (fun s t => { s with free := t.free }) s (freeWords n s).1 := by
  induction n generalizing s with
  | zero => exact .refl s
  | succ n ih => exact .after (ih _)

theorem sendRec_within (s : State) (r : Rec) : Within (fun s t => { s with free := t.free, out := t.out }) s (sendRec s r) := by
  unfold sendRec
  split
  · next h =>
    split at h
    · have hfree := freeWords_within (recData r).length s
      rw [h] at hfree
      exact hfree.andThen (H := fun s t => { s with out := t.out }) rfl
    · cases h
      rfl

/-- A record as it is sent: the drops placed, under the next record number of its module-plane (R197, R201). -/
def sentRec (s : State) (r : Rec) : Rec :=
  { r with levels := r.levels.filter fun l => r.picks.any fun p => p.1 == l.1
           rseq := mapGet 0 s.dxl.rseq (mp r.m r.q), resync := s.dxl.resync.contains (mp r.m r.q) }

theorem transmit_replay (s : State) (r : Rec) : (transmit s r).dxl.replay = s.dxl.replay ++ [sentRec s r] := by
  have hdxl : (sendRec s (sentRec s r)).dxl = s.dxl := (sendRec_within s _).untouched State.dxl
  exact congrArg (fun d : Dxl => d.replay ++ [sentRec s r]) hdxl

theorem transmit_recs (s : State) (r : Rec) :
    (transmit s r).slices.recs = s.slices.recs.filter fun x => !(x.m == r.m && x.q == r.q && x.n == r.n) := by
  have hslices : (sendRec s (sentRec s r)).slices = s.slices := (sendRec_within s _).untouched State.slices
  exact congrArg (fun x : Slices => x.recs.filter fun x => !(x.m == r.m && x.q == r.q && x.n == r.n)) hslices

/-- A released record joins the replay buffer and leaves the queue; its release notes nothing in the link or the slices. -/
theorem releaseRecord_effect (s : State) (r : Rec) :
    (releaseRecord s r).dxl.replay = s.dxl.replay ++ [sentRec s r] ∧
    (releaseRecord s r).slices.recs = s.slices.recs.filter fun x => !(x.m == r.m && x.q == r.q && x.n == r.n) := by
  have hnotes := release_notes s r
  have hdxl := hnotes.untouched State.dxl
  have hslices := hnotes.untouched State.slices
  unfold releaseRecord
  dsimp only
  rw [(retirePages_within _).untouched State.dxl, (retirePages_within _).untouched State.slices, transmit_replay, transmit_recs,
    sentRec, hdxl, hslices]
  exact ⟨rfl, rfl⟩

/-! Planning (R131, R135), and a record made LATE (R107). -/

/-- Where a record stands, and its kind. -/
def recPlace (r : Rec) : Nat × Nat × Int × RecKind := (r.m, r.q, r.n, r.kind)

theorem planList_places (s : State) (k : Nat) (x : Csc) (seam : Nat) (rs : List Rec) :
    (planList s k x seam rs).map recPlace = rs.map recPlace := by
  induction rs generalizing x seam with
  | nil => rfl
  | cons r rs ih =>
    unfold planList
    split
    · exact congrArg (recPlace r :: ·) (ih _ _)
    · exact congrArg (recPlace r :: ·) (ih _ _)

/-- A planned record stands where one of its kind stood before. -/
theorem mem_planPlane {s : State} {k : Nat} {x : Rec} (h : x ∈ (planPlane s k).slices.recs) :
    ∃ z ∈ s.slices.recs, recPlace z = recPlace x := by
  have hx : recPlace x ∈ (planPlane s k).slices.recs.map recPlace := List.mem_map_of_mem h
  exact List.mem_map.mp ((planList_places s k _ _ _) ▸ hx)

theorem makeLate_dxl (s : State) (m q : Nat) (n : Int) : (makeLate s m q n).dxl = s.dxl := by
  unfold makeLate
  split
  · exact (lateLine_within s m q n).untouched State.dxl
  · exact (lateLine_within s m q n).untouched State.dxl

/-- A record in the queue that is made LATE stands there LATE. -/
theorem makeLate_kind {s : State} {r z : Rec} (hr : r ∈ s.slices.recs) (hz : z ∈ (makeLate s r.m r.q r.n).slices.recs)
    (hm : z.m = r.m) (hq : z.q = r.q) (hn : z.n = r.n) : z.kind = .late := by
  obtain ⟨r', hfind⟩ : ∃ r', recAt s r.m r.q r.n = some r' :=
    Option.isSome_iff_exists.mp (List.find?_isSome.mpr ⟨r, hr, by simp⟩)
  rw [makeLate, hfind] at hz
  obtain ⟨y, -, rfl⟩ := List.mem_map.mp hz
  split
  · rfl
  · next hother =>
    rw [if_neg hother] at hm hq hn
    exact absurd ⟨hm, hq, hn⟩ hother

theorem exec_recordRelease {m : Nat} {s : State} {r0 x : Rec} (hfirst : s.slices.recs.find? (fun r => r.m == m) = some r0)
    (late : Bool) (hlate : late = (r0.kind == .print && r0.assigned && mapPoisoned s (mp m r0.q) r0.n))
    (hx : (planPlane (if late then makeLate s m r0.q r0.n else s) (mp m r0.q)).slices.recs.find? (fun r => r.m == m) = some x)
    (hmay : mayRelease (planPlane (if late then makeLate s m r0.q r0.n else s) (mp m r0.q)) x = true) :
    exec (.recordRelease m) s =
      .next (releaseRecord (planPlane (if late then makeLate s m r0.q r0.n else s) (mp m r0.q)) x) := by
  subst hlate
  show execRecordRelease m s = _
  simp only [execRecordRelease, hfirst, hx, hmay, if_true]

theorem recordRelease_answers {m : Nat} {s : State} {r0 x : Rec}
    (hfirst : s.slices.recs.find? (fun r => r.m == m) = some r0) (late : Bool)
    (hlate : late = (r0.kind == .print && r0.assigned && mapPoisoned s (mp m r0.q) r0.n)) (s1 : State)
    (hs1 : s1 = planPlane (if late then makeLate s m r0.q r0.n else s) (mp m r0.q))
    (hx : s1.slices.recs.find? (fun r => r.m == m) = some x) (hmay : mayRelease s1 x = true) :
    Answers (.recordRelease m) s (fun t => ∃ y : Rec, t.dxl.replay = s.dxl.replay ++ [y] ∧ y.m = x.m ∧ y.q = x.q ∧
      y.n = x.n ∧ y.kind = x.kind ∧ y.rseq = mapGet 0 s.dxl.rseq (mp x.m x.q) ∧
      y.levels = (x.levels.filter fun l => x.picks.any fun p => p.1 == l.1) ∧
      t.slices.recs = s1.slices.recs.filter (fun z => !(z.m == x.m && z.q == x.q && z.n == x.n)) ∧
      (late = true → x.m = r0.m ∧ x.q = r0.q ∧ x.n = r0.n → y.kind = .late)) := by
  have hm : r0.m = m := by simpa using List.find?_some hfirst
  have hr0 := List.mem_of_find?_eq_some hfirst
  have hdxl : s1.dxl = s.dxl := by
    rw [hs1]
    show (if late then makeLate s m r0.q r0.n else s).dxl = s.dxl
    split
    · exact makeLate_dxl s m r0.q r0.n
    · rfl
  obtain ⟨hreplay, hrecs⟩ := releaseRecord_effect s1 x
  have hexec := exec_recordRelease hfirst late hlate (hs1 ▸ hx) (hs1 ▸ hmay)
  rw [← hs1] at hexec
  refine ⟨_, hexec, sentRec s1 x, ?_, rfl, rfl, rfl, rfl, ?_, rfl, hrecs, fun hl ⟨hxm, hxq, hxn⟩ => ?_⟩
  · rw [hreplay, hdxl]
  · show mapGet 0 s1.dxl.rseq _ = _
    rw [hdxl]
  · have hxmem := List.mem_of_find?_eq_some hx
    rw [hs1, if_pos hl, ← hm] at hxmem
    obtain ⟨z, hz, hplace⟩ := mem_planPlane hxmem
    simp only [recPlace, Prod.mk.injEq] at hplace
    obtain ⟨hzm, hzq, hzn, hzk⟩ := hplace
    exact hzk.symm.trans (makeLate_kind hr0 hz (hzm.trans hxm) (hzq.trans hxq) (hzn.trans hxn))

/-! The end of every PRINTING page (R145, R162). -/

/-- The pages that print are among those of the ids given. -/
def PrintingAmong (ids : List Dword) (s : State) : Prop := ∀ p ∈ s.pages.list, p.state = .printing → p.id ∈ ids

/-- A page that ends while PRINTING (R80). -/
def cutShortPage (cuts : List (Nat × Int)) (x : Page) : Page := { x with state := .aborted, cut := true, cuts := cuts }

theorem cutPage_pages (s : State) (p : Page) (cuts : List (Nat × Int)) :
    (cutPage s p cuts).pages = (setPage s p.id (cutShortPage cuts)).pages := by
  have hmarks (u : State) : (markCuts u p cuts).pages = u.pages := by
    unfold markCuts
    split <;> rfl
  unfold cutPage
  dsimp only
  split
  · exact ((returnBand_within _ p _).untouched State.pages).trans (hmarks _)
  · exact hmarks _

/-- A page that retires, `cut` where it was cut (R79). -/
def retiredPage (cut : Bool) (x : Page) : Page := { x with holds := false, state := if cut then .aborted else .done }

theorem retirePage_pages (s : State) (p : Page) : (retirePage s p).pages = (setPage s p.id (retiredPage p.cut)).pages :=
  (raise_within _ _ _).untouched State.pages

theorem cutPage_printing {ids : List Dword} {s : State} {p : Page} (h : PrintingAmong (p.id :: ids) s)
    (cuts : List (Nat × Int)) : PrintingAmong ids (cutPage s p cuts) := by
  intro x hx hprints
  rw [cutPage_pages] at hx
  obtain ⟨y, hy, rfl⟩ := List.mem_map.mp hx
  split at hprints
  · cases hprints
  · next hid =>
    rw [if_neg hid]
    exact (List.mem_cons.mp (h y hy hprints)).resolve_left hid

theorem retirePage_printing {ids : List Dword} {s : State} (h : PrintingAmong ids s) (p : Page) :
    PrintingAmong ids (retirePage s p) := by
  intro x hx hprints
  rw [retirePage_pages] at hx
  obtain ⟨y, hy, rfl⟩ := List.mem_map.mp hx
  split at hprints
  · cases hc : p.cut <;> simp [retiredPage, hc] at hprints
  · next hid =>
    rw [if_neg hid]
    exact h y hy hprints

theorem retirePages_printing {ids : List Dword} {s : State} (h : PrintingAmong ids s) : PrintingAmong ids (retirePages s) :=
  List.foldlRecOn _ retirePage h fun _ ht p _ => retirePage_printing ht p

/-- Ending one page leaves one id fewer among those that print. -/
theorem foldl_endPage_printing (cause : Nat) (ps : List Page) {s : State} (h : PrintingAmong (ps.map Page.id) s) :
    PrintingAmong [] (ps.foldl (fun t p =>
      retirePages (tellPageEnd (cutPage t p (cutLines t p)) p.id cause ((cutLines t p).map Prod.snd))) s) := by
  induction ps generalizing s with
  | nil => exact h
  | cons p ps ih =>
    refine ih (retirePages_printing ?_)
    have htold (u : State) (words : List Qword) : (tellServitor u 4 words).pages = u.pages :=
      (tellServitor_within u 4 words).untouched State.pages
    unfold PrintingAmong tellPageEnd
    rw [htold]
    exact cutPage_printing h _

theorem endPrinting_printing (s : State) (cause : Nat) : PrintingAmong [] (endPrinting s cause) := by
  refine foldl_endPage_printing cause _ fun p hp hprints => List.mem_map_of_mem (List.mem_filter.mpr ⟨hp, ?_⟩)
  rw [hprints]
  rfl

/-- `s` with what ending the PRINTING pages may touch taken from `t` (R80, R145, R268). -/
def printingEnded (s t : State) : State :=
  { reported s t with
      pages := { s.pages with list := t.pages.list }, slices := { s.slices with recs := t.slices.recs }
      asy := { s.asy with due := t.asy.due, cutMarks := t.asy.cutMarks }
      par := { s.par with mseqTx := t.par.mseqTx } }

theorem endPrinting_within (s : State) (cause : Nat) : Within printingEnded s (endPrinting s cause) := by
  have hend (t : State) (p : Page) : Within printingEnded t
      (retirePages (tellPageEnd (cutPage t p (cutLines t p)) p.id cause ((cutLines t p).map Prod.snd))) :=
    ((cutPage_within t p _).andThen (F := printingEnded) (tellServitor_within _ 4 _)).andThen (retirePages_within _)
  exact .foldl hend _ s

theorem overspeedEnd_printing {s : State} (h : servitor s = false) (cause : Nat) : PrintingAmong [] (overspeedEnd s cause) := by
  unfold overspeedEnd
  dsimp only
  split
  · next hnone =>
    have hids : (printingPages s).map Page.id = [] := by simpa [h] using hnone
    intro p hp hprints
    have hmem : p ∈ printingPages s := List.mem_filter.mpr ⟨hp, by rw [hprints]; rfl⟩
    exact absurd hmem (List.map_eq_nil_iff.mp hids ▸ List.not_mem_nil)
  · unfold PrintingAmong
    rw [(raise_within _ _ _).untouched State.pages]
    exact endPrinting_printing s cause

theorem overspeedEnd_csc (s : State) (cause : Nat) : (overspeedEnd s cause).csc = s.csc := by
  unfold overspeedEnd
  dsimp only
  split
  · rfl
  · exact ((raise_within _ _ _).untouched State.csc).trans ((endPrinting_within s cause).untouched State.csc)

/-- Settles O18: a release notes the record outside the link and the queue, then numbers and sends it; ending each PRINTING page
in turn leaves none that prints. -/
theorem releases : Obligations.Releases := by
  constructor
  · intro m s r0 x hfirst late s1 hx hmay
    exact recordRelease_answers hfirst late rfl s1 rfl hx hmay
  · intro s hrun hown
    refine ⟨_, if_neg (Nat.not_lt.mpr hrun), ?_, fun p hp hprints => ?_⟩
    · rw [overspeedEnd_csc]
    · exact absurd (overspeedEnd_printing (s := { s with csc := { s.csc with overRun := 0 } }) hown 2 p hp hprints)
        List.not_mem_nil

end Sys2Proof.Machine
end

section
/-! SUPPORT. Pages by their ids: what a change of one page, and what resolving, retiring and removing pages leave of the others
(R51, R52, R79, R80). -/

set_option Elab.async false

namespace Sys2Proof.Machine

theorem pageOf_id {s : State} {id : Dword} {p : Page} (h : pageOf s id = some p) : p.id = id := by
  simpa using List.find?_some h

theorem pageOf_congr {s t : State} (h : t.pages = s.pages) (id : Dword) : pageOf t id = pageOf s id := by
  unfold pageOf
  rw [h]

theorem pageOf_setPage_self (s : State) (id : Dword) {f : Page → Page} (hf : ∀ p, (f p).id = p.id) :
    pageOf (setPage s id f) id = (pageOf s id).map f := by
  have found : ∀ p : Page, ((if p.id = id then f p else p).id == id) = (p.id == id) := fun p => by split <;> simp [hf]
  simp only [pageOf, setPage, List.find?_map, Function.comp_def, found]
  cases hp : s.pages.list.find? fun p => p.id == id with
  | none => rfl
  | some p => exact congrArg some (if_pos (pageOf_id hp))

/-- A change of pages that keeps their ids leaves the ids in the list. -/
theorem ids_of_setPage {s t : State} {id : Dword} {f : Page → Page} (h : t.pages.list = (setPage s id f).pages.list)
    (hf : ∀ p, (f p).id = p.id) : t.pages.list.map Page.id = s.pages.list.map Page.id :=
  (congrArg (List.map Page.id) h).trans (setPage_ids s id f hf)

/-- Every page of the id has the property. -/
def AllOf (id : Dword) (P : Page → Prop) (s : State) : Prop := ∀ p ∈ s.pages.list, p.id = id → P p

theorem AllOf.congr {id : Dword} {P : Page → Prop} {s t : State} (h : AllOf id P s) (hpages : t.pages.list = s.pages.list) :
    AllOf id P t := by
  unfold AllOf
  rwa [hpages]

/-- A change of pages that keeps the property keeps it of every page of the id. -/
theorem AllOf.setPage {id : Dword} {P : Page → Prop} {s : State} (h : AllOf id P s) {j : Dword} {f : Page → Page}
    (hid : ∀ p, (f p).id = p.id) (hf : ∀ p, P p → j = id → P (f p)) : AllOf id P (setPage s j f) := by
  intro x hx hxid
  obtain ⟨y, hy, rfl⟩ := List.mem_map.mp hx
  split
  · next hj =>
    rw [if_pos hj, hid] at hxid
    exact hf y (h y hy hxid) (hj.symm.trans hxid)
  · next hj =>
    rw [if_neg hj] at hxid
    exact h y hy hxid

/-- A change of the pages of an id gives every one of them what it makes. -/
theorem AllOf.of_setPage {id : Dword} {P : Page → Prop} (s : State) {f : Page → Page} (hf : ∀ p, P (f p)) :
    AllOf id P (Machine.setPage s id f) := by
  intro x hx hxid
  obtain ⟨y, -, rfl⟩ := List.mem_map.mp hx
  split
  · exact hf y
  · next hj =>
    rw [if_neg hj] at hxid
    exact absurd hxid hj

/-- Where the ids in the list are as before, a page that was there still is, with what holds of every page of its id. -/
theorem AllOf.pageOf {id : Dword} {P : Page → Prop} {s t : State} {p : Page} (h : AllOf id P t)
    (hids : t.pages.list.map Page.id = s.pages.list.map Page.id) (hp : pageOf s id = some p) :
    ∃ q, Machine.pageOf t id = some q ∧ P q := by
  have hmem : id ∈ t.pages.list.map Page.id := by
    rw [hids, ← pageOf_id hp]
    exact List.mem_map_of_mem (List.mem_of_find?_eq_some hp)
  obtain ⟨x, hx, hxid⟩ := List.mem_map.mp hmem
  obtain ⟨q, hq⟩ : ∃ q, Machine.pageOf t id = some q :=
    Option.isSome_iff_exists.mp (List.find?_isSome.mpr ⟨x, hx, by simp [hxid]⟩)
  exact ⟨q, hq, h q (List.mem_of_find?_eq_some hq) (pageOf_id hq)⟩

/-! Resolution (R51, R52). -/

theorem tellPage_pages (s : State) (p : Page) (state : Nat) : (tellPage s p state).pages = s.pages :=
  (tellPage_within s p state).untouched State.pages

/-- A page that resolves at a line (R51). -/
def startedAt (line : Int) (x : Page) : Page := { x with n0 := some (wrapS 64 line), cueSkips := 0 }

theorem resolvePage_list (s : State) (id : Dword) (line : Int) :
    (resolvePage s id line).pages.list = (setPage s id (startedAt line)).pages.list := by
  unfold resolvePage
  dsimp only
  split
  · next hnone =>
    have hother : ∀ p ∈ s.pages.list, (if p.id = id then startedAt line p else p) = p :=
      fun p hp => if_neg (by simpa using List.find?_eq_none.mp hnone p hp)
    exact ((List.map_congr_left hother).trans (List.map_id _)).symm
  · next p _ =>
    rw [tellPage_pages, (reportSkips_within _ p).untouched State.pages]
    rfl

theorem resolveChained_list (s : State) (p : Page) :
    (resolveChained s p).pages.list = (setPage s p.id (startedAt (chainedStart s p).1)).pages.list :=
  (resolvePage_list _ _ _).trans
    (congrArg (List.map _) (congrArg Pages.list ((raiseIf_within _ s _ _).untouched State.pages)))

theorem resolveChain_allOf {id : Dword} {P : Page → Prop} (hP : ∀ line x, P x → P (startedAt line x)) {s : State}
    (h : AllOf id P s) (fuel : Nat) : AllOf id P (resolveChain s fuel) := by
  induction fuel generalizing s with
  | zero => exact h
  | succ fuel ih =>
    unfold resolveChain
    split
    · exact h
    · next p _ =>
      split
      · exact h
      · exact ih ((h.setPage (f := startedAt _) (fun _ => rfl) fun x hx _ => hP _ x hx).congr (resolveChained_list s p))

theorem resolveChain_ids (s : State) (fuel : Nat) :
    (resolveChain s fuel).pages.list.map Page.id = s.pages.list.map Page.id := by
  induction fuel generalizing s with
  | zero => rfl
  | succ fuel ih =>
    unfold resolveChain
    split
    · rfl
    · next p _ =>
      split
      · rfl
      · exact (ih _).trans (ids_of_setPage (resolveChained_list s p) fun _ => rfl)

/-! Removal, cut and retirement (R79, R80). -/

/-- A page that is removed (R80). -/
def removedPage (x : Page) : Page := { freed x with state := .aborted, cueSkips := 0 }

theorem removePage_pages (s : State) (p : Page) : (removePage s p).pages = (setPage s p.id removedPage).pages := by
  have hskips (u : State) : (reportSkips (uncover u p) p).pages = u.pages := by
    rw [(reportSkips_within _ p).untouched State.pages]
    unfold uncover
    split <;> rfl
  unfold removePage
  dsimp only
  split
  · split
    · exact ((returnBand_within _ p _).untouched State.pages).trans (hskips _)
    · exact hskips _
  · exact hskips _

theorem retirePage_ids (s : State) (p : Page) : (retirePage s p).pages.list.map Page.id = s.pages.list.map Page.id :=
  ids_of_setPage (congrArg Pages.list (retirePage_pages s p)) fun _ => rfl

theorem retirePages_ids (s : State) : (retirePages s).pages.list.map Page.id = s.pages.list.map Page.id :=
  foldl_keeps (fun t => t.pages.list.map Page.id) retirePage retirePage_ids _ s

/-- A cut page is ABORTED and cut at the lines given (R79, R80). -/
def CutAt (cuts : List (Nat × Int)) (p : Page) : Prop := p.state = .aborted ∧ p.cut = true ∧ p.cuts = cuts

/-- A cut page that retires stays ABORTED. -/
theorem retirePages_cutAt {id : Dword} {cuts : List (Nat × Int)} {s : State} (h : AllOf id (CutAt cuts) s) :
    AllOf id (CutAt cuts) (retirePages s) := by
  refine List.foldlRecOn _ retirePage h fun t ht p hp => ?_
  have hcut (hid : p.id = id) : p.cut = true := by
    obtain ⟨-, hpcut, -⟩ := h p (List.mem_of_mem_filter hp) hid
    exact hpcut
  refine (ht.setPage (f := retiredPage p.cut) (fun _ => rfl) fun x hx hid => ?_).congr
    (congrArg Pages.list (retirePage_pages t p))
  obtain ⟨-, hxcut, hxcuts⟩ := hx
  exact ⟨if_pos (hcut hid), hxcut, hxcuts⟩

end Sys2Proof.Machine
end

section
/-! SUPPORT. Admission, abort and status of a page: each command at its turn (R78, R80, R243, R273, R395, R399, R400). -/

set_option Elab.async false

namespace Sys2Proof.Machine

/-! PAGE_COMMIT (R78, R243). -/

/-- A page as it enters ADMITTED (R78, R243). -/
def admittedPage (s : State) (p : Page) (thin : Bool) (planes : List Nat) : Page :=
  { p with state := .admitted, adm := s.pages.nextAdm, thin := thin, band := bandOf s planes }

theorem attachBand_pages (s : State) (planes : List Nat) : (attachBand s planes).pages = s.pages := by
  unfold attachBand
  dsimp only
  split
  · rfl
  · exact (count_within _ _).untouched State.pages

theorem enterAdmitted_pageOf {s : State} {p : Page} (hp : pageOf s p.id = some p) (thin : Bool) (planes : List Nat) :
    pageOf (enterAdmitted s p thin planes) p.id = some (admittedPage s p thin planes) := by
  have hset := pageOf_setPage_self s p.id
    (f := fun x => { x with state := .admitted, adm := s.pages.nextAdm, thin := thin, band := bandOf s planes }) fun _ => rfl
  rw [hp] at hset
  exact (pageOf_congr (attachBand_pages _ planes) p.id).trans hset

theorem enterAdmitted_numbers (s : State) (p : Page) (thin : Bool) (planes : List Nat) :
    (enterAdmitted s p thin planes).pages.nextAdm = s.pages.nextAdm + 1 ∧
    (enterAdmitted s p thin planes).pages.lastEnd = s.pages.lastEnd := by
  unfold enterAdmitted
  dsimp only
  rw [attachBand_pages]
  exact ⟨rfl, rfl⟩

theorem resolvePage_pageOf {s : State} {id : Dword} {p : Page} (hp : pageOf s id = some p) (line : Int) :
    pageOf (resolvePage s id line) id = some (startedAt line p) := by
  have hset := pageOf_setPage_self s id (f := startedAt line) fun _ => rfl
  rw [hp] at hset
  exact (congrArg (List.find? fun x : Page => x.id == id) (resolvePage_list s id line)).trans hset

theorem resolveChained_pageOf {s : State} {p : Page} (hp : pageOf s p.id = some p) :
    pageOf (resolveChained s p) p.id = some (startedAt (chainedStart s p).1 p) :=
  resolvePage_pageOf ((pageOf_congr ((raiseIf_within _ s _ _).untouched State.pages) p.id).trans hp) _

/-- The start of a chained page is the same before and after it enters ADMITTED. -/
theorem chainedStart_enterAdmitted (s : State) (p : Page) (thin : Bool) (planes : List Nat) :
    chainedStart (enterAdmitted s p thin planes) (admittedPage s p thin planes) = chainedStart s p := by
  have hearliest : earliestStart (enterAdmitted s p thin planes) = earliestStart s :=
    (enterAdmitted_within s p thin planes).untouched earliestStart
  have hprev : ePrev (enterAdmitted s p thin planes) = ePrev s :=
    congrArg (·.getD minI64) (enterAdmitted_numbers s p thin planes).2
  unfold chainedStart
  rw [hearliest, hprev]
  rfl

/-- The state in which an admitted page has taken what start it can (R51, R52). -/
def startAdmitted (s : State) (p : Page) : State :=
  let s1 := enterAdmitted s p (!e5 s) (bandPlanesNow s)
  let q := admittedPage s p (!e5 s) (bandPlanesNow s)
  if (startNow s p).2 ≠ 0 then tellPage s1 q 0
  else if p.startMode = 2 then resolvePage s1 p.id p.startLine else resolveChained s1 q

theorem startNow_line {s : State} {p : Page} (hmode : p.startMode = 2) (hfirst : firstUnresolved s = none) :
    startNow s p = (some p.startLine, 0) := by
  simp [startNow, hmode, hfirst]

theorem startNow_chained {s : State} {p : Page} (hmode : p.startMode < 2) (hfirst : firstUnresolved s = none) :
    (startNow s p).2 = 0 := by
  have h3 : p.startMode ≠ 3 := by omega
  have h2 : p.startMode ≠ 2 := by omega
  simp [startNow, h3, h2, hfirst]

theorem startNow_cue {s : State} {p : Page} (hmode : p.startMode = 3) : (startNow s p).2 = 1 := by
  simp [startNow, hmode]

theorem startAdmitted_pageOf {s : State} {p : Page} (hp : pageOf s p.id = some p)
    (hline : p.startMode = 2 → firstUnresolved s = none) :
    ∃ q, pageOf (startAdmitted s p) p.id = some q ∧ q.state = .admitted ∧ q.adm = s.pages.nextAdm ∧ q.thin = !e5 s ∧
      q.lines = p.lines ∧ (p.startMode = 2 → q.n0 = some (wrapS 64 p.startLine)) ∧
      (p.startMode < 2 → firstUnresolved s = none → q.n0 = some (wrapS 64 (chainedStart s p).1)) ∧
      (p.startMode = 3 → q.n0 = p.n0) := by
  have hadm := enterAdmitted_pageOf hp (!e5 s) (bandPlanesNow s)
  unfold startAdmitted
  dsimp only
  split
  · next hcode =>
    refine ⟨_, (pageOf_congr (tellPage_pages _ _ _) p.id).trans hadm, rfl, rfl, rfl, rfl, ?_, ?_, fun _ => rfl⟩
    · exact fun hmode => absurd (congrArg Prod.snd (startNow_line hmode (hline hmode))) hcode
    · exact fun hmode hfirst => absurd (startNow_chained hmode hfirst) hcode
  · next hcode =>
    split
    · next hmode =>
      refine ⟨_, resolvePage_pageOf hadm _, rfl, rfl, rfl, rfl, fun _ => rfl, ?_, ?_⟩
      · exact fun h => absurd hmode (Nat.ne_of_lt h)
      · exact fun h => absurd (hmode.symm.trans h) (by decide)
    · next hmode =>
      refine ⟨_, resolveChained_pageOf hadm, rfl, rfl, rfl, rfl, fun h => absurd h hmode, fun _ _ => ?_, fun h => ?_⟩
      · exact congrArg (fun x : Int × Bool => some (wrapS 64 x.1)) (chainedStart_enterAdmitted s p _ _)
      · rw [startNow_cue h] at hcode
        exact absurd Nat.one_ne_zero hcode

theorem startAdmitted_nextAdm (s : State) (p : Page) : (startAdmitted s p).pages.nextAdm = s.pages.nextAdm + 1 := by
  have hadm := (enterAdmitted_numbers s p (!e5 s) (bandPlanesNow s)).1
  unfold startAdmitted
  dsimp only
  split
  · exact ((tellPage_within _ _ 0).untouched (·.pages.nextAdm)).trans hadm
  · split
    · exact ((resolvePage_within _ _ _).untouched (·.pages.nextAdm)).trans hadm
    · exact ((resolveChained_within _ _).untouched (·.pages.nextAdm)).trans hadm

/-- A LOADED page whose checks all pass is admitted by a chip that decides for itself (R78). -/
theorem commitOwn_ok {s : State} {p : Page} (hp : pageOf s p.id = some p) (hstate : p.state = .loaded)
    (hreserve : reserveFail s p = none) (href : s.ftb.lineRef = none)
    (hline : p.startMode = 2 → firstUnresolved s = none ∧ ePrev s < p.startLine ∧ earliestStart s ≤ p.startLine) :
    ∃ res, commitOwn s p = okWith (startAdmitted s p) res := by
  obtain ⟨hearly, hpassed⟩ : (p.startMode == 2 && decide ((startNow s p).1.getD 0 ≤ ePrev s)) = false ∧
      (p.startMode == 2 && decide ((startNow s p).1.getD 0 < earliestStart s)) = false := by
    by_cases hmode : p.startMode = 2
    · obtain ⟨hfirst, hprev, hearliest⟩ := hline hmode
      rw [startNow_line hmode hfirst]
      simp [hprev, hearliest]
    · simp [hmode]
  obtain ⟨q, hq, -⟩ := startAdmitted_pageOf hp fun hmode => (hline hmode).1
  unfold startAdmitted at hq ⊢
  unfold commitOwn
  dsimp only at hq ⊢
  rw [hearly, hpassed]
  simp only [href, hstate, hreserve, firstFail_cons, firstFail_nil, Option.isSome_none, bne_self_eq_false, Bool.false_eq_true,
    if_false, enterAdmitted_pageOf hp, hq]
  exact ⟨_, rfl⟩

/-! The common part of the command. -/

theorem commitFailsEarly_turn {e : Entry} {s : State} {r : InFlight} (hT : Turn 0x0104 e s r) : commitFailsEarly e s = false := by
  obtain ⟨-, hrecord, hcommon⟩ := hT
  simp [commitFailsEarly, hrecord, hcommon]

theorem not_stale_alone {stale enabled : Bool} (h : stale = false ∨ enabled = true) : ¬ (stale = true ∧ enabled = false) := by
  rintro ⟨rfl, rfl⟩
  exact h.elim Bool.noConfusion Bool.noConfusion

section
variable {e : Entry} {s : State} {r : InFlight} {p : Page}

theorem exec_pageCommit_own (hT : Turn 0x0104 e s r) (hrsv : rsvOk e [allBits] = true) (hp : pageOf s (pw e 0) = some p)
    (hstate : p.state = .loaded) (hprint : s.pwr.state = .print) (hstale : s.pwr.stale = false ∨ s.par.enabled = true)
    (hown : servitor s = false) (hline : p.startMode = 2 → firstUnresolved s = none) :
    exec (.pageCommit e) s = .next (settle s r (commitOwn s p)) := by
  have hpower := not_stale_alone hstale
  have hwait : ¬ (p.startMode = 2 ∧ (firstUnresolved s).isSome = true) := by
    rintro ⟨hmode, hsome⟩
    rw [hline hmode] at hsome
    cases hsome
  refine congrArg Host.Outcome.next ?_
  rw [pageCommit, commitFailsEarly_turn hT, if_neg Bool.false_ne_true, command_turn hT]
  simp [hrsv, hp, hstate, hprint, hpower, hown, hwait]

theorem exec_pageCommit_servitor (hT : Turn 0x0104 e s r) (hrsv : rsvOk e [allBits] = true)
    (hp : pageOf s (pw e 0) = some p) (hstate : p.state = .loaded) (hprint : s.pwr.state = .print)
    (hstale : s.pwr.stale = false ∨ s.par.enabled = true) (hserv : servitor s = true)
    {m : Dword × Nat × Bool × Nat × Int × Nat} (hm : s.par.pageMsgs.find? (fun m => m.1 == p.id) = some m) :
    exec (.pageCommit e) s = .next (settle s r (commitServitor s p m)) := by
  have hpower := not_stale_alone hstale
  refine congrArg Host.Outcome.next ?_
  rw [pageCommit, commitFailsEarly_turn hT, if_neg Bool.false_ne_true, command_turn hT]
  simp [hrsv, hp, hstate, hprint, hpower, hserv, hm]

end

/-- PAGE_COMMIT of a LOADED page by a chip that decides for itself (R78). -/
theorem pageCommit_own_answers {e : Entry} {s : State} {r : InFlight} {p : Page} (hT : Turn 0x0104 e s r)
    (hrsv : rsvOk e [allBits] = true) (hp : pageOf s (pw e 0) = some p) (hstate : p.state = .loaded)
    (hprint : s.pwr.state = .print) (hstale : s.pwr.stale = false ∨ s.par.enabled = true) (hreserve : reserveFail s p = none)
    (hown : servitor s = false) (href : s.ftb.lineRef = none)
    (hline : p.startMode = 2 → firstUnresolved s = none ∧ ePrev s < p.startLine ∧ earliestStart s ≤ p.startLine) :
    Answers (.pageCommit e) s (fun t => ∃ (u : State) (q : Page) (res : List Dword), t = finish u r stOk res ∧
      pageOf u p.id = some q ∧ q.state = .admitted ∧ q.adm = s.pages.nextAdm ∧ u.pages.nextAdm = s.pages.nextAdm + 1 ∧
      q.thin = !e5 s ∧ q.lines = p.lines ∧ (p.startMode = 2 → q.n0 = some (wrapS 64 p.startLine)) ∧
      (p.startMode < 2 → firstUnresolved s = none → q.n0 = some (wrapS 64 (chainedStart s p).1)) ∧
      (p.startMode = 3 → q.n0 = p.n0)) := by
  have hself : pageOf s p.id = some p := by rw [pageOf_id hp, hp]
  have hfirst : p.startMode = 2 → firstUnresolved s = none := fun hmode => (hline hmode).1
  obtain ⟨res, hcommit⟩ := commitOwn_ok hself hstate hreserve href hline
  obtain ⟨q, hq, hadmitted, hadm, hthin, hlines, hstart⟩ := startAdmitted_pageOf hself hfirst
  have hexec := exec_pageCommit_own hT hrsv hp hstate hprint hstale hown hfirst
  rw [hcommit] at hexec
  exact ⟨_, hexec, _, q, res, rfl, hq, hadmitted, hadm, startAdmitted_nextAdm s p, hthin, hlines, hstart⟩

/-! A servitor's PAGE_COMMIT (R273). -/

/-- The gaffer's PAGE message, once the page is taken by it, and its page with a shadow. -/
def messageTaken (s : State) (p : Page) (m : Dword × Nat × Bool × Nat × Int × Nat) : State :=
  { s with par := { s.par with pageMsgs := s.par.pageMsgs.erase m
                               unshadowed := s.par.unshadowed.filter fun u => u.1 != p.id } }

/-- The state in which a servitor has admitted a page as the gaffer's PAGE message says (R273). -/
def admittedAs (s : State) (p : Page) (m : Dword × Nat × Bool × Nat × Int × Nat) : State :=
  let s1 := enterAdmitted (messageTaken s p m) p m.2.2.1 ((List.range 16).filter fun k => m.2.2.2.1.testBit k)
  if m.2.1 = 1 then resolvePage s1 p.id m.2.2.2.2.1 else s1

theorem admittedAs_pageOf {s : State} {p : Page} (hp : pageOf s p.id = some p) (m : Dword × Nat × Bool × Nat × Int × Nat) :
    ∃ q, pageOf (admittedAs s p m) p.id = some q ∧ q.state = .admitted ∧ q.adm = s.pages.nextAdm ∧ q.thin = m.2.2.1 ∧
      (m.2.1 = 1 → q.n0 = some (wrapS 64 m.2.2.2.2.1)) := by
  have hadm := enterAdmitted_pageOf (s := messageTaken s p m) hp m.2.2.1 ((List.range 16).filter fun k => m.2.2.2.1.testBit k)
  unfold admittedAs
  dsimp only
  split
  · exact ⟨_, resolvePage_pageOf hadm _, rfl, rfl, rfl, fun _ => rfl⟩
  · next hstate => exact ⟨_, hadm, rfl, rfl, rfl, fun h => absurd h hstate⟩

theorem attachBand_par (s : State) (planes : List Nat) : (attachBand s planes).par = s.par := by
  unfold attachBand
  dsimp only
  split
  · rfl
  · exact (count_within _ _).untouched State.par

theorem admittedAs_pageMsgs (s : State) (p : Page) (m : Dword × Nat × Bool × Nat × Int × Nat) :
    (admittedAs s p m).par.pageMsgs = s.par.pageMsgs.erase m := by
  have hadm (planes : List Nat) : (enterAdmitted (messageTaken s p m) p m.2.2.1 planes).par.pageMsgs = s.par.pageMsgs.erase m :=
    congrArg (·.pageMsgs) (attachBand_par _ planes)
  unfold admittedAs
  dsimp only
  split
  · exact ((resolvePage_within _ _ _).untouched (·.par.pageMsgs)).trans (hadm _)
  · exact hadm _

theorem commitServitor_ok {s : State} {p : Page} (hp : pageOf s p.id = some p) (hstate : p.state = .loaded)
    (hreserve : reserveFail s p = none) {m : Dword × Nat × Bool × Nat × Int × Nat} (hm : m.2.1 ≠ 2) :
    ∃ res, commitServitor s p m = okWith (admittedAs s p m) res := by
  obtain ⟨q, hq, -⟩ := admittedAs_pageOf hp m
  unfold admittedAs messageTaken at hq ⊢
  dsimp only at hq ⊢
  simp only [commitServitor, hstate, hm, hreserve, hq, ne_eq, not_true_eq_false, if_false]
  exact ⟨_, rfl⟩

/-! PAGE_ABORT (R80, R400). -/

theorem endWaitingCommit_pages (s : State) (id : Dword) : (endWaitingCommit s id).pages = s.pages := by
  unfold endWaitingCommit
  split
  · next r _ =>
    exact ((tellServitor_within _ 3 _).untouched State.pages).trans ((finish_within s r _ _).untouched State.pages)
  · rfl

/-- What is left of a page that is removed (R80). -/
def Removed (p : Page) : Prop := p.state = .aborted ∧ p.holds = false ∧ p.blocks = []

/-- Aborting a LOADED or ADMITTED page removes it. -/
theorem abortPage_removes {s : State} {p : Page} (hp : pageOf s p.id = some p) (hstate : p.state = .loaded ∨ p.state = .admitted)
    (cuts : List (Nat × Int)) : ∃ q, pageOf (abortPage s p cuts) p.id = some q ∧ Removed q := by
  have habort : abortPage s p cuts = endWaitingCommit (resolveAll (removePage s p)) p.id := by
    obtain h | h := hstate <;> simp only [abortPage, h]
  have hremoved : AllOf p.id Removed (removePage s p) :=
    (AllOf.of_setPage s (f := removedPage) fun _ => ⟨rfl, rfl, rfl⟩).congr (congrArg Pages.list (removePage_pages s p))
  have hids : (removePage s p).pages.list.map Page.id = s.pages.list.map Page.id :=
    ids_of_setPage (congrArg Pages.list (removePage_pages s p)) fun _ => rfl
  have hall : AllOf p.id Removed (resolveAll (removePage s p)) := resolveChain_allOf (fun _ _ h => h) hremoved _
  rw [habort, pageOf_congr (endWaitingCommit_pages _ _)]
  exact hall.pageOf ((resolveChain_ids _ _).trans hids) hp

/-- Aborting a PRINTING page cuts it. -/
theorem abortPage_cuts {s : State} {p : Page} (hp : pageOf s p.id = some p) (hstate : p.state = .printing)
    (cuts : List (Nat × Int)) : ∃ q, pageOf (abortPage s p cuts) p.id = some q ∧ CutAt cuts q := by
  have habort : abortPage s p cuts = resolveAll (retirePages (cutPage s p cuts)) := by simp only [abortPage, hstate]
  have hcut : AllOf p.id (CutAt cuts) (cutPage s p cuts) :=
    (AllOf.of_setPage s (f := cutShortPage cuts) fun _ => ⟨rfl, rfl, rfl⟩).congr (congrArg Pages.list (cutPage_pages s p cuts))
  have hids : (cutPage s p cuts).pages.list.map Page.id = s.pages.list.map Page.id :=
    ids_of_setPage (congrArg Pages.list (cutPage_pages s p cuts)) fun _ => rfl
  have hall : AllOf p.id (CutAt cuts) (resolveAll (retirePages (cutPage s p cuts))) :=
    resolveChain_allOf (fun _ _ h => h) (retirePages_cutAt hcut) _
  rw [habort]
  exact hall.pageOf ((resolveChain_ids _ _).trans ((retirePages_ids _).trans hids)) hp

/-- PAGE_ABORT of a page that has not ended, by a chip that decides for itself: the servitor is told of it where it is active, and
the page ends (R80, R400). -/
theorem exec_pageAbort {e : Entry} {s : State} {r : InFlight} {p : Page} (hT : Turn 0x0105 e s r)
    (hrsv : rsvOk e [allBits] = true) (hp : pageOf s (pw e 0) = some p) (hown : servitor s = false)
    (hlive : ¬ (p.state = .done ∨ p.state = .aborted)) (cuts : List (Nat × Int))
    (hcuts : cuts = if p.state = .printing then cutLines s p else []) :
    ∃ v, v.pages = s.pages ∧ exec (.pageAbort e) s = .next (finish (abortPage v p cuts) r stOk (abortResult p cuts)) := by
  have htold (lines : List Int) : (if pageActive p then tellPageEnd s p.id 1 lines else s).pages = s.pages := by
    split
    · exact (tellServitor_within s 4 _).untouched State.pages
    · rfl
  have hexec : exec (.pageAbort e) s = .next (pageAbort e s) := rfl
  rw [hexec, pageAbort, command_turn hT]
  simp only [hrsv, hp, hown, hlive, Bool.not_true, Bool.false_and, Bool.false_eq_true, if_false, settle_okWith, ← hcuts]
  exact ⟨_, htold _, rfl⟩

theorem exec_pageStatus {e : Entry} {s : State} {r : InFlight} {p : Page} (hT : Turn 0x0106 e s r)
    (hrsv : rsvOk e [allBits] = true) (hp : pageOf s (pw e 0) = some p) :
    ∃ rest : List Dword, exec (.pageStatus e) s =
      .next (finish s r stOk (it (pageCode p.state) ++ itq (p.n0.getD 0) ++ rest)) := by
  have hexec : exec (.pageStatus e) s = execPageStatus e s := rfl
  rw [hexec, execPageStatus, command_turn hT]
  simp only [hrsv, hp, Bool.not_true, Bool.false_eq_true, if_false, settle_okWith, List.append_assoc]
  exact ⟨_, rfl⟩

/-- Settles O15: each command at its turn, with what it leaves of the page it names. -/
theorem pageAdmission : Obligations.PageAdmission := by
  intro e s r p hrsv hp
  have hself : pageOf s p.id = some p := by rw [pageOf_id hp, hp]
  refine ⟨fun hT hstate hprint hstale hreserve => ⟨fun hown href hline => ?_, fun hserv m hm hm2 => ?_⟩,
    fun hT hown => ⟨fun hstate => ?_, fun hstate => ?_⟩, fun hT => ?_⟩
  · exact pageCommit_own_answers hT hrsv hp hstate hprint hstale hreserve hown href hline
  · obtain ⟨res, hcommit⟩ := commitServitor_ok hself hstate hreserve hm2
    obtain ⟨q, hq, hadmitted, hadm, hthin, hn0⟩ := admittedAs_pageOf hself m
    have hexec := exec_pageCommit_servitor hT hrsv hp hstate hprint hstale hserv hm
    rw [hcommit] at hexec
    exact ⟨_, hexec, _, q, res, rfl, hq, hadmitted, hadm, hthin, hn0, admittedAs_pageMsgs s p m⟩
  · have hlive : ¬ (p.state = .done ∨ p.state = .aborted) := by obtain h | h := hstate <;> simp [h]
    have hcuts : [] = if p.state = .printing then cutLines s p else [] := by obtain h | h := hstate <;> simp [h]
    obtain ⟨v, hv, hexec⟩ := exec_pageAbort hT hrsv hp hown hlive [] hcuts
    obtain ⟨q, hq, hremoved⟩ := abortPage_removes ((pageOf_congr hv p.id).trans hself) hstate []
    exact ⟨_, hexec, _, q, rfl, hq, hremoved⟩
  · have hlive : ¬ (p.state = .done ∨ p.state = .aborted) := by simp [hstate]
    obtain ⟨v, hv, hexec⟩ := exec_pageAbort hT hrsv hp hown hlive (cutLines s p) (if_pos hstate).symm
    obtain ⟨q, hq, hcut⟩ := abortPage_cuts ((pageOf_congr hv p.id).trans hself) hstate (cutLines s p)
    exact ⟨_, hexec, _, q, rfl, hq, hcut⟩
  · obtain ⟨rest, hexec⟩ := exec_pageStatus hT hrsv hp
    exact ⟨_, hexec, rfl⟩

end Sys2Proof.Machine
end

section
/-! SUPPORT. Loading a page: what a load that moves on keeps of the pages and of itself, and the commands that drive it (R53
to R65). -/

set_option Elab.async false

namespace Sys2Proof.Machine

/-! What a load keeps of the pages: all that their descriptors say (R53). -/

/-- What a page's descriptor says of it (R53, R54). -/
def descriptor (p : Page) : Dword × Nat × Nat × Nat × Nat × Nat × Int × Nat × List Layer :=
  (p.id, p.lines, p.ncol64, p.col64, p.startMode, p.startArg, p.startLine, p.cueCh, p.layers)

/-- The descriptors of the pages in the list. -/
def descriptors (s : State) : List (Dword × Nat × Nat × Nat × Nat × Nat × Int × Nat × List Layer) :=
  s.pages.list.map descriptor

theorem descriptors_congr {s t : State} (h : t.pages = s.pages) : descriptors t = descriptors s := by
  unfold descriptors
  rw [h]

theorem descriptors_setPage (s : State) (id : Dword) (f : Page → Page) (hf : ∀ p, descriptor (f p) = descriptor p) :
    descriptors (setPage s id f) = descriptors s := by
  refine (List.map_map ..).trans (List.map_congr_left fun p _ => ?_)
  rw [Function.comp_apply, apply_ite descriptor, hf, ite_self]

/-! How a load moves on (R56 to R59). -/

/-- `ld'` is `ld` at another place: for the same page, with the same bytes arrived. -/
def SameLoad (ld ld' : Load) : Prop := ld'.have_ = ld.have_ ∧ ld'.pageId = ld.pageId ∧ ld'.arrived = ld.arrived

theorem SameLoad.refl (ld : Load) : SameLoad ld ld := ⟨rfl, rfl, rfl⟩

theorem SameLoad.trans {a b c : Load} (h : SameLoad a b) (h' : SameLoad b c) : SameLoad a c := by
  obtain ⟨hhave, hid, harrived⟩ := h
  obtain ⟨hhave', hid', harrived'⟩ := h'
  exact ⟨hhave'.trans hhave, hid'.trans hid, harrived'.trans harrived⟩

/-- How a load that has moved on stands: at a place, completed or failed. -/
def Stands (u : State) (ld : Load) (t : State) : Prop :=
  t = setLoad u ld ∨ t = completeLoad u ld ∨ ∃ st res, t = failLoad u ld st res

/-- The row's beginning has ended the load, or the load goes on, the pages' descriptors as they were. -/
def RowBegun (s : State) (ld : Load) (x : State × Option Load) : Prop :=
  (∃ st res, x = (failLoad s ld st res, none)) ∨
  (∃ ld' u, x = (u, some ld') ∧ SameLoad ld ld' ∧ descriptors u = descriptors s ∧ u.pages.load = s.pages.load)

theorem beginRow_begun (s : State) (ld : Load) (p : Page) (l : Layer) (addr len : Nat) :
    RowBegun s ld (beginRow s ld p l addr len) := by
  have hroom (k : Nat) : descriptors (setPage s ld.pageId fun q => { q with footprint := q.footprint + k }) = descriptors s :=
    descriptors_setPage s ld.pageId _ fun _ => rfl
  have hgoes (k : Nat) (ld' : Load) (hsame : SameLoad ld ld') :
      RowBegun s ld (setPage s ld.pageId (fun q => { q with footprint := q.footprint + k }), some ld') :=
    .inr ⟨ld', _, rfl, hsame, hroom k, rfl⟩
  unfold beginRow
  dsimp only
  refine iteInduction (fun _ => .inl ⟨_, _, rfl⟩) fun _ => iteInduction (fun _ => .inl ⟨_, _, rfl⟩) fun _ => ?_
  exact iteInduction (fun _ => hgoes _ _ ⟨rfl, rfl, rfl⟩) fun _ => hgoes _ _ ⟨rfl, rfl, rfl⟩

/-- A load moves on over rows that take their room, until it stands. -/
theorem advanceLoad_cases (s : State) (ld : Load) (p : Page) (fuel : Nat) :
    ∃ u ld', SameLoad ld ld' ∧ descriptors u = descriptors s ∧ u.pages.load = s.pages.load ∧
      Stands u ld' (advanceLoad s ld p fuel) := by
  induction fuel generalizing s ld with
  | zero => exact ⟨s, ld, .refl ld, rfl, rfl, .inl rfl⟩
  | succ fuel ih =>
    unfold advanceLoad
    split
    · exact ⟨s, ld, .refl ld, rfl, rfl, .inr (.inl rfl)⟩
    · next l _ =>
      split
      · exact ih s { ld with layerIx := ld.layerIx + 1, row := 0, col := 0, pos := 0, rowBegun := false }
      · split
        · exact ⟨s, ld, .refl ld, rfl, rfl, .inl rfl⟩
        · dsimp only
          split
          · obtain ⟨st, res, hfail⟩ | ⟨ld1, u1, hrow, hsame, hdesc, hload⟩ :=
              beginRow_begun s ld p l (recordAt ld).1 (recordAt ld).2
            · rw [hfail]
              exact ⟨s, ld, .refl ld, rfl, rfl, .inr (.inr ⟨st, res, rfl⟩)⟩
            · rw [hrow]
              obtain ⟨u, ld', hsame', hdesc', hload', hstands⟩ := ih u1 ld1
              exact ⟨u, ld', hsame.trans hsame', hdesc'.trans hdesc, hload'.trans hload, hstands⟩
          · exact ⟨s, ld, .refl ld, rfl, rfl, .inl rfl⟩

theorem failLoad_load (s : State) (ld : Load) (st : Nat) (res : List Dword) : (failLoad s ld st res).pages.load = none :=
  (finishOp_within _ _ _ _).untouched (·.pages.load)

theorem failLoad_descriptors (s : State) (ld : Load) (st : Nat) (res : List Dword) :
    descriptors (failLoad s ld st res) = descriptors s :=
  (descriptors_congr ((finishOp_within _ _ _ _).untouched State.pages)).trans (descriptors_setPage s ld.pageId _ fun _ => rfl)

/-- A load completes with its page LOADED and no load in progress (R61). -/
theorem completeLoad_pages {s : State} {ld : Load} {p : Page} (h : pageOf s ld.pageId = some p) :
    (completeLoad s ld).pages.load = none ∧ (completeLoad s ld).pages.list =
      (setPage s ld.pageId fun q => { q with state := .loaded, fPage := fPageOf s p }).pages.list := by
  unfold completeLoad
  rw [h]
  exact ⟨(finishOp_within _ _ _ _).untouched (·.pages.load), (finishOp_within _ _ _ _).untouched (·.pages.list)⟩

theorem completeLoad_descriptors (s : State) (ld : Load) : descriptors (completeLoad s ld) = descriptors s := by
  cases h : pageOf s ld.pageId with
  | none => simp only [completeLoad, h]
  | some p => exact (congrArg (List.map descriptor) (completeLoad_pages h).2).trans (descriptors_setPage s ld.pageId _ fun _ => rfl)

theorem Stands.descriptors {u t : State} {ld : Load} (h : Stands u ld t) : descriptors t = descriptors u := by
  obtain rfl | rfl | ⟨st, res, rfl⟩ := h
  · rfl
  · exact completeLoad_descriptors u ld
  · exact failLoad_descriptors u ld st res

/-- The load in progress, where there is one, is `ld` at some place. -/
def LoadKept (ld : Load) (s : State) : Prop := ∀ ld', s.pages.load = some ld' → SameLoad ld ld'

theorem Stands.loadKept {u t : State} {ld ld' : Load} (h : Stands u ld' t) (hu : LoadKept ld u) (hsame : SameLoad ld ld') :
    LoadKept ld t := by
  intro x hx
  obtain rfl | rfl | ⟨st, res, rfl⟩ := h
  · cases hx
    exact hsame
  · cases hp : pageOf u ld'.pageId with
    | none =>
      simp only [completeLoad, hp] at hx
      exact hu x hx
    | some p =>
      rw [(completeLoad_pages hp).1] at hx
      cases hx
  · rw [failLoad_load] at hx
    cases hx

theorem driveLoad_descriptors (s : State) (ld : Load) : descriptors (driveLoad s ld) = descriptors s := by
  unfold driveLoad
  split
  · next p _ =>
    obtain ⟨u, ld', -, hdesc, -, hstands⟩ := advanceLoad_cases s ld p (loadFuel p)
    exact hstands.descriptors.trans hdesc
  · rfl

theorem driveLoad_kept {s : State} {ld : Load} (h : LoadKept ld s) : LoadKept ld (driveLoad s ld) := by
  unfold driveLoad
  split
  · next p _ =>
    obtain ⟨u, ld', hsame, -, hload, hstands⟩ := advanceLoad_cases s ld p (loadFuel p)
    exact hstands.loadKept (fun x hx => h x (hload.symm.trans hx)) hsame
  · exact h

/-! Where a load stands still. -/

section
variable {s : State} {ld : Load} {p : Page} {l : Layer}

theorem driveLoad_pastLayers (hp : pageOf s ld.pageId = some p) (hl : p.layers[ld.layerIx]? = none) :
    driveLoad s ld = completeLoad s ld := by
  simp only [driveLoad, hp, loadFuel, advanceLoad, hl]

theorem driveLoad_atBlock (hp : pageOf s ld.pageId = some p) (hl : p.layers[ld.layerIx]? = some l) (hrow : ld.row < l.rows)
    (hbegun : ld.rowBegun = true) : driveLoad s ld = setLoad s ld := by
  simp only [driveLoad, hp, loadFuel, advanceLoad, hl, Nat.not_le.mpr hrow, hbegun, if_false, if_true]

/-- A row record that has bytes, of which none has arrived, is waited for. -/
theorem driveLoad_awaits (hp : pageOf s ld.pageId = some p) (hl : p.layers[ld.layerIx]? = some l) (hrow : ld.row < l.rows)
    (hbegun : ld.rowBegun = false) (hnone : ld.have_ = []) (hlen : (recordAt ld).2 ≠ 0) : driveLoad s ld = setLoad s ld := by
  have hcovered : covered ld.have_ (ld.have_.length + 1) (recordAt ld).1 (recordAt ld).2 = false := by
    obtain ⟨n, hn⟩ := Nat.exists_eq_succ_of_ne_zero hlen
    rw [hnone, hn]
    rfl
  simp only [driveLoad, hp, loadFuel, advanceLoad, hl, Nat.not_le.mpr hrow, hbegun, hcovered, Bool.false_eq_true, if_false]

end

/-! PAGE_LOAD (R53, R54, R57, R58). -/

/-- A PAGE_LOAD's load before any byte has arrived. -/
def firstLoad (e : Entry) (id : Dword) (tables : List (List (Nat × Nat))) : Load :=
  { pageId := id, entry := e, tables := tables, arrived := [], have_ := [], layerIx := 0, row := 0, col := 0, pos := 0
    rowBegun := false }

/-- The first dwords of a longer read are those of a shorter one. -/
theorem rdw_hostDws_add (s : State) (a : Nat) {n i : Nat} (hi : i < n) (k : Nat) :
    rdw (hostDws s a (n + k)) i = rdw (hostDws s a n) i := by
  simp [rdw, hostDws, hi, Nat.lt_add_right k hi]

theorem newPage_descriptor (s : State) (a k : Nat) (layers : List Layer) (ingest : Nat) :
    descriptor (newPage (hostDws s a (16 + k)) layers ingest) =
      (let h := hostDws s a 16
       (rdw h 1, fld (rdw h 2) 0 24, fld (rdw h 3) 16 12, fld (rdw h 3) 0 12, fld (rdw h 4) 0 2, (rdw h 5).toNat,
        signed 64 (rq h 6), fld (rdw h 4) 8 2, layers)) := by
  have hdw {i : Nat} (hi : i < 16) := rdw_hostDws_add s a hi k
  simp only [descriptor, newPage, rq, hdw (show 1 < 16 by decide), hdw (show 2 < 16 by decide), hdw (show 3 < 16 by decide),
    hdw (show 4 < 16 by decide), hdw (show 5 < 16 by decide), hdw (show 6 < 16 by decide), hdw (show 6 + 1 < 16 by decide)]

theorem enterLoading_pageOf (s : State) (p : Page) : pageOf (enterLoading s p) p.id = some p := by
  have hothers : (s.pages.list.filter fun x => x.id != p.id).find? (fun x => x.id == p.id) = none := by
    rw [List.find?_eq_none]
    intro x hx
    simpa using (List.mem_filter.mp hx).2
  simp only [pageOf, enterLoading, List.find?_append, hothers, List.find?_cons, beq_self_eq_true, Option.none_or]

/-- The number of layers that a PAGE_LOAD's descriptor names (R53). -/
def layerCount (e : Entry) (s : State) : Nat := fld (rdw (hostDws s (pq e 0) 16) 0) 0 6

/-- A PAGE_LOAD's descriptor, header and layers (R53, R54). -/
def descriptorDws (e : Entry) (s : State) : List Dword := hostDws s (pq e 0) (16 + 8 * layerCount e s)

/-- The layers of a PAGE_LOAD's page (R54). -/
def layersRead (e : Entry) (s : State) : List Layer := (List.range (layerCount e s)).map (layerOf (descriptorDws e s))

/-- The page that a PAGE_LOAD enters (R58, R61). -/
def pageRead (e : Entry) (s : State) : Page :=
  newPage (descriptorDws e s) (layersRead e s) (64 + 32 * layerCount e s +
    ((layersRead e s).map fun l => 16 * l.rows).sum + recordBytes (rowTables s (layersRead e s)))

/-- The load that a PAGE_LOAD begins. -/
def loadRead (e : Entry) (s : State) : Load := firstLoad e (pageRead e s).id (rowTables s (layersRead e s))

/-- Every check of R58 passes, so the page enters LOADING. -/
theorem loadPage_enters {e : Entry} {s : State} (hjob : s.job ≠ none) (hplaces : (s.pages.list.filter holdsPlace).length < 256)
    (hread : hostReadEnd s (pq e 0) 64 = .ok) (hheader : headerOk (hostDws s (pq e 0) 16) = true)
    (hfresh : ∀ p ∈ s.pages.list, p.id = rdw (hostDws s (pq e 0) 16) 1 → holdsPlace p = false)
    (hlayers : badLayer s (pq e 0) (descriptorDws e s) (layerCount e s) = none)
    (hreads : failedRead s (pq e 0) (descriptorDws e s) (layerCount e s) = none) :
    loadPage e s = .runs (setLoad (enterLoading s (pageRead e s)) (loadRead e s)) [] := by
  have hopen : s.job.isNone = false := Option.isNone_eq_false_iff.mpr (Option.isSome_iff_ne_none.mpr hjob)
  have hdup : (s.pages.list.any fun p => p.id == rdw (hostDws s (pq e 0) 16) 1 && holdsPlace p) = false := by
    rw [List.any_eq_false]
    intro p hp hboth
    obtain ⟨hid, hholds⟩ := Bool.and_eq_true_iff.mp hboth
    exact Bool.false_ne_true ((hfresh p hp (beq_iff_eq.mp hid)).symm.trans hholds)
  unfold descriptorDws layerCount at hlayers hreads
  simp only [loadPage, hopen, Nat.not_le.mpr hplaces, hread, hheader, hdup, hlayers, hreads, Bool.not_true, Bool.false_eq_true,
    ne_eq, not_true_eq_false, if_false]
  rfl

/-- PAGE_LOAD at its turn, its load the only one: where the page enters LOADING, the load moves on. -/
theorem exec_pageLoad {e : Entry} {s u : State} {r : InFlight} {ld : Load} (hT : Turn 0x0103 e s r)
    (hrsv : rsvOk e [allBits, allBits] = true) (halign : pq e 0 % 64 = 0) (hload : s.pages.load = none)
    (henters : loadPage e s = .runs (setLoad u ld) []) :
    exec (.pageLoad e) s = .next (driveLoad (commitRunning (setLoad u ld) r []) ld) := by
  have hcommand : command [0x0103] e (fun _ s =>
      if !rsvOk e [allBits, allBits] || pq e 0 % 64 != 0 then reject s stFormat
      else if s.pages.load.isSome then .waits else loadPage e s) s = commitRunning (setLoad u ld) r [] := by
    rw [command_turn hT]
    simp [hrsv, halign, hload, henters]
  have hexec : exec (.pageLoad e) s = execPageLoad e s := rfl
  rw [hexec, execPageLoad, hcommand, hload]
  rfl

/-- The first row record of the first layer, as the row tables give it. -/
theorem recordAt_loadRead {e : Entry} {s : State} {l : Layer} (hl : (layersRead e s).head? = some l) (hrows : l.rows ≠ 0) :
    recordAt (loadRead e s) = rowEntry s l 0 := by
  obtain ⟨ls, hcons⟩ := List.head?_eq_some_iff.mp hl
  simp [recordAt, loadRead, firstLoad, rowTables, hcons, Nat.pos_of_ne_zero hrows]

section
variable {e : Entry} {s u : State}

/-- A page without layers is LOADED at once. -/
theorem pageLoad_completes (hu : pageOf u (pageRead e s).id = some (pageRead e s)) (hzero : layerCount e s = 0) :
    (∃ p ∈ (driveLoad u (loadRead e s)).pages.list, descriptor p = descriptor (pageRead e s) ∧ p.state = .loaded) ∧
    (driveLoad u (loadRead e s)).pages.load = none := by
  have hlayers : (pageRead e s).layers = [] := by simp [pageRead, newPage, layersRead, hzero]
  rw [driveLoad_pastLayers (ld := loadRead e s) hu (by rw [hlayers]; rfl)]
  obtain ⟨hload, hlist⟩ := completeLoad_pages (ld := loadRead e s) hu
  refine ⟨⟨{ pageRead e s with state := .loaded, fPage := fPageOf u (pageRead e s) }, ?_, rfl, rfl⟩, hload⟩
  rw [hlist]
  exact List.mem_map.mpr ⟨_, List.mem_of_find?_eq_some hu, if_pos rfl⟩

/-- Where the first row record has bytes, the load waits for them. -/
theorem pageLoad_awaits (hu : pageOf u (pageRead e s).id = some (pageRead e s)) {l : Layer}
    (hl : (layersRead e s).head? = some l) (hrows : l.rows ≠ 0) (hlen : (rowEntry s l 0).2 ≠ 0) :
    driveLoad u (loadRead e s) = setLoad u (loadRead e s) :=
  driveLoad_awaits (ld := loadRead e s) hu (List.head?_eq_getElem?.symm.trans hl) (Nat.pos_of_ne_zero hrows) rfl rfl
    (by rwa [recordAt_loadRead hl hrows])

/-- The page is in the list with what its descriptor says; without layers it is LOADED at once, and where its first row record has
bytes these are waited for. -/
theorem pageLoad_drives (hu : pageOf u (pageRead e s).id = some (pageRead e s)) :
    ∃ p ∈ (driveLoad u (loadRead e s)).pages.list, descriptor p = descriptor (pageRead e s) ∧
      (layerCount e s = 0 → p.state = .loaded ∧ (driveLoad u (loadRead e s)).pages.load = none) ∧
      (∀ l, (layersRead e s).head? = some l → l.rows ≠ 0 → (rowEntry s l 0).2 ≠ 0 → p.state = .loading ∧
        (driveLoad u (loadRead e s)).pages.load = some (loadRead e s)) := by
  by_cases hzero : layerCount e s = 0
  · obtain ⟨⟨p, hp, hdesc, hstate⟩, hload⟩ := pageLoad_completes hu hzero
    have hlayers : layersRead e s = [] := by simp [layersRead, hzero]
    exact ⟨p, hp, hdesc, fun _ => ⟨hstate, hload⟩, fun l hl => by rw [hlayers] at hl; cases hl⟩
  · by_cases hwaits : ∃ l, (layersRead e s).head? = some l ∧ l.rows ≠ 0 ∧ (rowEntry s l 0).2 ≠ 0
    · obtain ⟨l, hl, hrows, hlen⟩ := hwaits
      rw [pageLoad_awaits hu hl hrows hlen]
      exact ⟨_, List.mem_of_find?_eq_some hu, rfl, fun h => absurd h hzero, fun _ _ _ _ => ⟨rfl, rfl⟩⟩
    · have hmem : descriptor (pageRead e s) ∈ descriptors (driveLoad u (loadRead e s)) := by
        rw [driveLoad_descriptors]
        exact List.mem_map_of_mem (List.mem_of_find?_eq_some hu)
      obtain ⟨p, hp, hdesc⟩ := List.mem_map.mp hmem
      exact ⟨p, hp, hdesc, fun h => absurd h hzero, fun l hl hrows hlen => absurd ⟨l, hl, hrows, hlen⟩ hwaits⟩

end

/-! DMA_READ_COMPLETION (R59). -/

/-- The load once `len` bytes from `addr` have arrived: those that had not arrived yet are added. -/
def readArrived (s : State) (ld : Load) (addr len : Nat) : Load :=
  { ld with
      arrived := mapSetAll 0 ld.arrived (((List.range len).filter fun i =>
        !ld.have_.any fun x => decide (x.1 ≤ addr + i ∧ addr + i < x.1 + x.2)).map fun i =>
          (addr + i, hostByte s ((addr + i) % 2 ^ 64)))
      have_ := ld.have_ ++ [(addr, len)] }

section
variable {s : State} {ld : Load} {addr len : Nat}

theorem exec_dmaReadCompletion_fails (hload : s.pages.load = some ld) (hpos : 0 < len) (hlen : len ≤ 512) {o : DmaEnd}
    (ho : o ≠ .ok) : exec (.dmaReadCompletion addr len o) s = .next (failLoad s ld stHostReadError (itq addr)) := by
  have hsize : ¬ (len = 0 ∨ 512 < len) := by omega
  have hexec : exec (.dmaReadCompletion addr len o) s = execDmaReadCompletion addr len o s := rfl
  simp only [hexec, execDmaReadCompletion, hload, hsize, ho, ne_eq, not_false_eq_true, if_true, if_false]

theorem exec_dmaReadCompletion_ok (hload : s.pages.load = some ld) (hpos : 0 < len) (hlen : len ≤ 512) :
    exec (.dmaReadCompletion addr len .ok) s =
      .next (driveLoad (setLoad s (readArrived s ld addr len)) (readArrived s ld addr len)) := by
  have hsize : ¬ (len = 0 ∨ 512 < len) := by omega
  have hexec : exec (.dmaReadCompletion addr len .ok) s = execDmaReadCompletion addr len .ok s := rfl
  simp only [hexec, execDmaReadCompletion, hload, hsize, ne_eq, not_true_eq_false, if_false]
  rfl

end

/-! BLOCK_STORE (R60, R64, R65). -/

/-- Room for a raw block lies in the last chunk of the chain, within its 64 units (R64). -/
theorem takeUnits_place {s t : State} {p : Page} {contone : Bool} {chain : List Nat} {unit : Nat}
    (h : takeUnits s p contone = some (t, chain, unit)) :
    chain.getLast? = some (unit / 64) ∧ unit % 64 + 64 / chunkBlocks contone ≤ 64 := by
  have hplace (c n : Nat) : (64 * c + n % chunkBlocks contone * (64 / chunkBlocks contone)) / 64 = c ∧
      (64 * c + n % chunkBlocks contone * (64 / chunkBlocks contone)) % 64 + 64 / chunkBlocks contone ≤ 64 := by
    cases contone <;> simp only [chunkBlocks, if_true, if_false, Bool.false_eq_true] <;> omega
  unfold takeUnits at h
  dsimp only at h
  split at h
  · next hroom =>
    cases h
    have hne : (chainOf p contone).1 ≠ [] := by
      intro hnil
      rw [hnil] at hroom
      exact absurd hroom (Nat.not_lt_zero _)
    obtain ⟨hdiv, hmod⟩ := hplace ((chainOf p contone).1.getLast?.getD 0) (chainOf p contone).2
    refine ⟨?_, hmod⟩
    rw [hdiv, List.getLast?_eq_some_getLast hne]
    rfl
  · split at h
    · cases h
    · cases h
      obtain ⟨hdiv, hmod⟩ := hplace (freeChunk (heldChunks s) ((drawFree s).2 % (spillChunks s - chunksHeld s)))
        (chainOf p contone).2
      refine ⟨?_, hmod⟩
      rw [hdiv, List.getLast?_concat]

/-- After a block that is not its row's last, the load stands at the next one. -/
theorem afterBlock_next {s : State} {ld : Load} {p q : Page} {l : Layer} {addr len used c : Nat} (hq : pageOf s ld.pageId = some q)
    (hlayers : q.layers = p.layers) (hl : p.layers[ld.layerIx]? = some l) (hbegun : ld.rowBegun = true) (hrow : ld.row < l.rows)
    (hnext : nextCol (arrivedBytes ld addr (bitmapBytes p l)) (blockCols p l) (ld.col + 1) = some c) :
    afterBlock s ld p l addr len used = setLoad s { ld with pos := ld.pos + used, col := c } := by
  simp only [afterBlock, hnext]
  exact driveLoad_atBlock (ld := { ld with pos := ld.pos + used, col := c }) hq (by rw [hlayers]; exact hl) hrow hbegun

theorem pageOf_setPage_kept {s u : State} {id : Dword} {p : Page} (hp : pageOf s id = some p) (hu : u.pages = s.pages)
    {f : Page → Page} (hf : ∀ p, (f p).id = p.id) : pageOf (setPage u id f) id = some (f p) := by
  rw [pageOf_setPage_self u id hf, pageOf_congr hu, hp]
  rfl

/-- Where the load stands at a block, BLOCK_STORE does with it what its rule says. -/
theorem exec_blockStore {s : State} {ld : Load} {p : Page} {l : Layer} (hload : s.pages.load = some ld)
    (hp : pageOf s ld.pageId = some p) (hl : p.layers[ld.layerIx]? = some l) (hbegun : ld.rowBegun = true) (rule : Stored)
    (hrule : storeRule (sampleBits l) l.effort (slotOf s l)
      (arrivedBytes ld ((recordAt ld).1 + ld.pos) ((recordAt ld).2 - ld.pos)) = rule) :
    (∀ st, rule = .fails st → exec .blockStore s = .next (failBlock s ld st)) ∧
    (∀ bs used, rule = .coded bs used → exec .blockStore s = .next (afterBlock
      (setPage s ld.pageId fun q => addSlot q l ld (fillSlot (slotOf s l) bs)) ld p l (recordAt ld).1 (recordAt ld).2 used)) ∧
    (∀ raw used, rule = .spill raw used →
      (takeUnits s p (l.layer == 0) = none → exec .blockStore s = .next (failLoad s ld stSpillFull [])) ∧
      (∀ u chain unit, takeUnits s p (l.layer == 0) = some (u, chain, unit) → exec .blockStore s = .next (afterBlock
        (setPage u ld.pageId fun q => addSpill q l ld (slotOf s l) raw chain unit) ld p l (recordAt ld).1
        (recordAt ld).2 used))) := by
  have hexec : exec .blockStore s = execBlockStore s := rfl
  subst hrule
  refine ⟨fun st h => ?_, fun bs used h => ?_, fun raw used h => ⟨fun hfull => ?_, fun u chain unit hroom => ?_⟩⟩
  · simp only [hexec, execBlockStore, hload, hp, hl, hbegun, h, Bool.not_true, Bool.false_eq_true, if_false]
  · simp only [hexec, execBlockStore, hload, hp, hl, hbegun, h, Bool.not_true, Bool.false_eq_true, if_false]
  · simp only [hexec, execBlockStore, hload, hp, hl, hbegun, h, hfull, Bool.not_true, Bool.false_eq_true, if_false]
  · simp only [hexec, execBlockStore, hload, hp, hl, hbegun, h, hroom, Bool.not_true, Bool.false_eq_true, if_false]

theorem addSpill_kept (p : Page) (l : Layer) (ld : Load) (slot : Nat) (samples chain : List Nat) (unit : Nat) :
    (addSpill p l ld slot samples chain unit).id = p.id ∧ (addSpill p l ld slot samples chain unit).layers = p.layers := by
  unfold addSpill
  dsimp only
  split <;> exact ⟨rfl, rfl⟩

/-- Settles O14: a load keeps what the pages' descriptors say and the bytes that have arrived; the commands say where it goes on. -/
theorem pageLoading : Obligations.PageLoading := by
  refine ⟨?_, ?_, ?_⟩
  · intro e s r h n d layers hT hrsv halign hload hjob hplaces hread hheader hfresh hlayers hreads
    have henters := loadPage_enters hjob hplaces hread hheader hfresh hlayers hreads
    have hu : pageOf (commitRunning (setLoad (enterLoading s (pageRead e s)) (loadRead e s)) r []) (pageRead e s).id =
        some (pageRead e s) := enterLoading_pageOf s (pageRead e s)
    obtain ⟨p, hp, hdesc, hzero, hwaits⟩ := pageLoad_drives hu
    have hfields := hdesc.trans (newPage_descriptor s (pq e 0) _ _ _)
    simp only [descriptor, Prod.mk.injEq] at hfields
    obtain ⟨hid, hlines, hncol, hcol, hmode, harg, hline, hcue, hls⟩ := hfields
    refine ⟨_, exec_pageLoad hT hrsv halign hload henters, p, hp, hid, hlines, hncol, hcol, hmode, harg, hline, hcue, hls, hzero,
      fun l hl hrows hlen => ?_⟩
    obtain ⟨hstate, hld⟩ := hwaits l hl hrows hlen
    exact ⟨hstate, _, hld, (congrArg Prod.fst hdesc).symm, rfl, rfl⟩
  · intro addr len s ld hload hpos hlen
    refine ⟨fun o ho => exec_dmaReadCompletion_fails hload hpos hlen ho, _, exec_dmaReadCompletion_ok hload hpos hlen,
      fun ld' hld' => ?_⟩
    have hset : LoadKept (readArrived s ld addr len) (setLoad s (readArrived s ld addr len)) := fun x hx => by
      cases hx
      exact .refl _
    exact driveLoad_kept hset ld' hld'
  · intro s ld p l hload hp hl hbegun hrow re bm rule
    obtain ⟨hfails, hcoded, hspill⟩ := exec_blockStore hload hp hl hbegun rule rfl
    refine ⟨hfails, fun bs used c hrule hnext => ?_, fun raw used hrule hfull => (hspill raw used hrule).1 hfull,
      fun raw chain used c unit u hrule hnext hroom => ⟨?_, takeUnits_place hroom⟩⟩
    · rw [hcoded bs used hrule]
      exact congrArg Host.Outcome.next
        (afterBlock_next (pageOf_setPage_kept hp rfl (f := fun q => addSlot q l ld _) fun _ => rfl) rfl hl hbegun hrow hnext)
    · rw [(hspill raw used hrule).2 u chain unit hroom]
      exact congrArg Host.Outcome.next (afterBlock_next
        (pageOf_setPage_kept hp ((takeUnits_within hroom).untouched State.pages) (f := fun q => addSpill q l ld _ raw chain unit)
          fun q => (addSpill_kept q l ld _ raw chain unit).1)
        (addSpill_kept p l ld _ raw chain unit).2 hl hbegun hrow hnext)

end Sys2Proof.Machine
end

section
/-! SUPPORT. The overlays of the operations on the records of a slice: marks, a late line, scheduling, computing, the slice
deadline (R81, R87, R89, R106, R107, R120, R124, R215). -/

set_option Elab.async false

namespace Sys2Proof.Machine

/-! Marks, and a record made LATE (R107, R125, R240). -/

/-- `s` with the marks of the expected-defect map taken from `t` (R240). -/
def mapMarked (s t : State) : State :=
  { s with asy := { s.asy with marks := t.asy.marks, markedLines := t.asy.markedLines, cutMarks := t.asy.cutMarks } }

/-- `s` with the out-of-step marks and what is sent taken from `t` (R125, R141). -/
def stepMarked (s t : State) : State :=
  { s with csc := { s.csc with marks := t.csc.marks, refillMarks := t.csc.refillMarks, cleanRuns := t.csc.cleanRuns }
           out := t.out }

/-- `s` with what a late line may touch taken from `t` (R107). -/
def lateNoted (s t : State) : State :=
  { reported s t with
      pages := { s.pages with list := t.pages.list }
      csc := { s.csc with marks := t.csc.marks, refillMarks := t.csc.refillMarks, cleanRuns := t.csc.cleanRuns }
      asy := { s.asy with marks := t.asy.marks, markedLines := t.asy.markedLines, cutMarks := t.asy.cutMarks } }

/-- `s` with what making a record LATE may touch taken from `t` (R107). -/
def lateMade (s t : State) : State :=
  { reported s t with
      pages := { s.pages with list := t.pages.list }
      slices := { s.slices with recs := t.slices.recs, handed := t.slices.handed }
      csc := { s.csc with marks := t.csc.marks, refillMarks := t.csc.refillMarks, cleanRuns := t.csc.cleanRuns }
      asy := { s.asy with marks := t.asy.marks, markedLines := t.asy.markedLines, cutMarks := t.asy.cutMarks } }

theorem markArea_mapMarked (s : State) (p : Nat) (x0 x1 n0 n1 : Int) : Within mapMarked s (markArea s p x0 x1 n0 n1) := rfl

theorem setMark_stepMarked (s : State) (k : Nat) (refill : Bool) : Within stepMarked s (setMark s k refill) := rfl

theorem clearMark_stepMarked (s : State) (k : Nat) : Within stepMarked s (clearMark s k) := rfl

theorem outOfStep_stepMarked (s : State) (m q cause : Nat) (n : Int) : Within stepMarked s (outOfStep s m q cause n) :=
  .ite (setMark_stepMarked s _ _) (.ite (emit_within s _).widen (.refl s))

theorem setAllRefillMarks_within (s : State) : Within stepMarked s (setAllRefillMarks s) :=
  .foldl (fun t k => setMark_stepMarked t k true) _ s

theorem handOver_within (s : State) (r : Rec) : Within lateMade s (handOver s r) := rfl

/-- `s` with the records handed over and not yet released taken from `t`. -/
def queued (s t : State) : State := { s with slices := { s.slices with recs := t.slices.recs } }

theorem setRec_within (s : State) (m q : Nat) (n : Int) (f : Rec → Rec) :
    Within queued s (setRec s m q n f) := rfl

theorem lateLine_lateNoted (s : State) (m q : Nat) (n : Int) : Within lateNoted s (lateLine s m q n) := by
  have hmark : Within lateNoted s (markModule (count s (cnum 1 0)) m q n) :=
    (count_within s _).andThen (markArea_mapMarked _ _ _ _ _ _)
  unfold lateLine
  dsimp only
  refine .andThen (G := lateNoted) ?_ (outOfStep_stepMarked _ _ _ _ _)
  split
  · exact (hmark.andThen (F := lateNoted) (oncePage_within _ _ _)).andThen (raiseIf_within _ _ _ _)
  · exact hmark

theorem makeLate_within (s : State) (m q : Nat) (n : Int) : Within lateMade s (makeLate s m q n) := by
  unfold makeLate
  split
  · exact (lateLine_lateNoted s m q n).andThen (setRec_within _ _ _ _ _)
  · exact (lateLine_lateNoted s m q n).andThen (handOver_within _ _)

/-! Scheduling (R124, R125, R131, R135). -/

/-- `s` with what scheduling records may touch taken from `t` (R124, R125, R131). -/
def scheduled (s t : State) : State :=
  { reported s t with
      pages := { s.pages with list := t.pages.list }, slices := { s.slices with recs := t.slices.recs }
      csc := { s.csc with marks := t.csc.marks, refillMarks := t.csc.refillMarks, cleanRuns := t.csc.cleanRuns
                          stamped := t.csc.stamped } }

theorem fixRecord_within (s : State) (r : Rec) (rho : Nat) : Within scheduled s (fixRecord s r rho) := by
  have hstamp (f : Rec → Rec) (xs : List (Int × Nat × Nat)) : Within scheduled s { setRec s r.m r.q r.n f with
      csc := { (setRec s r.m r.q r.n f).csc with stamped := xs } } := rfl
  unfold fixRecord
  dsimp only
  split
  · exact .ite (((hstamp _ _).andThen (F := scheduled) (oncePage_within _ _ _)).andThen (raiseIf_within _ _ _ _)) (hstamp _ _)
  · exact hstamp _ _

theorem planPlane_within (s : State) (k : Nat) : Within queued s (planPlane s k) := rfl

/-- One record that waits to be scheduled takes its REFILL where its rho is held; the module-planes of those that did (R124). -/
def fixReady (acc : State × List Nat) (r : Rec) : State × List Nat :=
  match rhoFor acc.1 (sliceDeadlineOf acc.1 (planeOf r.m r.q) r.n) with
  | some (rho, missed) =>
    let t := fixRecord acc.1 r rho
    (if missed then setAllRefillMarks t else t, acc.2 ++ [mp r.m r.q])
  | none => acc

/-- The records of a queue that wait to be scheduled. -/
def unscheduled (s : State) : List Rec := s.slices.recs.filter fun r => r.kind == .print && !r.assigned

theorem scheduleReady_eq (s : State) : scheduleReady s =
    ((unscheduled s).foldl fixReady (s, [])).2.dedup.foldl planPlane ((unscheduled s).foldl fixReady (s, [])).1 := rfl

theorem fixReady_within (acc : State × List Nat) (r : Rec) : Within scheduled acc.1 (fixReady acc r).1 := by
  unfold fixReady
  split
  · exact .ite ((fixRecord_within _ r _).andThen (setAllRefillMarks_within _)) (fixRecord_within _ r _)
  · exact .refl _

theorem scheduleReady_within (s : State) : Within scheduled s (scheduleReady s) := by
  have hfixed : Within scheduled s ((unscheduled s).foldl fixReady (s, [])).1 :=
    List.foldlRecOn (motive := fun acc : State × List Nat => Within scheduled s acc.1) _ fixReady (.refl s)
      fun acc hacc r _ => hacc.andThen (fixReady_within acc r)
  rw [scheduleReady_eq]
  exact hfixed.andThen (Within.foldl planPlane_within _ _)

/-! A record computed (R81, R89, R106). -/

/-- `s` with what fetching a record's blocks may touch taken from `t` (R81, R240). -/
def fetched (s t : State) : State :=
  { reported s t with
      pages := { s.pages with list := t.pages.list }
      asy := { s.asy with marks := t.asy.marks, markedLines := t.asy.markedLines, cutMarks := t.asy.cutMarks } }

/-- `s` with what reporting poisoned tables may touch taken from `t` (R106, R110). -/
def tablesReported (s t : State) : State :=
  { reported s t with tables := { s.tables with poisoned := t.tables.poisoned } }

/-- `s` with what computing a record and handing it over may touch taken from `t` (R89, R106, R107). -/
def computed (s t : State) : State :=
  { reported s t with
      pages := { s.pages with list := t.pages.list }
      slices := { s.slices with recs := t.slices.recs, handed := t.slices.handed }
      csc := { s.csc with marks := t.csc.marks, refillMarks := t.csc.refillMarks, cleanRuns := t.csc.cleanRuns }
      asy := { s.asy with marks := t.asy.marks, markedLines := t.asy.markedLines, cutMarks := t.asy.cutMarks }
      tables := { s.tables with poisoned := t.tables.poisoned } }

/-- `s` with what reporting a record's pixels may touch taken from `t` (R106, R107). -/
def pixelsNoted (s t : State) : State :=
  { reported s t with
      csc := { s.csc with marks := t.csc.marks, refillMarks := t.csc.refillMarks, cleanRuns := t.csc.cleanRuns }
      asy := { s.asy with marks := t.asy.marks, markedLines := t.asy.markedLines, cutMarks := t.asy.cutMarks }
      tables := { s.tables with poisoned := t.tables.poisoned } }

theorem markPlace_within (s : State) (p : Page) (plane layer row col : Nat) (n0 x : Int) :
    Within mapMarked s (markPlace s p plane layer row col n0 x) := markArea_mapMarked s _ _ _ _ _

theorem settleBlock_within (m : Nat) (n0 x : Int) (id : Dword) (s : State) (b : Block) :
    Within fetched s (settleBlock m n0 x id s b) := by
  have hset (f : Page → Page) : Within fetched s (setPage s id f) := (setPage_within s id f).widen
  have hcounted (first : Bool) (f : Page → Page) (k : Nat) :
      Within fetched s (if first then count (setPage s id f) k else setPage s id f) :=
    .ite ((hset f).andThen (count_within _ _)) (hset f)
  unfold settleBlock
  split
  · exact .refl s
  · exact .ite (.refl s) (.ite (hcounted _ _ _) ((hcounted _ _ _).andThen (markPlace_within _ _ _ _ _ _ _ _)))

theorem settleEmpty_within (n0 x : Int) (id : Dword) (s : State) (b : Nat × Nat × Nat × Nat) :
    Within fetched s (settleEmpty n0 x id s b) := by
  unfold settleEmpty
  split
  · exact .refl s
  · exact .ite (.refl s) (((setPage_within s id _).andThen (F := fetched) (count_within _ _)).andThen
      (markPlace_within _ _ _ _ _ _ _ _))

theorem settleRecord_within (s : State) (p : Page) (m pl : Nat) (n0 y x : Int) :
    Within fetched s (settleRecord s p m pl n0 y x) :=
  (Within.foldl (F := fetched) (fun t b => settleBlock_within m n0 x p.id t b) _ s).andThen
    (.foldl (F := fetched) (fun t b => settleEmpty_within n0 x p.id t b) _ _)

theorem tablePoison_within (s : State) (hits : List (Nat × Nat)) : Within tablesReported s (tablePoison s hits) := by
  have hunit (t : State) (h : Nat × Nat) (ps : List TablePoison) (b : Bool) : Within tablesReported t
      (raiseIf b (count { t with tables := { t.tables with poisoned := ps } } (cnum 1 3)) 0x0106 (it h.1 ++ it h.2)) :=
    (Within.after (F := tablesReported) (count_within _ _)).andThen (raiseIf_within _ _ _ _)
  exact .foldl (fun t h => hunit t h _ _) hits s

/-- The state once a record that prints a page line has fetched its blocks (R81, R89). -/
def fetchFor (s : State) (pg : Page) (n0 : Int) (m q : Nat) (n : Int) : State :=
  match (sourceAt pg n0 (planeOf m q) n).1 with
  | .page y => settleRecord s pg m (planeOf m q) n0 y (timedAt s.web.xShift (planeOf m q) n)
  | _ => s

/-- The pixels of a record in the state in which its blocks are fetched (R89). -/
def recordPixels (s1 : State) (pg : Page) (m q : Nat) (n : Int) (src : Source) : List (Nat × Pixel) :=
  (List.range pcols).map fun c => (c, columnPixel s1 ((pageOf s1 pg.id).getD pg) (poisonAt s1 n) m q n src c)

/-- The drops among a record's pixels. -/
def dropLevels (px : List (Nat × Pixel)) : List (Nat × Nat) := (px.filter fun x => x.2.level != 0).map fun x => (x.1, x.2.level)

/-- The state once a record's poisoned columns are marked and its poisoned tables reported (R106, R107). -/
def pixelsReported (s1 : State) (m q : Nat) (n : Int) (px : List (Nat × Pixel)) : State :=
  let spoiled := (px.filter fun x => !x.2.hits.isEmpty).map fun x => 16384 * ((m % 10 : Nat) : Int) + (x.1 : Int) - 128
  let s2 := tablePoison (spoiled.foldl (fun t x => markArea t (planeOf m q) x x n n) s1) (px.flatMap fun x => x.2.hits).dedup
  if px.any fun x => x.2.dead || !x.2.hits.isEmpty then outOfStep s2 m q 2 n else s2

theorem printRecord_eq (s : State) (pg : Page) (n0 : Int) (m q : Nat) (n : Int) :
    printRecord s pg n0 m q n =
      (let px := recordPixels (fetchFor s pg n0 m q n) pg m q n (sourceAt pg n0 (planeOf m q) n).1
       let u := pixelsReported (fetchFor s pg n0 m q n) m q n px
       handOver u { newRec u m q n .print (dropLevels px) (sourceAt pg n0 (planeOf m q) n).2 with
         deadDrops := px.any fun x => x.2.dead || !x.2.hits.isEmpty }) := rfl

theorem fetchFor_within (s : State) (pg : Page) (n0 : Int) (m q : Nat) (n : Int) : Within fetched s (fetchFor s pg n0 m q n) := by
  unfold fetchFor
  split
  · exact settleRecord_within s pg m _ n0 _ _
  · exact .refl s

theorem pixelsReported_within (s1 : State) (m q : Nat) (n : Int) (px : List (Nat × Pixel)) :
    Within pixelsNoted s1 (pixelsReported s1 m q n px) := by
  have hreported (xs : List Int) (hits : List (Nat × Nat)) : Within pixelsNoted s1
      (tablePoison (xs.foldl (fun t x => markArea t (planeOf m q) x x n n) s1) hits) :=
    (Within.foldl (F := mapMarked) (fun t x => markArea_mapMarked t _ x x n n) xs s1).andThen (tablePoison_within _ hits)
  exact .ite ((hreported _ _).andThen (outOfStep_stepMarked _ _ _ _ _)) (hreported _ _)

theorem printRecord_within (s : State) (pg : Page) (n0 : Int) (m q : Nat) (n : Int) :
    Within computed s (printRecord s pg n0 m q n) := by
  rw [printRecord_eq]
  exact ((fetchFor_within s pg n0 m q n).andThen (F := computed) (pixelsReported_within _ m q n _)).andThen (handOver_within _ _)

/-! Slice deadlines (R87, R107, R120, R215, R273). -/

/-- `s` with what SLICE_DEADLINE may touch taken from `t`. -/
def deadlinePassed (s t : State) : State :=
  { reported s t with
      pages := { s.pages with list := t.pages.list }
      slices := { s.slices with recs := t.slices.recs, handed := t.slices.handed }
      csc := { s.csc with marks := t.csc.marks, refillMarks := t.csc.refillMarks, cleanRuns := t.csc.cleanRuns }
      asy := { s.asy with marks := t.asy.marks, markedLines := t.asy.markedLines, cutMarks := t.asy.cutMarks }
      map := { s.map with waitRaised := t.map.waitRaised, holding := t.map.holding }
      dxl := { s.dxl with released := t.dxl.released }
      par := { s.par with unshadowed := t.par.unshadowed } }

theorem dueUnadmitted_within (s : State) (n : Int) :
    Within (fun s t => { reported s t with par := { s.par with unshadowed := t.par.unshadowed } }) s (dueUnadmitted s n) := by
  refine .ite (.refl s) ?_
  split
  · exact .after (raiseIf_within _ _ _ _)
  · exact .refl s

theorem holdMarks_within (s : State) (m q : Nat) (n : Int) : Within stepMarked s (holdMarks s m q n) :=
  .ite (setMark_stepMarked s _ _) (.refl s)

theorem deadlineRecord_within (s : State) (m q : Nat) (n : Int) : Within lateMade s (deadlineRecord s m q n) := by
  unfold deadlineRecord
  split
  · exact .ite (makeLate_within s m q n) (.refl s)
  · split
    · exact makeLate_within s m q n
    · exact handOver_within s _
    · exact handOver_within s _

/-- `s` with what holding a module's records for a generation touches taken from `t` (R120). -/
def mapHeld (s t : State) : State :=
  { reported s t with map := { s.map with waitRaised := t.map.waitRaised, holding := t.map.holding } }

theorem mapWaitLine_within (s : State) (m g : Nat) : Within mapHeld s (mapWaitLine s m g) := by
  have hheld (hs : List (Nat × Nat)) : Within mapHeld s
      (count { dropHolding s m with map := { (dropHolding s m).map with holding := hs } } (cnum 2 47)) := by
    exact .after (count_within _ _)
  have hraised (t : State) (ws : List Nat) : Within mapHeld t { t with map := { t.map with waitRaised := ws } } := rfl
  exact .ite (hheld _) (((hheld _).andThen (F := mapHeld) (hraised _ _)).andThen (raise_within _ _ _))

/-- `s` with what a record that is not delivered touches taken from `t` (R79, R215). -/
def dropped (s t : State) : State :=
  { reported s t with
      pages := { s.pages with list := t.pages.list }, slices := { s.slices with recs := t.slices.recs }
      dxl := { s.dxl with released := t.dxl.released }
      asy := { s.asy with marks := t.asy.marks, markedLines := t.asy.markedLines, cutMarks := t.asy.cutMarks } }

theorem undelivered_within (s : State) (m q : Nat) (n : Int) (drops : Bool) : Within dropped s (undelivered s m q n drops) := by
  have hleft (rs : List Rec) (ns : Sparse Int) : Within dropped s { s with
      slices := { s.slices with recs := rs }, dxl := { s.dxl with released := ns } } := rfl
  exact .andThen (G := dropped) (.ite ((hleft _ _).andThen (markArea_mapMarked _ _ _ _ _ _)) (hleft _ _))
    (retirePages_within _)

/-- A record handed over that waits for its generation is LATE, as is every later one of its module (R120). -/
def awaitMap (s : State) (m q : Nat) (n : Int) : State :=
  match mapWaits s m n, recAt s m q n with
  | some g, some r =>
    if (groupAt s m).joined then mapWaitLine (if r.kind = .late then s else makeLate s m q n) m g else s
  | _, _ => s

/-- A record at its slice deadline, handed over as it then stands (R87, R120, R273). -/
def atDeadline (s : State) (m q : Nat) (n : Int) : State :=
  awaitMap (deadlineRecord (holdMarks (dueUnadmitted s n) m q n) m q n) m q n

/-- The record of (m, q, n) in the queue has drops to print. -/
def printsAt (s : State) (m q : Nat) (n : Int) : Bool :=
  match recAt s m q n with
  | some r => r.kind == .print
  | none => false

theorem execSliceDeadline_eq (m q : Nat) (n : Int) (s : State) : execSliceDeadline m q n s =
    if planeRuns s m q && produces s n && decide (sliceDeadlineOf s (planeOf m q) n ≤ lineCounter s) &&
        ((recAt s m q n).isSome || sliceTurn s m q n) then
      .next (if (groupAt (atDeadline s m q n) m).joined then atDeadline s m q n
        else undelivered (atDeadline s m q n) m q n (printsAt (atDeadline s m q n) m q n))
    else .next s := rfl

theorem awaitMap_within (s : State) (m q : Nat) (n : Int) : Within deadlinePassed s (awaitMap s m q n) := by
  unfold awaitMap
  split
  · exact .ite (.andThen (G := lateMade) (.ite (.refl s) (makeLate_within s m q n)) (mapWaitLine_within _ m _)) (.refl s)
  · exact .refl s

theorem atDeadline_within (s : State) (m q : Nat) (n : Int) : Within deadlinePassed s (atDeadline s m q n) :=
  (((dueUnadmitted_within s n).andThen (F := deadlinePassed) (holdMarks_within _ m q n)).andThen (F := deadlinePassed)
    (deadlineRecord_within _ m q n)).andThen (awaitMap_within _ m q n)

end Sys2Proof.Machine
end

section
/-! SUPPORT. The frames of the commands and events of the slices and of the scheduler (R85, R107, R109, R124, R133, R145). -/

set_option Elab.async false

namespace Sys2Proof.Machine

/-! Deadlines, readings, records computed and scheduled. -/

theorem sliceDeadline_changesOnly (m q : Nat) (n : Int) (s : State) :
    ChangesOnly [.sliceDeadline m q n] s (deadlinePassed s) := by
  refine changesOnly_of_within (show OutcomeWithin deadlinePassed s (execSliceDeadline m q n s) from ?_)
  rw [execSliceDeadline_eq]
  exact .ite (Within.ite (atDeadline_within s m q n) ((atDeadline_within s m q n).andThen (undelivered_within _ m q n _)))
    (Within.refl s)

/-- `s` with what PACE_READING may touch taken from `t`: the readings, the lowest of them, and PACE_LOW (R108, R109). -/
def paceRead (s t : State) : State :=
  { reported s t with
      obs := { s.obs with log := t.obs.log, seq := t.obs.seq, lostNext := t.obs.lostNext, window := t.obs.window
                          signalDue := t.obs.signalDue, signalAt := t.obs.signalAt, counters := t.obs.counters
                          saturated := t.obs.saturated, freshAt := t.obs.freshAt, fresh := t.obs.fresh
                          paceMin := t.obs.paceMin }
      pages := { s.pages with list := t.pages.list }
      slices := { s.slices with pace := t.slices.pace, lowRuns := t.slices.lowRuns } }

/-- `s` with what a slice's reading may touch taken from `t` (R109). -/
def paceTaken (s t : State) : State :=
  { reported s t with
      pages := { s.pages with list := t.pages.list }, slices := { s.slices with lowRuns := t.slices.lowRuns } }

theorem reportPace_within (s : State) (m pace : Nat) : Within paceTaken s (reportPace s m pace) := by
  have hmarked (ps : List Page) : Within listed s
      (ps.foldl (fun t p => setPage t p.id fun x => { x with once := x.once ++ [0x0105] }) s) :=
    .foldl (fun t p => setPage_within t p.id _) ps s
  exact (hmarked _).andThen (F := paceTaken) (raiseIf_within _ _ _ _)

theorem paceSlice_within (s : State) (m pace : Nat) : Within paceTaken s (paceSlice s m pace) := by
  have hrun (run : Nat) : Within paceTaken s
      { s with slices := { s.slices with lowRuns := mapSet 0 s.slices.lowRuns m run } } := rfl
  exact .ite (hrun _) (.andThen (G := paceTaken) (.ite ((hrun _).andThen (count_within _ _)) (hrun _)) (reportPace_within _ m pace))

theorem readPaces_within (s : State) (ps : List Nat) : Within paceTaken s (readPaces s ps) :=
  .foldl (fun t m => paceSlice_within t m (ps.getD m 0)) _ s

theorem paceReading_changesOnly (pace : List Nat) (s : State) : ChangesOnly [.paceReading pace] s (paceRead s) :=
  changesOnly_of_within (show OutcomeWithin paceRead s (execPaceReading pace s) from
    .ite (Within.refl s) (Within.after (readPaces_within _ _)))

/-- `s` with what RECORD_COMPLETE may touch taken from `t`. -/
def recordCompleted (s t : State) : State :=
  { reported s t with
      pages := { s.pages with list := t.pages.list }, tables := { s.tables with poisoned := t.tables.poisoned }
      slices := { s.slices with recs := t.slices.recs, handed := t.slices.handed }
      csc := { s.csc with marks := t.csc.marks, refillMarks := t.csc.refillMarks, cleanRuns := t.csc.cleanRuns
                          stamped := t.csc.stamped }
      asy := { s.asy with marks := t.asy.marks, markedLines := t.asy.markedLines, cutMarks := t.asy.cutMarks } }

theorem recordComplete_changesOnly (m q : Nat) (n : Int) (s : State) :
    ChangesOnly [.recordComplete m q n] s (recordCompleted s) := by
  refine changesOnly_of_within (show OutcomeWithin recordCompleted s (execRecordComplete m q n s) from .ite ?_ (Within.refl s))
  split
  · next p _ =>
    split
    · next n0 _ => exact Within.ite ((printRecord_within s p n0 m q n).andThen (scheduleReady_within _)) (.refl s)
    · exact Within.refl s
  · exact Within.refl s

/-- `s` with what REFILL_FIX may touch taken from `t`. -/
def refillFixed (s t : State) : State :=
  { reported s t with
      pages := { s.pages with list := t.pages.list }, slices := { s.slices with recs := t.slices.recs }
      csc := { s.csc with marks := t.csc.marks, refillMarks := t.csc.refillMarks, cleanRuns := t.csc.cleanRuns
                          rho := t.csc.rho, heldRho := t.csc.heldRho, fixedTo := t.csc.fixedTo, stamped := t.csc.stamped } }

/-- The tick for which rho is fixed now has its rho already (R124). -/
def rhoFixed (s : State) : Bool :=
  match s.csc.fixedTo with
  | some f => decide (lineCounter s + 8 ≤ f)
  | none => false

/-- The first tick for which rho is fixed now (R124). -/
def firstHeld (s : State) : Int :=
  match s.csc.fixedTo with
  | some f => max (f + 1) (lineCounter s + 8 - 63)
  | none => lineCounter s + 8

/-- The ticks for which rho is fixed now, each with it (R124). -/
def heldTicks (s : State) : List (Int × Nat) :=
  (List.range (lineCounter s + 8 + 1 - firstHeld s).toNat).map fun i => (firstHeld s + (i : Nat), rhoNow s)

/-- The state with rho held for the tick 8 ahead (R124). -/
def rhoHeld (s : State) : State :=
  { s with csc := { s.csc with
      heldRho := (s.csc.heldRho.filter fun x => decide (lineCounter s - 64 ≤ x.1)) ++ heldTicks s
      rho := s.csc.rho.filter fun x => decide (lineCounter s - 64 ≤ x.1)
      fixedTo := some (lineCounter s + 8) } }

/-- The state once the gaffer has sent the rho it holds (R267). -/
def rhoSent (s : State) : State :=
  if isGaffer s && s.par.linkRun then
    emitAll (rhoHeld s) ((heldTicks s).map fun x => .partner (ctrlWord 0xA2 [(40, unsignedOf 16 x.1), (8, x.2)]))
  else rhoHeld s

theorem execRefillFix_eq (s : State) : execRefillFix s =
    if s.par.state = .failed ∨ rhoFixed s = true then .next s else .next (scheduleReady (rhoSent s)) := rfl

theorem rhoSent_within (s : State) : Within (fun s t => { s with out := t.out }) (rhoHeld s) (rhoSent s) := .ite rfl (.refl _)

theorem rhoHeld_within (s : State) : Within refillFixed s (rhoHeld s) := rfl

theorem refillFix_changesOnly (s : State) : ChangesOnly [.refillFix] s (refillFixed s) := by
  refine changesOnly_of_within (show OutcomeWithin refillFixed s (execRefillFix s) from ?_)
  rw [execRefillFix_eq]
  exact .ite (Within.refl s)
    (((rhoHeld_within s).andThen (F := refillFixed) (rhoSent_within s)).andThen (scheduleReady_within _))

theorem schedLate_changesOnly (m q : Nat) (n : Int) (s : State) : ChangesOnly [.schedLate m q n] s (lateMade s) := by
  refine changesOnly_of_within (show OutcomeWithin lateMade s (execSchedLate m q n s) from ?_)
  unfold execSchedLate
  split
  · exact .ite ((makeLate_within s m q n).andThen (F := lateMade) (count_within _ _)) (Within.refl s)
  · exact Within.refl s

/-! Release (R133, R137, R141, R142, R197, R201). -/

/-- `s` with what RECORD_RELEASE may touch taken from `t`. -/
def recordReleased (s t : State) : State :=
  { reported s t with
      pages := { s.pages with list := t.pages.list }
      slices := { s.slices with recs := t.slices.recs, handed := t.slices.handed }
      csc := { s.csc with nf := t.csc.nf, nfBase := t.csc.nfBase, bf := t.csc.bf, kf := t.csc.kf, armed := t.csc.armed
                          refills := t.csc.refills, seamReq := t.csc.seamReq, joinSeams := t.csc.joinSeams
                          marks := t.csc.marks, refillMarks := t.csc.refillMarks, cleanRuns := t.csc.cleanRuns }
      dxl := { s.dxl with replay := t.dxl.replay, rseq := t.dxl.rseq, resync := t.dxl.resync, released := t.dxl.released
                          firstLine := t.dxl.firstLine }
      asy := { s.asy with marks := t.asy.marks, markedLines := t.asy.markedLines, cutMarks := t.asy.cutMarks }
      free := t.free }

theorem reportThin_fetched (s : State) (r : Rec) : Within fetched s (reportThin s r) := by
  have hdrops (x : Nat × Nat → Int) : Within fetched s ((thinnedOf r).foldl (fun t l =>
      markArea (countThin r t l) (planeOf r.m r.q) (x l) (x l) r.n r.n) s) :=
    .foldl (fun t l => (countThin_within r t l).andThen (markArea_mapMarked _ _ _ _ _ _)) _ s
  unfold reportThin
  dsimp only
  split
  · exact .ite (hdrops _) (((hdrops _).andThen (F := fetched) (oncePage_within _ _ _)).andThen (raiseIf_within _ _ _ _))
  · exact hdrops _

theorem commitRec_within (s : State) (r : Rec) : Within recordReleased s { s with csc := commitRec s.csc r } := by
  unfold commitRec seamStep
  dsimp only
  split <;> rfl

theorem reportSeam_released (s : State) (r : Rec) : Within recordReleased s (reportSeam s r) :=
  .ite (.refl s) ((Within.after (F := recordReleased) (count_within _ _)).andThen (raise_within _ _ _))

theorem releasePrint_released (s : State) (r : Rec) : Within recordReleased s (releasePrint s r) :=
  ((commitRec_within s r).andThen (F := recordReleased) (reportThin_fetched _ r)).andThen (reportSeam_released _ r)

theorem noteRefill_released (s : State) (r : Rec) : Within recordReleased s (noteRefill s r) := rfl

theorem noteDrops_stepMarked (s : State) (r : Rec) (drops : Bool) : Within stepMarked s (noteDrops s r drops) :=
  .ite (.ite (clearMark_stepMarked s _) rfl) (.refl s)

theorem transmit_within (s : State) (r : Rec) : Within recordReleased s (transmit s r) :=
  (sendRec_within s (sentRec s r)).andThen (H := recordReleased) rfl

theorem releaseRecord_within (s : State) (r : Rec) : Within recordReleased s (releaseRecord s r) := by
  have hprint : Within recordReleased s (if r.kind = .print then releasePrint s r else s) :=
    .ite (releasePrint_released s r) (.refl s)
  have hnoted (b : Bool) := ((hprint.andThen (F := recordReleased) (countClamps_within _ r)).andThen (F := recordReleased)
    (noteRefill_released _ r)).andThen (F := recordReleased) (noteDrops_stepMarked _ r b)
  exact (((hnoted _).andThen (F := recordReleased) (beginPrinting_within _ r.n)).andThen (F := recordReleased)
    (transmit_within _ r)).andThen (retirePages_within _)

theorem recordRelease_changesOnly (m : Nat) (s : State) : ChangesOnly [.recordRelease m] s (recordReleased s) := by
  have hplanned (late : Bool) (r0 : Rec) : Within recordReleased s
      (planPlane (if late then makeLate s m r0.q r0.n else s) (mp m r0.q)) :=
    .andThen (G := lateMade) (.ite (makeLate_within s m r0.q r0.n) (.refl s)) (planPlane_within _ _)
  refine changesOnly_of_within (show OutcomeWithin recordReleased s (execRecordRelease m s) from ?_)
  unfold execRecordRelease
  split
  · exact Within.refl s
  · next r0 _ =>
    dsimp only
    split
    · exact Within.refl s
    · exact Within.ite ((hplanned _ r0).andThen (releaseRecord_within _ _)) (hplanned _ r0)

/-! Overspeed (R145). -/

/-- `s` with what OVERSPEED may touch taken from `t`. -/
def overspeedEnded (s t : State) : State :=
  { reported s t with
      pages := { s.pages with list := t.pages.list }, slices := { s.slices with recs := t.slices.recs }
      csc := { s.csc with overRun := t.csc.overRun }
      asy := { s.asy with due := t.asy.due, cutMarks := t.asy.cutMarks }
      par := { s.par with mseqTx := t.par.mseqTx } }

theorem overspeedEnd_within (s : State) (cause : Nat) : Within printingEnded s (overspeedEnd s cause) :=
  .ite (.refl s) ((endPrinting_within s cause).andThen (F := printingEnded) (raise_within _ _ _))

theorem overspeed_changesOnly (s : State) : ChangesOnly [.overspeed] s (overspeedEnded s) :=
  changesOnly_of_within (show OutcomeWithin overspeedEnded s (execOverspeed s) from
    .ite (Within.refl s) (Within.after (overspeedEnd_within _ 2)))

end Sys2Proof.Machine
end

section
/-! SUPPORT. The overlays of map generations and of the line engine's tables, and the frames of the commands of the map and the
tables (R103, R105, R117, R119). -/

set_option Elab.async false

namespace Sys2Proof.Machine

/-! Generations (R116 to R119, R205, R268). -/

/-- `s` with what a new generation touches taken from `t` (R117, R205, R268). -/
def genAdded (s t : State) : State :=
  { s with map := { s.map with gens := t.map.gens, pending := t.map.pending }
           par := { s.par with mseqTx := t.par.mseqTx }, out := t.out }

theorem sendGenTo_within (s : State) (g : Gen) (full : Bool) (m : Nat) :
    Within (fun s t => { s with out := t.out }) s (sendGenTo s g full m) := rfl

theorem genParts_within (s : State) (g : Gen) (full : Bool) (fuel first : Nat) (ws : List Qword) :
    Within told s (genParts s g full fuel first ws) := by
  induction fuel generalizing s first ws with
  | zero => exact .refl s
  | succ fuel ih => exact .ite (tellServitor_within s 1 _) ((tellServitor_within s 1 _).andThen (ih _ _ _))

theorem tellGen_within (s : State) (g : Gen) (full : Bool) : Within told s (tellGen s g full) := genParts_within s g full _ _ _

theorem addGen_within (s : State) (g : Gen) : Within genAdded s (addGen s g) := by
  have hsent (u : State) (ms : List Nat) : Within (fun s t => { s with out := t.out }) u
      (ms.foldl (fun t m => sendGenTo t g g.full m) u) := .foldl (fun t m => sendGenTo_within t g g.full m) ms u
  have hlisted (gs : List Gen) (k : Option Nat) : Within genAdded s { s with map := { s.map with gens := gs, pending := k } } := rfl
  exact ((hlisted _ _).andThen (F := genAdded) (hsent _ _)).andThen (tellGen_within _ g g.full)

/-- `s` with what MAP_PUSH may touch taken from `t`, its completion included. -/
def mapPushed (s t : State) : State :=
  { completed s t with
      map := { s.map with gens := t.map.gens, pending := t.map.pending, reports := t.map.reports, poisonFix := t.map.poisonFix }
      par := { s.par with mseqTx := t.par.mseqTx } }

theorem mapPush_changesOnly (e : Entry) (s : State) : ChangesOnly [.mapPush e] s (mapPushed s) := by
  have hpushed (g : Gen) (fs : List (Nat × Nat)) : Within mapPushed s
      (let s1 := addGen (dropReports s) g
       { s1 with map := { s1.map with poisonFix := s1.map.poisonFix ++ fs } }) :=
    (Within.after (F := mapPushed) (addGen_within _ g)).andThen (H := mapPushed) rfl
  exact changesOnly_of_within (command_within fun _ => .checked (.checked (.okWith (hpushed _ _) _) _) _)

theorem mapRead_changesOnly (e : Entry) (s : State) : ChangesOnly [.mapRead e] s (completed s) := by
  have hwritten (a : Nat) (ds : List Dword) (xs : List Sent) : Within completed s (emitAll (hostPutDws s a ds) xs) := rfl
  have hread (a st : Nat) (ds : List Dword) (xs : List Sent) :
      ReplyWithin completed s (.done (emitAll (hostPutDws s a ds) xs) st []) := hwritten a ds xs
  exact changesOnly_of_within (command_within fun _ => .checked (hread _ _ _ _) _)

/-- `s` with what MAP_APPLIED may touch taken from `t` (R119). -/
def genSettled (s t : State) : State :=
  { reported s t with
      map := { s.map with gens := t.map.gens, pending := t.map.pending, poisoned := t.map.poisoned
                          poisonFix := t.map.poisonFix } }

theorem settleGen_within (s : State) (g : Gen) : Within genSettled s (settleGen s g) := .after (raise_within _ _ _)

theorem mapApplied_changesOnly (s : State) : ChangesOnly [.mapApplied] s (genSettled s) := by
  refine changesOnly_of_within (show OutcomeWithin genSettled s (execMapApplied s) from ?_)
  unfold execMapApplied
  split
  · exact Within.refl s
  · split
    · exact Within.refl s
    · exact Within.ite (settleGen_within s _) (.refl s)

/-- `s` with what GENERATION_FORM may touch taken from `t`. -/
def generationFormed (s t : State) : State :=
  { reported s t with
      map := { s.map with gens := t.map.gens, pending := t.map.pending, reports := t.map.reports, joins := t.map.joins
                          poisonFix := t.map.poisonFix }
      asy := { s.asy with due := t.asy.due }, par := { s.par with mseqTx := t.par.mseqTx } }

theorem rankDue_within (s : State) (m : Nat) : Within bandReturned s (rankDue s m) :=
  .foldl (fun t p => .ite (addDue_within t p) (.refl t)) _ s

theorem reportPoison_within (s : State) (number : Nat) (xs : List (Nat × Nat)) :
    Within generationFormed s (reportPoison s number xs) := by
  have hplane (t : State) (k cl : Nat) : Within generationFormed t (raise
      (addDue { t with map := { t.map with poisonFix := t.map.poisonFix ++ [(k, number)] } } (planeOf (k / 4) (k % 4)))
      0x0706 (it (k / 4 : Nat) ++ it (k % 4 : Nat) ++ it cl)) :=
    (Within.after (F := generationFormed) (addDue_within _ _)).andThen (raise_within _ _ _)
  exact .foldl (fun t k => hplane t k _) _ s

/-- `s` with what waits for a generation dropped, as a generation formed takes it all (R122, R123). -/
def waitsCleared (s : State) : State := { s with map := { s.map with reports := [], joins := [] } }

theorem waitsCleared_within (s : State) : Within generationFormed s (waitsCleared s) := rfl

theorem rankDues_within (js : List (Nat × List Nat)) (s : State) :
    Within bandReturned s (js.foldl (fun t j => rankDue t j.1) s) :=
  .foldl (fun t (j : Nat × List Nat) => rankDue_within t j.1) js s

theorem addGen_formed (s : State) (g : Gen) : Within generationFormed s (addGen (waitsCleared s) g) :=
  (waitsCleared_within s).andThen (addGen_within _ g)

theorem generationForm_changesOnly (s : State) : ChangesOnly [.generationForm] s (generationFormed s) := by
  have hformed (g : Gen) (js : List (Nat × List Nat)) (xs : List (Nat × Nat)) : Within generationFormed s
      (reportPoison (js.foldl (fun t j => rankDue t j.1) (addGen (waitsCleared s) g)) g.number xs) :=
    ((addGen_formed s g).andThen (F := generationFormed) (rankDues_within js _)).andThen (reportPoison_within _ g.number xs)
  refine changesOnly_of_within (show OutcomeWithin generationFormed s (execGenerationForm s) from ?_)
  unfold execGenerationForm
  exact .ite (Within.refl s) (.ite (Within.refl s) (.ite (waitsCleared_within s) (hformed _ _ _)))

/-! Tables (R101 to R106). -/

/-- `s` with the base copies of the curve set and its pending updates, and those of the masks, taken from `t` (R103, R105). -/
def tablesFolded (s t : State) : State :=
  { s with tables := { s.tables with curves := t.tables.curves, entries := t.tables.entries, curveUpds := t.tables.curveUpds
                                     masks := t.tables.masks, maskUpds := t.tables.maskUpds } }

/-- Tables with the base copies of the curve set and of the masks, and their pending updates, taken from `u`. -/
def folded (t u : Tables) : Tables :=
  { t with curves := u.curves, entries := u.entries, curveUpds := u.curveUpds, masks := u.masks, maskUpds := u.maskUpds }

theorem foldCurves_eq_folded (t : Tables) (old : CurveUpd → Bool) : foldCurves t old = folded t (foldCurves t old) :=
  List.foldlRecOn (motive := fun u => u = folded t u) _ _ rfl fun _ hu _ _ => by rw [hu]; rfl

theorem foldMasks_eq_folded (t : Tables) (old : MaskUpd → Bool) : foldMasks t old = folded t (foldMasks t old) :=
  List.foldlRecOn (motive := fun u => u = folded t u) _ _ rfl fun _ hu _ _ => by rw [hu]; rfl

theorem foldDropped_within (s : State) : Within tablesFolded s (foldDropped s) := by
  have htables (oldc : CurveUpd → Bool) (oldm : MaskUpd → Bool) :
      foldMasks (foldCurves s.tables oldc) oldm = folded s.tables (foldMasks (foldCurves s.tables oldc) oldm) := by
    rw [foldMasks_eq_folded, foldCurves_eq_folded]
    rfl
  exact congrArg (fun t : Tables => { s with tables := t }) (htables _ _)

/-- `s` with what the copies found poisoned take from `t` (R106). -/
def poisonEnded (s t : State) : State := { s with tables := { s.tables with poisoned := t.tables.poisoned } }

theorem endPoison_within (s : State) (kind index : Nat) (n : Int) : Within poisonEnded s (endPoison s kind index n) := rfl

theorem endPoisons_within (units : List (Nat × Nat)) (n : Int) (s : State) :
    Within poisonEnded s (units.foldl (fun t x => endPoison t x.1 x.2 n) s) :=
  .foldl (fun t x => endPoison_within t x.1 x.2 n) units s

/-- `s` with what CURVE_LOAD may touch taken from `t`, its completion included. -/
def curvesLoaded (s t : State) : State :=
  { completed s t with
      tables := { s.tables with
        curves := t.tables.curves, entries := t.tables.entries, curveUpds := t.tables.curveUpds, curveGen := t.tables.curveGen
        masks := t.tables.masks, maskUpds := t.tables.maskUpds, poisoned := t.tables.poisoned } }

/-- `s` with what SCREEN_LOAD may touch taken from `t`, its completion included. -/
def screenLoaded (s t : State) : State :=
  { completed s t with
      web := { s.web with screens := t.web.screens }
      tables := { s.tables with screens := t.tables.screens, poisoned := t.tables.poisoned } }

/-- `s` with what STITCH_LOAD may touch taken from `t`, its completion included. -/
def masksLoaded (s t : State) : State :=
  { completed s t with
      tables := { s.tables with
        curves := t.tables.curves, entries := t.tables.entries, curveUpds := t.tables.curveUpds
        masks := t.tables.masks, maskUpds := t.tables.maskUpds, poisoned := t.tables.poisoned } }


theorem addCurveUpd_within (s : State) (u : CurveUpd) : Within curvesLoaded s (addCurveUpd s u) :=
  (foldDropped_within s).andThen (H := curvesLoaded) (.ite rfl rfl)

theorem curveLoad_changesOnly (e : Entry) (s : State) : ChangesOnly [.curveLoad e] s (curvesLoaded s) := by
  have hloaded (u : CurveUpd) (units : List (Nat × Nat)) (n : Int) : Within curvesLoaded s
      (units.foldl (fun t x => endPoison t x.1 x.2 n) (addCurveUpd s u)) :=
    (addCurveUpd_within s u).andThen (endPoisons_within units n _)
  refine changesOnly_of_within (command_within (F := curvesLoaded) fun r => .checked ?_ _)
  split
  · exact .reject s _
  · exact .checked (.okWith (hloaded _ _ _) _) _

/-- The state once a SCREEN_LOAD's tile, where it loads one, is in its slot (R99). -/
def tilePut (s : State) (load : Bool) (slot : Nat) (tile : List Qword) : State :=
  if load then endPoison { s with tables := { s.tables with screens := mapSet [] s.tables.screens slot tile } }
    kindScreen slot minI64 else s

/-- The state with the screens bound as `screens` says (R99). -/
def screensBound (s : State) (screens : Timed) : State := { s with web := { s.web with screens := screens } }

theorem tilePut_within (s : State) (load : Bool) (slot : Nat) (tile : List Qword) :
    Within screenLoaded s (tilePut s load slot tile) := .ite rfl (.refl s)

theorem screensBound_within (s : State) (screens : Timed) : Within screenLoaded s (screensBound s screens) := rfl

theorem screenLoad_changesOnly (e : Entry) (s : State) : ChangesOnly [.screenLoad e] s (screenLoaded s) := by
  have hloaded (load : Bool) (slot : Nat) (tile : List Qword) (screens : Timed) : Within screenLoaded s
      (screensBound (tilePut s load slot tile) screens) :=
    (tilePut_within s load slot tile).andThen (screensBound_within _ screens)
  refine changesOnly_of_within (command_within (F := screenLoaded) fun r => .checked ?_ _)
  split
  · exact .reject s _
  · exact .checked (.okWith (hloaded _ _ _ _) _) _

/-- One mask of a STITCH_LOAD: pending at its web line with a job open, in the base at once with none (R104). -/
def putMask (job : Bool) (n : Int) (t : Tables) (r : Nat × Nat × List (BitVec 256)) : Tables :=
  let m := 4 * r.1 + r.2.1
  if job then { t with maskUpds := (t.maskUpds.filter fun u => !(u.mask == m && u.line == n)) ++
    [{ mask := m, rows := r.2.2, line := n, out := false }] }
  else { t with masks := mapSet middleCut t.masks m r.2.2 }

/-- The state once a STITCH_LOAD's masks are put and the poison of the copies before them ends (R104, R106). -/
def masksPut (s : State) (job : Bool) (n : Int) (rs : List (Nat × Nat × List (BitVec 256))) : State :=
  (rs.map fun r => 4 * r.1 + r.2.1).foldl (fun t m => endPoison t kindMask m (changeLine s n))
    { foldDropped s with tables := rs.foldl (putMask job n) (foldDropped s).tables }

theorem putMasks_eq_folded (job : Bool) (n : Int) (rs : List (Nat × Nat × List (BitVec 256))) (t : Tables) :
    rs.foldl (putMask job n) t = folded t (rs.foldl (putMask job n) t) :=
  List.foldlRecOn (motive := fun u => u = folded t u) _ _ rfl fun u hu r _ => by
    unfold putMask
    rw [hu]
    dsimp only
    split <;> rfl

/-- Past the puts, a STITCH_LOAD only ends poison. -/
theorem masksPut_ends (s : State) (job : Bool) (n : Int) (rs : List (Nat × Nat × List (BitVec 256))) :
    Within poisonEnded { foldDropped s with tables := rs.foldl (putMask job n) (foldDropped s).tables } (masksPut s job n rs) :=
  .foldl (fun t m => endPoison_within t kindMask m (changeLine s n)) _ _

theorem masksPut_within (s : State) (job : Bool) (n : Int) (rs : List (Nat × Nat × List (BitVec 256))) :
    Within masksLoaded s (masksPut s job n rs) := by
  have hput : Within tablesFolded (foldDropped s)
      { foldDropped s with tables := rs.foldl (putMask job n) (foldDropped s).tables } :=
    congrArg (fun t => ({ foldDropped s with tables := t } : State)) (putMasks_eq_folded job n rs _)
  exact ((foldDropped_within s).andThen (F := masksLoaded) hput).andThen (masksPut_ends s job n rs)

theorem stitchLoad_changesOnly (e : Entry) (s : State) : ChangesOnly [.stitchLoad e] s (masksLoaded s) := by
  refine changesOnly_of_within (command_within (F := masksLoaded) fun r => .checked ?_ _)
  split
  · exact .reject s _
  · exact .checked (.okWith (masksPut_within s _ _ _) _) _

/-- Settles O57: each clause is the overlay of its command, put together from those of the operations it calls. -/
theorem frameLinesAndMap : Obligations.FrameLinesAndMap := fun s =>
  ⟨fun e => mapPush_changesOnly e s, fun e => curveLoad_changesOnly e s, fun e => screenLoad_changesOnly e s,
    fun e => stitchLoad_changesOnly e s, fun e => mapRead_changesOnly e s, fun pace => paceReading_changesOnly pace s,
    fun m q n => recordComplete_changesOnly m q n s, fun m q n => sliceDeadline_changesOnly m q n s, refillFix_changesOnly s,
    fun m q n => schedLate_changesOnly m q n s, fun m => recordRelease_changesOnly m s, overspeed_changesOnly s,
    mapApplied_changesOnly s, generationForm_changesOnly s⟩

end Sys2Proof.Machine
end

section
/-! SUPPORT. The records of a slice's queue: what handing over, making LATE, scheduling and not delivering a record leave there
(R87, R89, R107, R124, R215). -/

set_option Elab.async false

namespace Sys2Proof.Machine

section
variable {s t : State} {m q : Nat} {n : Int}

/-! The record of a module-plane and web line. -/

theorem recAt_congr (h : t.slices = s.slices) : recAt t m q n = recAt s m q n := by
  unfold recAt
  rw [h]

theorem recAt_setRec (s : State) {f : Rec → Rec} (hf : ∀ r, (f r).m = r.m ∧ (f r).q = r.q ∧ (f r).n = r.n) :
    recAt (setRec s m q n f) m q n = (recAt s m q n).map f := by
  have hfound (r : Rec) : ((if r.m = m ∧ r.q = q ∧ r.n = n then f r else r).m == m &&
      (if r.m = m ∧ r.q = q ∧ r.n = n then f r else r).q == q &&
      (if r.m = m ∧ r.q = q ∧ r.n = n then f r else r).n == n) = (r.m == m && r.q == q && r.n == n) := by
    obtain ⟨hm, hq, hn⟩ := hf r
    split
    · rw [hm, hq, hn]
    · rfl
  simp only [recAt, setRec, List.find?_map, Function.comp_def, hfound]
  cases hr : s.slices.recs.find? fun r => r.m == m && r.q == q && r.n == n with
  | none => rfl
  | some r =>
    have hplace := List.find?_some hr
    simp only [Bool.and_eq_true, beq_iff_eq, and_assoc] at hplace
    exact congrArg some (if_pos hplace)

theorem recAt_handOver {r : Rec} (h : recAt s r.m r.q r.n = none) : recAt (handOver s r) r.m r.q r.n = some r := by
  have hnone : s.slices.recs.find? (fun x => x.m == r.m && x.q == r.q && x.n == r.n) = none := h
  simp only [recAt, handOver, List.find?_append, hnone, List.find?_cons, beq_self_eq_true, Bool.and_self, Option.none_or]

/-! A record made LATE (R107). -/

/-- The record of (m, q, n) stands in the queue, LATE. -/
def LateAt (s : State) (m q : Nat) (n : Int) : Prop := ∃ y, recAt s m q n = some y ∧ y.kind = .late ∧ y.levels = []

theorem recAt_lateLine (s : State) (m q : Nat) (n : Int) : recAt (lateLine s m q n) m q n = recAt s m q n :=
  recAt_congr ((lateLine_lateNoted s m q n).untouched State.slices)

theorem recAt_makeLate {x : Rec} (h : recAt s m q n = some x) : recAt (makeLate s m q n) m q n = some (blankRec x .late) := by
  unfold makeLate
  rw [h]
  exact (recAt_setRec _ (f := fun r => blankRec r .late) fun _ => ⟨rfl, rfl, rfl⟩).trans
    (congrArg (Option.map _) ((recAt_lateLine s m q n).trans h))

theorem recAt_makeLate_none (h : recAt s m q n = none) :
    recAt (makeLate s m q n) m q n = some (newRec s m q n .late [] 15) := by
  unfold makeLate
  rw [h]
  exact recAt_handOver (r := newRec s m q n .late [] 15) ((recAt_lateLine s m q n).trans h)

theorem makeLate_lateAt (s : State) (m q : Nat) (n : Int) : LateAt (makeLate s m q n) m q n := by
  cases h : recAt s m q n with
  | none => exact ⟨_, recAt_makeLate_none h, rfl, rfl⟩
  | some x => exact ⟨_, recAt_makeLate h, rfl, rfl⟩

/-! A slice deadline (R87, R120, R215). -/

/-- A record not handed over by its deadline goes as the page's state says, without levels (R87). -/
theorem deadlineRecord_none (h : recAt s m q n = none) : ∃ x, recAt (deadlineRecord s m q n) m q n = some x ∧
    x.levels = [] ∧ x.kind = deadlineKind s m q n := by
  unfold deadlineRecord
  rw [h]
  dsimp only
  split
  · next hkind => exact ⟨_, recAt_makeLate_none h, rfl, hkind.symm⟩
  · next hkind => exact ⟨_, recAt_handOver (r := newRec s m q n .cut [] 15) h, rfl, hkind.symm⟩
  · exact ⟨_, recAt_handOver (r := newRec s m q n (deadlineKind s m q n) [] 15) h, rfl, rfl⟩

/-- A scheduled PRINT record still in the queue at its deadline goes LATE (R107). -/
theorem deadlineRecord_print {x : Rec} (h : recAt s m q n = some x) (hkind : x.kind = .print) (hassigned : x.assigned = true) :
    LateAt (deadlineRecord s m q n) m q n := by
  unfold deadlineRecord
  rw [h]
  dsimp only
  rw [if_pos ⟨hkind, hassigned⟩]
  exact makeLate_lateAt s m q n

theorem awaitMap_none (h : mapWaits s m n = none) : awaitMap s m q n = s := by
  unfold awaitMap
  rw [h]

theorem awaitMap_joined {g : Nat} {r : Rec} (hwaits : mapWaits s m n = some g) (hr : recAt s m q n = some r)
    (hjoined : (groupAt s m).joined = true) :
    awaitMap s m q n = mapWaitLine (if r.kind = .late then s else makeLate s m q n) m g := by
  unfold awaitMap
  rw [hwaits, hr]
  exact if_pos hjoined

theorem LateAt.congr (h : LateAt s m q n) (hslices : t.slices = s.slices) : LateAt t m q n := by
  obtain ⟨y, hy, hkind, hlevels⟩ := h
  exact ⟨y, (recAt_congr hslices).trans hy, hkind, hlevels⟩

/-- Of a joined module, a record that waits for its generation is LATE (R120). -/
theorem awaitMap_lateAt {g : Nat} {r : Rec} (hwaits : mapWaits s m n = some g) (hr : recAt s m q n = some r)
    (hlevels : r.kind = .late → r.levels = []) (hjoined : (groupAt s m).joined = true) : LateAt (awaitMap s m q n) m q n := by
  rw [awaitMap_joined hwaits hr hjoined]
  refine LateAt.congr ?_ ((mapWaitLine_within _ m g).untouched State.slices)
  split
  · next hlate => exact ⟨r, hr, hlate, hlevels hlate⟩
  · exact makeLate_lateAt s m q n

/-- What comes before the record at its deadline changes no queue. -/
theorem beforeDeadline_within (s : State) (m q : Nat) (n : Int) :
    Within (fun s t => { reported s t with
      csc := { s.csc with marks := t.csc.marks, refillMarks := t.csc.refillMarks, cleanRuns := t.csc.cleanRuns }
      par := { s.par with unshadowed := t.par.unshadowed } }) s (holdMarks (dueUnadmitted s n) m q n) :=
  (dueUnadmitted_within s n).andThen (holdMarks_within _ m q n)

theorem mapWaits_atDeadline (s : State) (m q : Nat) (n : Int) :
    mapWaits (deadlineRecord (holdMarks (dueUnadmitted s n) m q n) m q n) m n = mapWaits s m n :=
  ((deadlineRecord_within _ m q n).untouched (mapWaits · m n)).trans
    ((beforeDeadline_within s m q n).untouched (mapWaits · m n))

theorem joined_deadlineRecord (s : State) (m q : Nat) (n : Int) :
    (groupAt (deadlineRecord (holdMarks (dueUnadmitted s n) m q n) m q n) m).joined = (groupAt s m).joined :=
  ((deadlineRecord_within _ m q n).untouched fun u => (groupAt u m).joined).trans
    ((beforeDeadline_within s m q n).untouched fun u => (groupAt u m).joined)

theorem joined_atDeadline (s : State) (m q : Nat) (n : Int) : (groupAt (atDeadline s m q n) m).joined = (groupAt s m).joined :=
  (atDeadline_within s m q n).untouched fun u => (groupAt u m).joined

theorem exec_sliceDeadline (hruns : planeRuns s m q = true) (hproduces : produces s n = true)
    (hdue : sliceDeadlineOf s (planeOf m q) n ≤ lineCounter s) (hturn : recAt s m q n ≠ none ∨ sliceTurn s m q n = true) :
    exec (.sliceDeadline m q n) s = .next (if (groupAt s m).joined then atDeadline s m q n
      else undelivered (atDeadline s m q n) m q n (printsAt (atDeadline s m q n) m q n)) := by
  have hhere : ((recAt s m q n).isSome || sliceTurn s m q n) = true := by simpa [Option.isSome_iff_ne_none] using hturn
  refine (execSliceDeadline_eq m q n s).trans ?_
  rw [if_pos (by simp [hruns, hproduces, hdue, hhere]), joined_atDeadline]

theorem undelivered_recAt (s : State) (m q : Nat) (n : Int) (drops : Bool) : recAt (undelivered s m q n drops) m q n = none := by
  have hslices (u : State) : (retirePages (if drops then markModule u m q n else u)).slices = u.slices := by
    rw [(retirePages_within _).untouched State.slices]
    split
    · rfl
    · rfl
  unfold undelivered
  rw [recAt_congr (hslices _), recAt, List.find?_eq_none]
  intro r hr
  exact Bool.eq_false_iff.mp ((Bool.not_eq_true' _).mp (List.mem_filter.mp hr).2)

section
variable (hruns : planeRuns s m q = true) (hproduces : produces s n = true)
  (hdue : sliceDeadlineOf s (planeOf m q) n ≤ lineCounter s)
include hruns hproduces hdue

/-- SLICE_DEADLINE of a record not handed over, of a joined module (R87, R120). -/
theorem sliceDeadline_handsOver (hnone : recAt s m q n = none) (hturn : sliceTurn s m q n = true)
    (hjoined : (groupAt s m).joined = true) :
    Answers (.sliceDeadline m q n) s (fun t => ∃ x, recAt t m q n = some x ∧ x.levels = [] ∧
      x.kind = (if (mapWaits s m n).isSome then .late else deadlineKind s m q n)) := by
  have hexec := exec_sliceDeadline hruns hproduces hdue (.inr hturn)
  have hbefore := beforeDeadline_within s m q n
  obtain ⟨x, hx, hlevels, hkind⟩ :=
    deadlineRecord_none ((recAt_congr (hbefore.untouched State.slices)).trans hnone)
  have hjoined' := (joined_deadlineRecord s m q n).trans hjoined
  have hwaits := mapWaits_atDeadline s m q n
  rw [if_pos hjoined] at hexec
  refine ⟨_, hexec, ?_⟩
  cases hw : mapWaits s m n with
  | none =>
    rw [atDeadline, awaitMap_none (hwaits.trans hw)]
    exact ⟨x, hx, hlevels, hkind.trans (hbefore.untouched (deadlineKind · m q n))⟩
  | some g =>
    obtain ⟨y, hy, hlate, hblank⟩ := awaitMap_lateAt (hwaits.trans hw) hx (fun _ => hlevels) hjoined'
    exact ⟨y, hy, hblank, hlate⟩

/-- SLICE_DEADLINE of a scheduled PRINT record still in the queue, of a joined module (R107). -/
theorem sliceDeadline_makesLate {x : Rec} (hx : recAt s m q n = some x) (hprint : x.kind = .print)
    (hassigned : x.assigned = true) (hjoined : (groupAt s m).joined = true) :
    Answers (.sliceDeadline m q n) s (fun t => LateAt t m q n) := by
  have hexec := exec_sliceDeadline hruns hproduces hdue (.inl (by simp [hx]))
  have hbefore := beforeDeadline_within s m q n
  have hlate := deadlineRecord_print ((recAt_congr (hbefore.untouched State.slices)).trans hx) hprint hassigned
  have hjoined' := (joined_deadlineRecord s m q n).trans hjoined
  have hwaits := mapWaits_atDeadline s m q n
  rw [if_pos hjoined] at hexec
  refine ⟨_, hexec, ?_⟩
  obtain ⟨y, hy, -, hlevels⟩ := id hlate
  cases hw : mapWaits s m n with
  | none =>
    rw [atDeadline, awaitMap_none (hwaits.trans hw)]
    exact hlate
  | some g => exact awaitMap_lateAt (hwaits.trans hw) hy (fun _ => hlevels) hjoined'

/-- SLICE_DEADLINE of a module that is not joined (R215). -/
theorem sliceDeadline_undelivered (hapart : (groupAt s m).joined = false) (hturn : sliceTurn s m q n = true) :
    Answers (.sliceDeadline m q n) s (fun t => recAt t m q n = none) := by
  have hexec := exec_sliceDeadline hruns hproduces hdue (.inr hturn)
  rw [if_neg (by simp [hapart])] at hexec
  exact ⟨_, hexec, undelivered_recAt _ m q n _⟩

end

end

/-! Scheduling (R124, R131), and SCHED_LATE (R134). -/

/-- What a record says of its drops before it is scheduled. -/
def recBody (r : Rec) : Nat × Nat × Int × RecKind × Option Nat × Nat × List (Nat × Nat) :=
  (r.m, r.q, r.n, r.kind, r.page, r.directRow, r.levels)

/-- What the records of the queue say of their drops. -/
def recBodies (s : State) : List (Nat × Nat × Int × RecKind × Option Nat × Nat × List (Nat × Nat)) :=
  s.slices.recs.map recBody

theorem recBodies_congr {s t : State} (h : t.slices = s.slices) : recBodies t = recBodies s := by
  unfold recBodies
  rw [h]

theorem setRec_recBodies (s : State) (m q : Nat) (n : Int) {f : Rec → Rec} (hf : ∀ r, recBody (f r) = recBody r) :
    recBodies (setRec s m q n f) = recBodies s := by
  simp only [recBodies, setRec, List.map_map]
  refine List.map_congr_left fun r _ => ?_
  simp only [Function.comp_apply]
  split
  · exact hf r
  · rfl

theorem fixRecord_recBodies (s : State) (r : Rec) (rho : Nat) : recBodies (fixRecord s r rho) = recBodies s := by
  have hassigned (f : Rec → Rec) (xs : List (Int × Nat × Nat)) (hf : ∀ x, recBody (f x) = recBody x) :
      recBodies { setRec s r.m r.q r.n f with csc := { (setRec s r.m r.q r.n f).csc with stamped := xs } } = recBodies s :=
    setRec_recBodies s r.m r.q r.n hf
  have hcapped (u : State) (id : Dword) (b : Bool) (pay : List Dword) :
      recBodies (raiseIf b (oncePage u id 0x0204).2 0x0204 pay) = recBodies u :=
    recBodies_congr (((raiseIf_within b _ _ _).untouched State.slices).trans ((oncePage_within u id _).untouched State.slices))
  unfold fixRecord
  dsimp only
  split
  · split
    · exact (hcapped _ _ _ _).trans (hassigned _ _ fun _ => rfl)
    · exact hassigned _ _ fun _ => rfl
  · exact hassigned _ _ fun _ => rfl

theorem fixReady_recBodies (acc : State × List Nat) (r : Rec) : recBodies (fixReady acc r).1 = recBodies acc.1 := by
  unfold fixReady
  split
  · dsimp only
    split
    · exact (recBodies_congr ((setAllRefillMarks_within _).untouched State.slices)).trans (fixRecord_recBodies _ r _)
    · exact fixRecord_recBodies _ r _
  · rfl

theorem planList_recBodies (s : State) (k : Nat) (x : Csc) (seam : Nat) (rs : List Rec) :
    (planList s k x seam rs).map recBody = rs.map recBody := by
  induction rs generalizing x seam with
  | nil => rfl
  | cons r rs ih =>
    unfold planList
    split
    · exact congrArg (recBody r :: ·) (ih _ _)
    · exact congrArg (recBody r :: ·) (ih _ _)

/-- Scheduling keeps what the records say of their drops: it fixes their REFILL and plans them. -/
theorem scheduleReady_recBodies (s : State) : recBodies (scheduleReady s) = recBodies s := by
  have hfixed : recBodies ((unscheduled s).foldl fixReady (s, [])).1 = recBodies s :=
    List.foldlRecOn (motive := fun acc : State × List Nat => recBodies acc.1 = recBodies s) _ fixReady rfl
      fun acc hacc r _ => (fixReady_recBodies acc r).trans hacc
  rw [scheduleReady_eq]
  exact (foldl_keeps recBodies planPlane (fun t k => planList_recBodies t k _ _ _) _ _).trans hfixed

theorem exec_schedLate {m q : Nat} {n : Int} {s : State} {x : Rec} (hx : recAt s m q n = some x) (hprint : x.kind = .print)
    (hassigned : x.assigned = false) (hdue : deliveryDeadline s (planeOf m q) n ≤ lineCounter s) :
    exec (.schedLate m q n) s = .next (count (makeLate s m q n) (cnum 2 48)) := by
  have hexec : exec (.schedLate m q n) s = execSchedLate m q n s := rfl
  simp only [hexec, execSchedLate, hx, hprint, hassigned, hdue, Bool.false_eq_true, not_false_eq_true, and_self, if_true]

/-- SCHED_LATE of a record not scheduled by its delivery deadline (R134). -/
theorem schedLate_answers {m q : Nat} {n : Int} {s : State} {x : Rec} (hx : recAt s m q n = some x) (hprint : x.kind = .print)
    (hassigned : x.assigned = false) (hdue : deliveryDeadline s (planeOf m q) n ≤ lineCounter s) :
    Answers (.schedLate m q n) s
      (fun t => ∃ y, recAt t m q n = some y ∧ y.kind = .late ∧ y.levels = [] ∧ y.assigned = true) := by
  have hlate := (recAt_congr ((count_within (makeLate s m q n) (cnum 2 48)).untouched State.slices)).trans (recAt_makeLate hx)
  exact ⟨_, exec_schedLate hx hprint hassigned hdue, _, hlate, rfl, rfl, rfl⟩

end Sys2Proof.Machine
end

section
/-! SUPPORT. A record computed and handed over (R85, R88, R89), the readings of the pace (R108), and the hold of rho (R124). -/

set_option Elab.async false

namespace Sys2Proof.Machine

/-! The page a record prints, through the fetches that note what they find on it (R81, R89). -/

/-- A page but for what its fetches find. -/
def unfetched (p : Page) : Page := { p with blocks := [], deadBlocks := 0, emptyDead := [] }

/-- The pages but for what their fetches find. -/
def unfetchedPages (s : State) : List Page := s.pages.list.map unfetched

theorem unfetchedPages_congr {s t : State} (h : t.pages = s.pages) : unfetchedPages t = unfetchedPages s := by
  unfold unfetchedPages
  rw [h]

theorem setPage_unfetchedPages (s : State) (id : Dword) {f : Page → Page} (hf : ∀ p, unfetched (f p) = unfetched p) :
    unfetchedPages (setPage s id f) = unfetchedPages s := by
  simp only [unfetchedPages, setPage, List.map_map]
  refine List.map_congr_left fun p _ => ?_
  simp only [Function.comp_apply]
  split
  · exact hf p
  · rfl

/-- A page covers web line `n` and takes lines. -/
def coversLine (n : Int) (p : Page) : Bool :=
  takesLines p && match p.n0 with
    | some a => decide (a ≤ n ∧ n ≤ lastLineFrom p a)
    | none => false

theorem pageAt_eq (s : State) (n : Int) : pageAt s n = s.pages.list.find? (coversLine n) := rfl

theorem coversLine_unfetched (n : Int) : coversLine n ∘ unfetched = coversLine n := rfl

theorem pageAt_adm (s : State) (n : Int) : (pageAt s n).map Page.adm = ((unfetchedPages s).find? (coversLine n)).map Page.adm := by
  rw [pageAt_eq, unfetchedPages, List.find?_map, coversLine_unfetched, Option.map_map]
  rfl

theorem markPlace_unfetchedPages (s : State) (p : Page) (plane layer row col : Nat) (n0 x : Int) :
    unfetchedPages (markPlace s p plane layer row col n0 x) = unfetchedPages s :=
  unfetchedPages_congr ((markPlace_within s p plane layer row col n0 x).untouched State.pages)

theorem count_unfetchedPages (s : State) (k : Nat) : unfetchedPages (count s k) = unfetchedPages s :=
  unfetchedPages_congr ((count_within s k).untouched State.pages)

theorem settleBlock_unfetchedPages (m : Nat) (n0 x : Int) (id : Dword) (s : State) (b : Block) :
    unfetchedPages (settleBlock m n0 x id s b) = unfetchedPages s := by
  have hset (f : Page → Page) (hf : ∀ p, unfetched (f p) = unfetched p) (first : Bool) (k : Nat) :
      unfetchedPages (if first then count (setPage s id f) k else setPage s id f) = unfetchedPages s := by
    split
    · exact (count_unfetchedPages _ k).trans (setPage_unfetchedPages s id hf)
    · exact setPage_unfetchedPages s id hf
  unfold settleBlock
  split
  · rfl
  · split
    · rfl
    · dsimp only
      split
      · refine hset _ ?_ _ _
        exact fun _ => rfl
      · rw [markPlace_unfetchedPages]
        refine hset _ ?_ _ _
        exact fun _ => rfl

theorem settleEmpty_unfetchedPages (n0 x : Int) (id : Dword) (s : State) (b : Nat × Nat × Nat × Nat) :
    unfetchedPages (settleEmpty n0 x id s b) = unfetchedPages s := by
  unfold settleEmpty
  split
  · rfl
  · split
    · rfl
    · dsimp only
      rw [markPlace_unfetchedPages, count_unfetchedPages]
      exact setPage_unfetchedPages s id fun _ => rfl

theorem fetchFor_unfetchedPages (s : State) (pg : Page) (n0 : Int) (m q : Nat) (n : Int) :
    unfetchedPages (fetchFor s pg n0 m q n) = unfetchedPages s := by
  unfold fetchFor
  split
  · exact (foldl_keeps unfetchedPages _ (settleEmpty_unfetchedPages n0 _ pg.id) _ _).trans
      (foldl_keeps unfetchedPages _ (settleBlock_unfetchedPages m n0 _ pg.id) _ _)
  · rfl

theorem pageAt_pixelsReported (s : State) (pg : Page) (n0 : Int) (m q : Nat) (n : Int) (px : List (Nat × Pixel)) :
    (pageAt (pixelsReported (fetchFor s pg n0 m q n) m q n px) n).map Page.adm = (pageAt s n).map Page.adm := by
  rw [(pixelsReported_within _ m q n px).untouched (pageAt · n), pageAt_adm, fetchFor_unfetchedPages, ← pageAt_adm]

/-! The drops of a record (R89). -/

theorem mem_dropLevels {f : Nat → Pixel} {k c l : Nat} : (c, l) ∈ dropLevels ((List.range k).map fun c => (c, f c)) ↔
    c < k ∧ l ≠ 0 ∧ l = (f c).level := by
  simp only [dropLevels, List.mem_map, List.mem_filter, List.mem_range, Prod.mk.injEq, bne_iff_ne]
  constructor
  · rintro ⟨_, ⟨⟨c', hc', rfl⟩, hlevel⟩, rfl, rfl⟩
    exact ⟨hc', hlevel, rfl⟩
  · rintro ⟨hc, hlevel, rfl⟩
    exact ⟨_, ⟨⟨c, hc, rfl⟩, hlevel⟩, rfl, rfl⟩

theorem exec_recordComplete {m q : Nat} {n n0 : Int} {s : State} {p : Page} (hruns : planeRuns s m q = true)
    (hproduces : produces s n = true) (hturn : sliceTurn s m q n = true)
    (hbegun : sliceDeadlineOf s (planeOf m q) n - 32 ≤ lineCounter s)
    (hdue : lineCounter s ≤ sliceDeadlineOf s (planeOf m q) n) (hp : pageAt s n = some p) (hn0 : p.n0 = some n0)
    (hprints : printsLine p (planeOf m q) n = true) :
    exec (.recordComplete m q n) s = .next (scheduleReady (printRecord s p n0 m q n)) := by
  have hexec : exec (.recordComplete m q n) s = execRecordComplete m q n s := rfl
  simp only [hexec, execRecordComplete, hruns, hproduces, hturn, hbegun, hdue, hp, hn0, hprints, and_self, decide_true,
    Bool.and_self, if_true]

theorem recBody_mem_handOver (s : State) (r : Rec) : recBody r ∈ recBodies (handOver s r) := by
  simp [recBodies, handOver]

/-- The record that a slice computes is in the queue, its drops those of its pixels (R88, R89). -/
theorem printRecord_body {s : State} {p : Page} {n : Int} (hp : pageAt s n = some p) (n0 : Int) (m q : Nat) :
    (m, q, n, RecKind.print, some p.adm, (sourceAt p n0 (planeOf m q) n).2,
      dropLevels (recordPixels (fetchFor s p n0 m q n) p m q n (sourceAt p n0 (planeOf m q) n).1)) ∈
      recBodies (printRecord s p n0 m q n) := by
  rw [printRecord_eq]
  generalize recordPixels (fetchFor s p n0 m q n) p m q n (sourceAt p n0 (planeOf m q) n).1 = px
  have hpage := pageAt_pixelsReported s p n0 m q n px
  rw [hp, Option.map_some] at hpage
  rw [← hpage]
  exact recBody_mem_handOver _ _

/-! The readings of the pace (R108), and the hold of rho (R124). -/

/-- The state with the readings `ps` taken, and the lowest ever with them (R108). -/
def pacesTaken (s : State) (ps : List Nat) : State :=
  { s with slices := { s.slices with pace := ps }, obs := { s.obs with paceMin := ps.foldl min s.obs.paceMin } }

/-- The readings as PACE_READING takes them (R108). -/
def pacesOf (pace : List Nat) : List Nat := (List.range 40).map fun m => min 0xFFFF (pace.getD m 0)

theorem exec_paceReading {s : State} (pace : List Nat) (hanneal : s.anneal.running = false) (hawake : awake s = true) :
    exec (.paceReading pace) s = .next (readPaces (pacesTaken s (pacesOf pace)) (pacesOf pace)) :=
  if_neg (by simp [hanneal, hawake])

theorem paceReading_answers {s : State} (pace : List Nat) (hanneal : s.anneal.running = false) (hawake : awake s = true) :
    Answers (.paceReading pace) s
      (fun t => t.slices.pace = pacesOf pace ∧ t.obs.paceMin = (pacesOf pace).foldl min s.obs.paceMin) := by
  have hread := readPaces_within (pacesTaken s (pacesOf pace)) (pacesOf pace)
  exact ⟨_, exec_paceReading pace hanneal hawake, hread.untouched (·.slices.pace), hread.untouched (·.obs.paceMin)⟩

/-- The tick 8 ahead is among those for which rho is fixed, where it is not fixed for it already. -/
theorem mem_heldTicks {s : State} (h : ∀ f, s.csc.fixedTo = some f → f < lineCounter s + 8) :
    (lineCounter s + 8, rhoNow s) ∈ heldTicks s := by
  have hfirst : firstHeld s ≤ lineCounter s + 8 := by
    unfold firstHeld
    split
    · next f hf => exact Int.max_le.mpr ⟨h f hf, by omega⟩
    · exact Int.le_refl _
  refine List.mem_map.mpr ⟨(lineCounter s + 8 - firstHeld s).toNat, List.mem_range.mpr (by omega), ?_⟩
  exact Prod.ext (by simp only; omega) rfl

theorem exec_refillFix {s : State} (hstate : s.par.state ≠ .failed)
    (hfixed : ∀ f, s.csc.fixedTo = some f → f < lineCounter s + 8) :
    exec .refillFix s = .next (scheduleReady (rhoSent s)) := by
  have hopen : rhoFixed s = false := by
    unfold rhoFixed
    split
    · next f hf => exact decide_eq_false (Int.not_le.mpr (hfixed f hf))
    · rfl
  exact (execRefillFix_eq s).trans (if_neg (by simp [hstate, hopen]))

theorem refillFix_answers {s : State} (hstate : s.par.state ≠ .failed)
    (hfixed : ∀ f, s.csc.fixedTo = some f → f < lineCounter s + 8) :
    Answers .refillFix s (fun t => t.csc.fixedTo = some (lineCounter s + 8) ∧
      (lineCounter s + 8, rhoNow s) ∈ t.csc.heldRho ∧ lineCounter t = lineCounter s) := by
  have hschedule := scheduleReady_within (rhoSent s)
  have hsent := rhoSent_within s
  refine ⟨_, exec_refillFix hstate hfixed, (hschedule.untouched (·.csc.fixedTo)).trans (hsent.untouched (·.csc.fixedTo)), ?_,
    (hschedule.untouched lineCounter).trans (hsent.untouched lineCounter)⟩
  rw [hschedule.untouched (·.csc.heldRho), hsent.untouched (·.csc.heldRho)]
  exact List.mem_append_right _ (mem_heldTicks hfixed)

/-- Settles O17: a deadline and a late schedule are read off the queue's records; scheduling keeps what a computed record says of
its drops, and every held rho. -/
theorem slices : Obligations.Slices := by
  refine ⟨fun m q n s hruns hproduces hdue => ⟨?_, ?_, ?_⟩, ?_, ?_, ?_, ?_⟩
  · exact sliceDeadline_handsOver hruns hproduces hdue
  · exact fun x hx hprint hassigned hjoined => sliceDeadline_makesLate hruns hproduces hdue hx hprint hassigned hjoined
  · exact sliceDeadline_undelivered hruns hproduces hdue
  · intro m q n n0 s p hruns hproduces hturn hbegun hdue hp hn0 hprints src s1
    have hbody := printRecord_body hp n0 m q
    rw [← scheduleReady_recBodies] at hbody
    obtain ⟨x, hx, hsays⟩ := List.mem_map.mp hbody
    simp only [recBody, Prod.mk.injEq] at hsays
    obtain ⟨hm, hq, hn, hkind, hpage, hrow, hlevels⟩ := hsays
    refine ⟨_, exec_recordComplete hruns hproduces hturn hbegun hdue hp hn0 hprints, x, hx, hm, hq, hn, hkind, hpage, hrow,
      fun c l => ?_⟩
    rw [hlevels]
    exact mem_dropLevels
  · exact fun m q n s x hx hprint hassigned hdue => schedLate_answers hx hprint hassigned hdue
  · exact fun pace s hanneal hawake => paceReading_answers pace hanneal hawake
  · exact fun s hstate hfixed => refillFix_answers hstate hfixed

end Sys2Proof.Machine
end

section
/-! SUPPORT. What the table loads read, and the tables they leave (R93 to R106, R396, R402, R403). -/

set_option Elab.async false

namespace Sys2Proof.Machine

/-- What a table load does once its reads have ended well (R106). -/
def afterRead (s : State) (ranges : List (Nat × Nat)) (body : Reply) : Reply :=
  match tableRead s ranges with
  | some st => reject s st
  | none => body

theorem afterRead_ok {s : State} {ranges : List (Nat × Nat)} (h : tableRead s ranges = none) (body : Reply) :
    afterRead s ranges body = body := by
  unfold afterRead
  rw [h]

/-! CURVE_LOAD (R93, R94, R103, R104, R402). -/

section
variable (e : Entry) (s : State)

/-- The planes that a load's mask names. -/
def namedPlanes : List Nat := (List.range 16).filter fun p => (fld (pw e 0) 0 16).testBit p

/-- The curves of a CURVE_LOAD. -/
def curvesRead : List (Nat × List Nat) := curveRecords s (pq e 2) (fld (pw e 0) 16 16)

/-- The single index entries of a CURVE_LOAD. -/
def entriesRead : List (Nat × Nat × Nat) := entryList s (pq e 4) (pw e 1).toNat

/-- The whole index tables of a CURVE_LOAD, each with its plane. -/
def indexTables : List (Nat × List Nat) :=
  (List.range (namedPlanes e).length).map fun i => ((namedPlanes e).getD i 0, hostWords s (pq e 6 + 332800 * i) 166400)

/-- The index entries that a CURVE_LOAD changes, by their keys. -/
def entriesPut : List (Nat × Nat) :=
  ((entriesRead e s).map fun x => (entryKey x.1 x.2.1, x.2.2)) ++
    (indexTables e s).flatMap fun t => (List.range 166400).map fun i => (entryKey t.1 i, t.2.getD i 0)

/-- The curve-set update that a CURVE_LOAD commits. -/
def updRead : CurveUpd := { line := pqS e 8, curves := curvesRead e s, entries := entriesPut e s, assay := false, out := false }

/-- Where a CURVE_LOAD reads. -/
def curveRanges : List (Nat × Nat) :=
  [(pq e 2, 520 * fld (pw e 0) 16 16), (pq e 4, 8 * (pw e 1).toNat), (pq e 6, 332800 * (namedPlanes e).length)]

/-- The units whose copies a CURVE_LOAD replaces (R106). -/
def curveUnits : List (Nat × Nat) :=
  ((curvesRead e s).map Prod.fst).map (fun c => (kindCurve, c)) ++
    ((entriesPut e s).map fun x => x.1 / 166400).dedup.map fun p => (kindIndex, p)

/-- The state once a CURVE_LOAD's update is committed and the poison of the copies before it ends (R103, R106). -/
def curvesPut : State :=
  (curveUnits e s).foldl (fun t x => endPoison t x.1 x.2 (changeLine s (pqS e 8))) (addCurveUpd s (updRead e s))

/-- A CURVE_LOAD's payload is not in form (R402). -/
def curveFormBad : Bool :=
  !rsvOk e (List.replicate 10 allBits) || decide (4096 < fld (pw e 0) 16 16) || decide (2662400 < (pw e 1).toNat) ||
    (fld (pw e 0) 16 16 == 0 && (pw e 1).toNat == 0 && fld (pw e 0) 0 16 == 0) || pq e 2 % 8 != 0 || pq e 4 % 8 != 0 ||
    pq e 6 % 8 != 0

/-- A CURVE_LOAD's records are not in form: an entry out of range or of a plane loaded whole, or one named twice (R402). -/
def curveRecordsBad : Bool :=
  (entriesRead e s).any (fun x => decide (166400 ≤ x.2.1) || (namedPlanes e).contains x.1) ||
    decide (¬ ((curvesRead e s).map Prod.fst).Nodup) ||
    decide (¬ ((entriesRead e s).map fun x => entryKey x.1 x.2.1).Nodup)

/-- A CURVE_LOAD changes what is the assay's (R252). -/
def curveOwned : Bool :=
  ((curvesRead e s).map Prod.fst).any (assayOwnsCurve s) ||
    ((entriesRead e s).map (·.1) ++ namedPlanes e).any (assayOwnsPlane s)

theorem execCurveLoad_eq : execCurveLoad e s = .next (command [0x0202] e (fun _ s =>
    checked s [(curveFormBad e, stFormat)] fun s => afterRead s (curveRanges e)
      (checked s [(curveRecordsBad e s, stFormat), (curveOwned e s, stAssayOwned),
          (s.job.isSome && decide (pqS e 8 < changeFloor s (updPlanes s (updRead e s))), stLinePassed),
          (s.job.isSome && decide (8 ≤ (s.tables.curveUpds.filter (updPending s)).length), stPendingFull),
          (indexPoisoned s (entriesPut e s) (pqS e 8), stPoisoned)] fun s =>
        okWith (curvesPut e s) (it (curvesPut e s).tables.curveGen))) s) := rfl

end

section
variable {e : Entry} {s : State} {r : InFlight}

theorem exec_curveLoad (hT : Turn 0x0202 e s r) (hform : curveFormBad e = false) (hread : tableRead s (curveRanges e) = none)
    (hrecords : curveRecordsBad e s = false) (howned : curveOwned e s = false)
    (hopen : s.job ≠ none → changeFloor s (updPlanes s (updRead e s)) ≤ pqS e 8 ∧
      (s.tables.curveUpds.filter (updPending s)).length < 8)
    (hpoison : indexPoisoned s (entriesPut e s) (pqS e 8) = false) :
    exec (.curveLoad e) s = .next (finish (curvesPut e s) r stOk (it (curvesPut e s).tables.curveGen)) := by
  have hpassed : (s.job.isSome && decide (pqS e 8 < changeFloor s (updPlanes s (updRead e s)))) = false := by
    simpa [Option.isSome_iff_ne_none] using fun h => (hopen h).1
  have hfull : (s.job.isSome && decide (8 ≤ (s.tables.curveUpds.filter (updPending s)).length)) = false := by
    simpa [Option.isSome_iff_ne_none] using fun h => (hopen h).2
  have hexec : exec (.curveLoad e) s = execCurveLoad e s := rfl
  rw [hexec, execCurveLoad_eq, command_turn hT, checked_pass (by simp [hform]), afterRead_ok hread,
    checked_pass (by simp [hrecords, howned, hpassed, hfull, hpoison]), settle_okWith]

theorem curveFormBad_inForm (hrsv : rsvOk e (List.replicate 10 allBits) = true) (hcurves : fld (pw e 0) 16 16 ≤ 4096)
    (hentries : (pw e 1).toNat ≤ 2662400) (hsome : fld (pw e 0) 16 16 ≠ 0 ∨ (pw e 1).toNat ≠ 0 ∨ fld (pw e 0) 0 16 ≠ 0)
    (h2 : pq e 2 % 8 = 0) (h4 : pq e 4 % 8 = 0) (h6 : pq e 6 % 8 = 0) : curveFormBad e = false := by
  have hnone : (fld (pw e 0) 16 16 == 0 && (pw e 1).toNat == 0 && fld (pw e 0) 0 16 == 0) = false := by
    rw [Bool.eq_false_iff]
    intro h
    simp only [Bool.and_eq_true, beq_iff_eq] at h
    omega
  rw [curveFormBad, hrsv, hnone]
  simp [h2, h4, h6, hcurves, hentries]

theorem curveRecordsBad_inForm (hentries : ∀ y ∈ entriesRead e s, y.2.1 < 166400 ∧ y.1 ∉ namedPlanes e)
    (hcurves : ((curvesRead e s).map Prod.fst).Nodup)
    (hkeys : ((entriesRead e s).map fun y => entryKey y.1 y.2.1).Nodup) : curveRecordsBad e s = false := by
  have hany : (entriesRead e s).any (fun x => decide (166400 ≤ x.2.1) || (namedPlanes e).contains x.1) = false := by
    rw [List.any_eq_false]
    intro y hy
    obtain ⟨hrange, hplane⟩ := hentries y hy
    simp [Nat.not_le.mpr hrange, hplane]
  simp only [curveRecordsBad, hany, hcurves, hkeys, not_true_eq_false, decide_false, Bool.or_self]

theorem curveOwned_free (hcurves : ∀ c ∈ curvesRead e s, assayOwnsCurve s c.1 = false)
    (hplanes : ∀ p ∈ (entriesRead e s).map (·.1) ++ namedPlanes e, assayOwnsPlane s p = false) : curveOwned e s = false := by
  have hnums : ((curvesRead e s).map Prod.fst).any (assayOwnsCurve s) = false := by
    rw [List.any_map, List.any_eq_false]
    exact fun c hc => Bool.eq_false_iff.mp (hcurves c hc)
  have hnamed : ((entriesRead e s).map (·.1) ++ namedPlanes e).any (assayOwnsPlane s) = false := by
    rw [List.any_eq_false]
    exact fun p hp => Bool.eq_false_iff.mp (hplanes p hp)
  simp only [curveOwned, hnums, hnamed, Bool.or_self]

/-- A committed update adds one to the curve generation. -/
theorem addCurveUpd_curveGen (s : State) (u : CurveUpd) :
    (addCurveUpd s u).tables.curveGen = (s.tables.curveGen + 1) % 2 ^ 16 := by
  unfold addCurveUpd
  dsimp only
  split <;> rfl

/-- With a job open a committed update waits for its web line (R104). -/
theorem addCurveUpd_open (hjob : s.job ≠ none) (u : CurveUpd) :
    (addCurveUpd s u).tables.curveUpds = (foldDropped s).tables.curveUpds ++ [u] := by
  unfold addCurveUpd
  dsimp only
  rw [if_pos (Option.isSome_iff_ne_none.mpr hjob)]

/-- With no job open a committed update is in the copies at once (R104). -/
theorem addCurveUpd_closed (hjob : s.job = none) (u : CurveUpd) :
    (addCurveUpd s u).tables.curves = mapSetAll unitCurve (foldDropped s).tables.curves u.curves ∧
    (addCurveUpd s u).tables.entries = mapSetAll 0 (foldDropped s).tables.entries u.entries := by
  unfold addCurveUpd
  dsimp only
  rw [if_neg (by simp [hjob])]
  exact ⟨rfl, rfl⟩

/-- What a CURVE_LOAD leaves of the curve set (R103, R104). -/
theorem curvesPut_tables (e : Entry) (s : State) :
    (curvesPut e s).tables.curveGen = (s.tables.curveGen + 1) % 2 ^ 16 ∧
    (s.job ≠ none → (curvesPut e s).tables.curveUpds = (foldDropped s).tables.curveUpds ++ [updRead e s]) ∧
    (s.job = none →
      (curvesPut e s).tables.curves = mapSetAll unitCurve (foldDropped s).tables.curves (updRead e s).curves ∧
      (curvesPut e s).tables.entries = mapSetAll 0 (foldDropped s).tables.entries (updRead e s).entries) := by
  have hends : Within poisonEnded (addCurveUpd s (updRead e s)) (curvesPut e s) := endPoisons_within _ _ _
  refine ⟨(hends.untouched (·.tables.curveGen)).trans (addCurveUpd_curveGen s _),
    fun hjob => (hends.untouched (·.tables.curveUpds)).trans (addCurveUpd_open hjob _), fun hjob => ?_⟩
  obtain ⟨hcurves, hentries⟩ := addCurveUpd_closed hjob (updRead e s)
  exact ⟨(hends.untouched (·.tables.curves)).trans hcurves, (hends.untouched (·.tables.entries)).trans hentries⟩

end

/-! SCREEN_LOAD (R97, R98, R99, R403). -/

section
variable (e : Entry) (s : State)

/-- The slot that a SCREEN_LOAD names (R403). -/
abbrev screenSlot : Nat := fld (pw e 0) 27 5

/-- A SCREEN_LOAD loads a tile (R403). -/
abbrev screenLoads : Bool := bitOf (pw e 0) 26

/-- A SCREEN_LOAD binds planes to its slot (R403). -/
abbrev screenBinds : Bool := bitOf (pw e 0) 25

/-- The tile in host memory that a SCREEN_LOAD names (R97). -/
def tileRead : List Qword := (List.range 65536).map fun i => BitVec.ofNat 64 (leNat (hostBytes s (pq e 2 + 8 * i) 8))

/-- A plane to which a screen may be bound: in use, and not BYPASS (R99). -/
def bindable (p : Nat) : Bool :=
  match s.job with
  | some j => (match j.planes[p]? with | some c => c.inUse && c.format != 2 | none => false)
  | none => false

/-- A SCREEN_LOAD's payload is not in form (R403). -/
def screenFormBad : Bool :=
  !rsvOk e [0xFE00FFFF, 0, allBits, allBits, allBits, allBits] || (!screenLoads e && !screenBinds e) ||
    (!screenBinds e && fld (pw e 0) 0 16 != 0) || pq e 2 % 64 != 0

/-- A plane has no room for another pending binding (R105). -/
def bindingsFull : Bool :=
  (namedPlanes e).any fun p => decide (4 ≤ ((bindingsPending s p).filter fun c => c.1 != pqS e 4).length)

/-- The screen bindings after a SCREEN_LOAD. -/
def bindingsPut : Timed :=
  if screenBinds e then (namedPlanes e).foldl (fun t p => timedPut t p (pqS e 4) (screenSlot e)) s.web.screens
  else s.web.screens

/-- The state once a SCREEN_LOAD's planes are bound (R99). -/
def boundAfter : State := screensBound s (bindingsPut e s)

theorem execScreenLoad_eq : execScreenLoad e s = .next (command [0x0203] e (fun _ s =>
    checked s [(screenFormBad e, stFormat), (screenBinds e && s.job.isNone, stNoJob),
        (screenBinds e && (namedPlanes e).any fun p => !bindable s p, stFormat)] fun u =>
      afterRead u [(pq e 2, if screenLoads e then 524288 else 0)]
        (checked u [((if screenLoads e then tileRead e u else []).any fun w => !cellOk w, stFormat),
            (screenLoads e && slotInUse u (screenSlot e), stSlotInUse),
            (!screenLoads e && (tileOf u (screenSlot e)).isEmpty, stNoScreen),
            (screenBinds e && decide (pqS e 4 < changeFloor u (namedPlanes e)), stLinePassed),
            (screenBinds e && bindingsFull e u, stPendingFull)] fun v =>
          okWith (boundAfter e
            (tilePut v (screenLoads e) (screenSlot e) (if screenLoads e then tileRead e u else []))) [])) s) := rfl

end

section
variable {e : Entry} {s : State} {r : InFlight}

theorem screenFormBad_inForm (hrsv : rsvOk e [0xFE00FFFF, 0, allBits, allBits, allBits, allBits] = true)
    (hsome : screenLoads e = true ∨ screenBinds e = true) (hmask : screenBinds e = false → fld (pw e 0) 0 16 = 0)
    (halign : pq e 2 % 64 = 0) : screenFormBad e = false := by
  have hidle : (!screenLoads e && !screenBinds e) = false := by obtain h | h := hsome <;> simp [h]
  have hstray : (!screenBinds e && fld (pw e 0) 0 16 != 0) = false := by
    cases h : screenBinds e with
    | false => simp [hmask h]
    | true => rfl
  simp only [screenFormBad, hrsv, hidle, hstray, halign, Bool.not_true, bne_self_eq_false, Bool.or_self]

/-- What a SCREEN_LOAD that binds asks of its planes and of its web line (R99, R104, R105). -/
def Binds (e : Entry) (s : State) : Prop :=
  changeFloor s (namedPlanes e) ≤ pqS e 4 ∧ ∃ j, s.job = some j ∧ ∀ p ∈ namedPlanes e,
    (∃ c, j.planes[p]? = some c ∧ c.inUse = true ∧ c.format ≠ 2) ∧
    ((bindingsPending s p).filter fun c => c.1 != pqS e 4).length < 4

theorem Binds.checks (h : Binds e s) : s.job.isNone = false ∧ ((namedPlanes e).any fun p => !bindable s p) = false ∧
    decide (pqS e 4 < changeFloor s (namedPlanes e)) = false ∧ bindingsFull e s = false := by
  obtain ⟨hfloor, j, hjob, hplanes⟩ := h
  refine ⟨by simp [hjob], ?_, decide_eq_false (Int.not_lt.mpr hfloor), ?_⟩
  · rw [List.any_eq_false]
    intro p hp
    obtain ⟨⟨c, hc, huse, hformat⟩, -⟩ := hplanes p hp
    simp [bindable, hjob, hc, huse, hformat]
  · rw [bindingsFull, List.any_eq_false]
    intro p hp
    simpa using (hplanes p hp).2

theorem exec_screenLoad (hT : Turn 0x0203 e s r) (hform : screenFormBad e = false)
    (hload : screenLoads e = true → hostReadEnd s (pq e 2) 524288 = .ok ∧ (tileRead e s).all cellOk = true ∧
      slotInUse s (screenSlot e) = false)
    (hkept : screenLoads e = false → tileOf s (screenSlot e) ≠ []) (hbind : screenBinds e = true → Binds e s) :
    exec (.screenLoad e) s = .next (finish (boundAfter e (tilePut s (screenLoads e) (screenSlot e)
      (if screenLoads e then tileRead e s else []))) r stOk []) := by
  have hexec : exec (.screenLoad e) s = execScreenLoad e s := rfl
  have hbinds : (screenBinds e && s.job.isNone) = false ∧
      (screenBinds e && (namedPlanes e).any fun p => !bindable s p) = false ∧
      (screenBinds e && decide (pqS e 4 < changeFloor s (namedPlanes e))) = false ∧
      (screenBinds e && bindingsFull e s) = false := by
    cases h : screenBinds e with
    | false => exact ⟨rfl, rfl, rfl, rfl⟩
    | true => simpa only [Bool.true_and] using (hbind h).checks
  obtain ⟨hjob, hplanes, hfloor, hfull⟩ := hbinds
  have hread : tableRead s [(pq e 2, if screenLoads e then 524288 else 0)] = none := by
    cases h : screenLoads e with
    | false => rfl
    | true => simp [tableRead, (hload h).1]
  have hcells : ((if screenLoads e then tileRead e s else []).any fun w => !cellOk w) = false := by
    cases h : screenLoads e with
    | false => rfl
    | true =>
      rw [if_pos rfl, List.any_eq_false]
      intro w hw
      simpa using List.all_eq_true.mp (hload h).2.1 w hw
  have hslot : (screenLoads e && slotInUse s (screenSlot e)) = false := by
    cases h : screenLoads e with
    | false => rfl
    | true => exact (hload h).2.2
  have hloaded : (!screenLoads e && (tileOf s (screenSlot e)).isEmpty) = false := by
    cases h : screenLoads e with
    | false => simpa using hkept h
    | true => rfl
  rw [hexec, execScreenLoad_eq, command_turn hT, checked_pass (by simp [hform, hjob, hplanes]), afterRead_ok hread,
    checked_pass (by simp [hcells, hslot, hloaded, hfloor, hfull]), settle_okWith]

/-- What a SCREEN_LOAD leaves of the slots and of the bindings (R99). -/
theorem boundAfter_screens (e : Entry) (s : State) (load : Bool) (slot : Nat) (tile : List Qword) :
    (boundAfter e (tilePut s load slot (if load then tile else []))).tables.screens =
      (if load then mapSet [] s.tables.screens slot tile else s.tables.screens) ∧
    (boundAfter e (tilePut s load slot (if load then tile else []))).web.screens = bindingsPut e s := by
  cases load <;> exact ⟨rfl, rfl⟩

end

/-! STITCH_LOAD (R101, R102, R396). -/

/-- A STITCH_LOAD with no job open replaces the masks one after another. -/
theorem putMasks_closed (n : Int) (rs : List (Nat × Nat × List (BitVec 256))) (t : Tables) :
    (rs.foldl (putMask false n) t).masks = rs.foldl (fun w x => mapSet middleCut w (4 * x.1 + x.2.1) x.2.2) t.masks := by
  induction rs generalizing t with
  | nil => rfl
  | cons r rs ih => exact ih _

/-- A STITCH_LOAD with a job open leaves the masks, and each pending change is one there was or one of its own. -/
theorem putMasks_open (n : Int) (rs : List (Nat × Nat × List (BitVec 256))) (t : Tables) :
    (rs.foldl (putMask true n) t).masks = t.masks ∧ ∀ y ∈ (rs.foldl (putMask true n) t).maskUpds,
      y ∈ t.maskUpds ∨ (y.line = n ∧ ∃ x ∈ rs, y.mask = 4 * x.1 + x.2.1 ∧ y.rows = x.2.2) := by
  refine List.foldlRecOn (motive := fun u : Tables => u.masks = t.masks ∧ ∀ y ∈ u.maskUpds,
    y ∈ t.maskUpds ∨ (y.line = n ∧ ∃ x ∈ rs, y.mask = 4 * x.1 + x.2.1 ∧ y.rows = x.2.2)) rs (putMask true n)
    ⟨rfl, fun y hy => .inl hy⟩ ?_
  rintro u ⟨hmasks, hupds⟩ r hr
  refine ⟨hmasks, fun y hy => ?_⟩
  obtain hy | hy := List.mem_append.mp hy
  · exact hupds y (List.mem_filter.mp hy).1
  · rw [List.mem_singleton.mp hy]
    exact .inr ⟨rfl, r, hr, rfl, rfl⟩

section
variable {e : Entry} {s : State} {r : InFlight}

/-- The masks that a STITCH_LOAD reads. -/
abbrev masksRead (e : Entry) (s : State) : List (Nat × Nat × List (BitVec 256)) := stitchRecords s (pq e 2) (pw e 0).toNat

/-- A mask has no room for another pending change (R105). -/
def masksFull (e : Entry) (s : State) : Bool :=
  ((masksRead e s).map fun x => 4 * x.1 + x.2.1).any fun m =>
    decide (4 ≤ (s.tables.maskUpds.filter fun u => u.mask == m && maskPending s u && u.line != pqS e 4).length)

theorem execStitchLoad_eq (e : Entry) (s : State) : execStitchLoad e s = .next (command [0x0204] e (fun _ s =>
    checked s [(!rsvOk e [allBits, 0, allBits, allBits, allBits, allBits] ||
        decide ((pw e 0).toNat < 1 ∨ 144 < (pw e 0).toNat), stFormat)] fun u =>
      afterRead u [(pq e 2, 520 * (pw e 0).toNat)]
        (checked u [((masksRead e u).any fun x => decide (36 ≤ x.1), stFormat),
            (u.job.isSome && decide (pqS e 4 < changeFloor u ((masksRead e u).flatMap fun x => jointPlanes x.1).dedup),
              stLinePassed),
            (u.job.isSome && masksFull e u, stPendingFull)] fun v =>
          okWith (masksPut v u.job.isSome (pqS e 4) (masksRead e u)) [])) s) := rfl

theorem exec_stitchLoad (hT : Turn 0x0204 e s r) (hrsv : rsvOk e [allBits, 0, allBits, allBits, allBits, allBits] = true)
    (hlo : 1 ≤ (pw e 0).toNat) (hhi : (pw e 0).toNat ≤ 144) (hread : tableRead s [(pq e 2, 520 * (pw e 0).toNat)] = none)
    (hjoints : ∀ x ∈ masksRead e s, x.1 < 36)
    (hopen : s.job ≠ none → changeFloor s ((masksRead e s).flatMap fun x => jointPlanes x.1).dedup ≤ pqS e 4 ∧
      ∀ m ∈ (masksRead e s).map (fun x => 4 * x.1 + x.2.1),
        (s.tables.maskUpds.filter fun u => u.mask == m && maskPending s u && u.line != pqS e 4).length < 4) :
    exec (.stitchLoad e) s = .next (finish (masksPut s s.job.isSome (pqS e 4) (masksRead e s)) r stOk []) := by
  have hexec : exec (.stitchLoad e) s = execStitchLoad e s := rfl
  have hrange : ((masksRead e s).any fun x => decide (36 ≤ x.1)) = false := by
    rw [List.any_eq_false]
    intro x hx
    simpa using hjoints x hx
  have hpassed : (s.job.isSome && decide (pqS e 4 < changeFloor s
      ((masksRead e s).flatMap fun x => jointPlanes x.1).dedup)) = false := by
    simpa [Option.isSome_iff_ne_none] using fun h => (hopen h).1
  have hfull : (s.job.isSome && masksFull e s) = false := by
    cases hjob : s.job with
    | none => rfl
    | some j =>
      rw [Option.isSome_some, Bool.true_and, masksFull, List.any_eq_false]
      intro m hm
      simpa using (hopen (by simp [hjob])).2 m hm
  rw [hexec, execStitchLoad_eq, command_turn hT, checked_pass (by simp [hrsv, Nat.not_lt.mpr hhi]; omega), afterRead_ok hread,
    checked_pass (by simp [hrange, hpassed, hfull]), settle_okWith]

/-- What a STITCH_LOAD leaves of the masks (R102, R104). -/
theorem masksPut_tables (s : State) (n : Int) (rs : List (Nat × Nat × List (BitVec 256))) :
    (s.job = none → (masksPut s s.job.isSome n rs).tables.masks =
      rs.foldl (fun w x => mapSet middleCut w (4 * x.1 + x.2.1) x.2.2) (foldDropped s).tables.masks) ∧
    (s.job ≠ none → (masksPut s s.job.isSome n rs).tables.masks = (foldDropped s).tables.masks ∧
      ∀ y ∈ (masksPut s s.job.isSome n rs).tables.maskUpds, y ∈ (foldDropped s).tables.maskUpds ∨
        (y.line = n ∧ ∃ x ∈ rs, y.mask = 4 * x.1 + x.2.1 ∧ y.rows = x.2.2)) := by
  have hends := masksPut_ends s s.job.isSome n rs
  rw [hends.untouched (·.tables.masks), hends.untouched (·.tables.maskUpds)]
  refine ⟨fun hjob => ?_, fun hjob => ?_⟩
  · rw [hjob]
    exact putMasks_closed n rs _
  · rw [Option.isSome_iff_ne_none.mpr hjob]
    exact putMasks_open n rs _

end

/-- Settles O16: each load passes its checks, and the end of the poison of the copies before it leaves the tables it has put. -/
theorem tableLoads : Obligations.TableLoads := by
  intro e s r
  refine ⟨?_, ?_, ?_⟩
  · intro nc ne planes cr el tabs entries x hT hrsv hnc hne hsome h2 h4 h6 hread hentries hnums hkeys hcurves hplanes hopen hpoison
    obtain ⟨hgen, hpending, hclosed⟩ := curvesPut_tables e s
    exact ⟨_, exec_curveLoad hT (curveFormBad_inForm hrsv hnc hne hsome h2 h4 h6) hread
      (curveRecordsBad_inForm hentries hnums hkeys) (curveOwned_free hcurves hplanes) hopen hpoison, curvesPut e s, rfl, hgen,
      hpending, hclosed⟩
  · intro slot load bind_ planes n tile hT hrsv hsome hmask halign hload hkept hbind
    obtain ⟨hscreens, hbindings⟩ := boundAfter_screens e s load slot tile
    exact ⟨_, exec_screenLoad hT (screenFormBad_inForm hrsv hsome hmask halign) hload hkept hbind, _, rfl, hscreens, hbindings⟩
  · intro k n rs nums hT hrsv hlo hhi hread hjoints hopen
    obtain ⟨hclosed, hpending⟩ := masksPut_tables s n rs
    exact ⟨_, exec_stitchLoad hT hrsv hlo hhi hread hjoints hopen, _, rfl, hclosed, hpending⟩

end Sys2Proof.Machine
end

section
/-! SUPPORT. The numbers of things O39 speaks of, as one value of the state, and the ways to keep it: by a branch, a
fold, a reply, a command and an entry of the log. -/
set_option Elab.async false
namespace Sys2Proof.Machine

/-- How many of each thing the state has, and the room of the log: its length, or its ring's size where that is more. -/
structure Numbers where
  encs : Nat
  cues : Nat
  pulses : Nat
  lanes : Nat
  groups : Nat
  cams : Nat
  axes : Nat
  loops : Nat
  ports : Nat
  log : Nat

/-- The numbers of a state. -/
def numbers (s : State) : Numbers :=
  ⟨s.encs.length, s.cues.length, s.pulses.length, s.dxl.lanes.length, s.dxl.groups.length, s.asy.cams.length,
    s.mot.axes.length, s.mot.loops.length, s.ports.length, max s.obs.log.length logSize⟩

@[simp] theorem numbers_mk (pending boot mbx host obs quench sec pwr anneal pins cease time ports ptp ptpx job web pages
    tables slices map csc encs webCfg ftb cues pulses dxl asy par mem mot out free) :
    numbers ⟨pending, boot, mbx, host, obs, quench, sec, pwr, anneal, pins, cease, time, ports, ptp, ptpx, job, web, pages,
      tables, slices, map, csc, encs, webCfg, ftb, cues, pulses, dxl, asy, par, mem, mot, out, free⟩ =
    ⟨encs.length, cues.length, pulses.length, dxl.lanes.length, dxl.groups.length, asy.cams.length, mot.axes.length,
      mot.loops.length, ports.length, max obs.log.length logSize⟩ :=
  rfl

/-- The way back from `numbers_mk`, for a state whose fields were rewritten one by one. -/
@[simp] theorem mk_numbers (s : State) :
    (⟨s.encs.length, s.cues.length, s.pulses.length, s.dxl.lanes.length, s.dxl.groups.length, s.asy.cams.length,
      s.mot.axes.length, s.mot.loops.length, s.ports.length, max s.obs.log.length logSize⟩ : Numbers) = numbers s :=
  rfl

@[simp] theorem numbers_ite {c : Prop} [Decidable c] (s t : State) :
    numbers (if c then s else t) = if c then numbers s else numbers t :=
  apply_ite ..

@[simp] theorem numbers_foldl {α : Type} {g : State → α → State} (h : ∀ b a, numbers (g b a) = numbers b) (l : List α)
    (s : State) : numbers (l.foldl g s) = numbers s :=
  foldl_keeps numbers g h l s

/-- The next state of an outcome, where it has one, has the numbers of `s`. -/
def OutcomeKept (s : State) : Host.Outcome State Fault Refusal → Prop
  | .next t => numbers t = numbers s
  | .fault _ => True
  | .refused _ => True

@[simp] theorem outcomeKept_next (s t : State) : OutcomeKept s (.next t) ↔ numbers t = numbers s := Iff.rfl

@[simp] theorem OutcomeKept.ite {s : State} {c : Prop} [Decidable c] {x y : Host.Outcome State Fault Refusal}
    (hx : OutcomeKept s x) (hy : OutcomeKept s y) : OutcomeKept s (if c then x else y) :=
  iteInduction (fun _ => hx) fun _ => hy

/-- A command whose frame is proved, and whose frame leaves the numbers, keeps them. -/
theorem outcomeKept_of_changesOnly {F : State → State → State} {c : Instr} {s : State} (h : ChangesOnly [c] s (F s))
    (hF : ∀ t, numbers (F s t) = numbers s := by exact fun _ => rfl) : OutcomeKept s (exec c s) := by
  obtain ⟨t, ht⟩ := exec_next c s
  rw [ht, outcomeKept_next, h c List.mem_cons_self t ht]
  exact hF t

/-- The state a reply leaves has the numbers of `s`. -/
def ReplyKept (s : State) (x : Reply) : Prop := ReplyKeeps numbers s x

@[simp] theorem replyKept_done (s u : State) (st : Nat) (res : List Dword) :
    ReplyKept s (.done u st res) ↔ numbers u = numbers s := Iff.rfl

@[simp] theorem replyKept_okWith (s u : State) (res : List Dword) :
    ReplyKept s (okWith u res) ↔ numbers u = numbers s := Iff.rfl

@[simp] theorem replyKept_reject (s u : State) (st : Nat) : ReplyKept s (reject u st) ↔ numbers u = numbers s := Iff.rfl

@[simp] theorem replyKept_waits (s : State) : ReplyKept s .waits := trivial

@[simp] theorem replyKept_runs (s u : State) (note : List Nat) :
    ReplyKept s (.runs u note) ↔ numbers u = numbers s := Iff.rfl

namespace ReplyKept

@[simp] theorem checked {s u : State} {body : State → Reply} (h : ReplyKept s (body u)) (cs : List (Bool × Nat))
    (hu : numbers u = numbers s := by exact rfl) : ReplyKept s (checked u cs body) :=
  replyKeeps_checked numbers s u cs body hu h

@[simp] theorem withRecord {s u : State} {body : List Dword → Reply} (h : ∀ ds, ReplyKept s (body ds)) (a n : Nat)
    (hu : numbers u = numbers s := by exact rfl) : ReplyKept s (withRecord u a n body) :=
  replyKeeps_withRecord numbers s u a n body hu h

@[simp] theorem ite {s : State} {c : Prop} [Decidable c] {x y : Reply} (hx : ReplyKept s x) (hy : ReplyKept s y) :
    ReplyKept s (if c then x else y) :=
  iteInduction (fun _ => hx) fun _ => hy

theorem reject (s : State) (st : Nat) : ReplyKept s (reject s st) := (replyKept_reject s s st).mpr rfl

theorem okWith {s u : State} (h : numbers u = numbers s) (res : List Dword) : ReplyKept s (okWith u res) :=
  (replyKept_okWith s u res).mpr h

theorem after {s u : State} {x : Reply} (h : ReplyKept u x) (hu : numbers u = numbers s) : ReplyKept s x := by
  cases x with
  | done t st res => exact Eq.trans h hu
  | waits => trivial
  | runs t note => exact Eq.trans h hu

end ReplyKept

@[simp] theorem numbers_emit (s : State) (x : Sent) : numbers (emit s x) = numbers s := by simp [emit]

@[simp] theorem numbers_emitAll (s : State) (x) : numbers (emitAll s x) = numbers s := by simp [emitAll]

@[simp] theorem numbers_sendVector (s : State) (v) : numbers (sendVector s v) = numbers s := by simp [sendVector]

@[simp] theorem numbers_bump (s : State) (k n) : numbers (bump s k n).1 = numbers s := by simp [bump]

theorem numbers_storeEntry {s t : State} {code cont pay} (h : storeEntry s code cont pay = some t) : numbers t = numbers s := by
  unfold storeEntry at h
  dsimp only at h
  split at h
  · cases h
  · next hroom =>
    cases h
    have hlog : max (s.obs.log.length + 1) logSize = max s.obs.log.length logSize := by omega
    rw [numbers_mk, List.length_append, List.length_singleton, hlog]
    rfl

@[simp] theorem numbers_loseEntry (s : State) : numbers (loseEntry s) = numbers s := by simp [loseEntry]

@[simp] theorem numbers_putEntry (s : State) (code cont pay) : numbers (putEntry s code cont pay) = numbers s := by
  unfold putEntry
  cases h : storeEntry s code cont pay with
  | none => exact numbers_loseEntry s
  | some t => exact numbers_storeEntry h

@[simp] theorem numbers_putRest (s : State) (code fuel : Nat) (pay : List Dword) :
    numbers (putRest s code fuel pay) = numbers s := by
  induction fuel generalizing s pay with
  | zero => rfl
  | succ fuel ih =>
    cases pay with
    | nil => rfl
    | cons d ds => exact (ih _ _).trans (numbers_putEntry s code true _)

@[simp] theorem logCap_putEntry (s : State) (code : Nat) (cont : Bool) (pay : List Dword) :
    max (putEntry s code cont pay).obs.log.length logSize = max s.obs.log.length logSize :=
  congrArg Numbers.log (numbers_putEntry s code cont pay)

@[simp] theorem logCap_putRest (s : State) (code fuel : Nat) (pay : List Dword) :
    max (putRest s code fuel pay).obs.log.length logSize = max s.obs.log.length logSize :=
  congrArg Numbers.log (numbers_putRest s code fuel pay)

@[simp] theorem numbers_hostPut (s : State) (a : Nat) (bs : List Byte) : numbers (hostPut s a bs) = numbers s := by
  simp [hostPut]

@[simp] theorem numbers_hostPutDws (s : State) (a : Nat) (bs) : numbers (hostPutDws s a bs) = numbers s := by
  simp [hostPutDws]

@[simp] theorem numbers_finish (s : State) (r : InFlight) (st : Nat) (res : List Dword) :
    numbers (finish s r st res) = numbers s := by
  simp [finish]

@[simp] theorem numbers_command {ops e} {body : InFlight → State → Reply} {s : State} (h : ∀ r, ReplyKept s (body r s)) :
   numbers (command ops e body s) = numbers s :=
  command_keeps numbers numbers_finish (fun _ _ _ => rfl) (fun _ _ => rfl) rfl h

end Sys2Proof.Machine
end

section
/-! SUPPORT. The shared operations keep the numbers (O39). -/
set_option Elab.async false
namespace Sys2Proof.Machine

@[simp] theorem numbers_signalLog (s : State) : numbers (signalLog s) = numbers s := by simp [signalLog]

@[simp] theorem numbers_logOnly (s : State) (code : Nat) (pay : List Dword) : numbers (logOnly s code pay) = numbers s := by
  simp [logOnly]

@[simp] theorem logCap_logOnly (s : State) (code : Nat) (pay : List Dword) :
    max (logOnly s code pay).obs.log.length logSize = max s.obs.log.length logSize :=
  congrArg Numbers.log (numbers_logOnly s code pay)

@[simp] theorem numbers_logEvent (s : State) (code : Nat) (pay : List Dword) :
    numbers (logEvent s code pay) = numbers s := by
  simp [logEvent]

@[simp] theorem logCap_logEvent (s : State) (code : Nat) (pay : List Dword) :
    max (logEvent s code pay).obs.log.length logSize = max s.obs.log.length logSize :=
  congrArg Numbers.log (numbers_logEvent s code pay)

@[simp] theorem numbers_countLog (s : State) (k : Nat) : numbers (countLog s k) = numbers s := by simp [countLog]

@[simp] theorem logCap_countLog (s : State) (k : Nat) :
    max (countLog s k).obs.log.length logSize = max s.obs.log.length logSize :=
  congrArg Numbers.log (numbers_countLog s k)

@[simp] theorem numbers_onLanes (s : State) (gs : List Nat) (w : Qword) : numbers (onLanes s gs w) = numbers s := by
  simp [onLanes]

@[simp] theorem numbers_onEveryLane (s : State) (w : Qword) : numbers (onEveryLane s w) = numbers s := by simp [onEveryLane]

@[simp] theorem numbers_onEveryGroup (s : State) (w : Qword) : numbers (onEveryGroup s w) = numbers s := by
  simp [onEveryGroup]

@[simp] theorem numbers_startCease (s : State) (cause : Nat) (gs wait : List Nat) :
    numbers (startCease s cause gs wait) = numbers s := by
  simp [startCease]

@[simp] theorem numbers_ceaseInSave (s : State) (cause : Nat) : numbers (ceaseInSave s cause) = numbers s := by
  simp [ceaseInSave]

@[simp] theorem numbers_sendCease (s : State) (cause : Nat) : numbers (sendCease s cause) = numbers s := by simp [sendCease]

@[simp] theorem numbers_takeTrigger (s : State) (source evCode evSeq : Nat) :
    numbers (takeTrigger s source evCode evSeq) = numbers s := by
  simp [takeTrigger]

@[simp] theorem logCap_takeTrigger (s : State) (source evCode evSeq : Nat) :
    max (takeTrigger s source evCode evSeq).obs.log.length logSize = max s.obs.log.length logSize :=
  congrArg Numbers.log (numbers_takeTrigger s source evCode evSeq)

@[simp] theorem numbers_satTrigger (s0 s : State) : numbers (satTrigger s0 s) = numbers s := by
  unfold satTrigger
  dsimp only
  split
  · exact numbers_takeTrigger s _ _ _
  · rfl

@[simp] theorem logCap_satTrigger (s0 s : State) :
    max (satTrigger s0 s).obs.log.length logSize = max s.obs.log.length logSize :=
  congrArg Numbers.log (numbers_satTrigger s0 s)

@[simp] theorem numbers_fireQuench (s : State) (source evCode evSeq : Nat) :
    numbers (fireQuench s source evCode evSeq) = numbers s := by
  simp [fireQuench]

@[simp] theorem logCap_fireQuench (s : State) (source evCode evSeq : Nat) :
    max (fireQuench s source evCode evSeq).obs.log.length logSize = max s.obs.log.length logSize :=
  congrArg Numbers.log (numbers_fireQuench s source evCode evSeq)

@[simp] theorem numbers_raise (s : State) (code : Nat) (pay : List Dword) : numbers (raise s code pay) = numbers s := by
  simp [raise]

@[simp] theorem logCap_raise (s : State) (code : Nat) (pay : List Dword) :
    max (raise s code pay).obs.log.length logSize = max s.obs.log.length logSize :=
  congrArg Numbers.log (numbers_raise s code pay)

@[simp] theorem numbers_raiseIf (b : Bool) (s : State) (code : Nat) (pay : List Dword) :
    numbers (raiseIf b s code pay) = numbers s := by
  simp [raiseIf]

@[simp] theorem logCap_raiseIf (b : Bool) (s : State) (code : Nat) (pay : List Dword) :
    max (raiseIf b s code pay).obs.log.length logSize = max s.obs.log.length logSize :=
  congrArg Numbers.log (numbers_raiseIf b s code pay)

@[simp] theorem numbers_countN (s : State) (k n : Nat) : numbers (countN s k n) = numbers s := by simp [countN]

@[simp] theorem logCap_countN (s : State) (k n : Nat) :
    max (countN s k n).obs.log.length logSize = max s.obs.log.length logSize :=
  congrArg Numbers.log (numbers_countN s k n)

@[simp] theorem numbers_count (s : State) (k : Nat) : numbers (count s k) = numbers s := by simp [count]

@[simp] theorem logCap_count (s : State) (k : Nat) :
    max (count s k).obs.log.length logSize = max s.obs.log.length logSize :=
  congrArg Numbers.log (numbers_count s k)

@[simp] theorem numbers_drawFree (s : State) : numbers (drawFree s).1 = numbers s := by simp [drawFree]

@[simp] theorem numbers_endMasks (s : State) : numbers (endMasks s) = numbers s := by simp [endMasks]

@[simp] theorem numbers_advancePacing (s : State) (t : Nat) : numbers (advancePacing s t) = numbers s := by
  simp [advancePacing]

@[simp] theorem numbers_commitRunning (s : State) (r : InFlight) (note : List Nat) :
    numbers (commitRunning s r note) = numbers s := by
  simp [commitRunning]

@[simp] theorem numbers_markWaiting (s : State) (r : InFlight) : numbers (markWaiting s r) = numbers s := by
  simp [markWaiting]

@[simp] theorem numbers_finishOp (s : State) (op st : Nat) (res : List Dword) :
    numbers (finishOp s op st res) = numbers s := by
  unfold finishOp
  split <;> simp

@[simp] theorem numbers_setGroup (s : State) (g : Nat) (f : Group → Group) : numbers (setGroup s g f) = numbers s := by
  simp [setGroup]

@[simp] theorem numbers_setLane (s : State) (l : Nat) (f : Lane → Lane) : numbers (setLane s l f) = numbers s := by
  simp [setLane]

@[simp] theorem numbers_setAxis (s : State) (a : Nat) (f : Axis → Axis) : numbers (setAxis s a f) = numbers s := by
  simp [setAxis]

@[simp] theorem numbers_setLoop (s : State) (k : Nat) (f : Loop → Loop) : numbers (setLoop s k f) = numbers s := by
  simp [setLoop]

@[simp] theorem numbers_setPage (s : State) (id : Dword) (f : Page → Page) : numbers (setPage s id f) = numbers s := by
  simp [setPage]

@[simp] theorem numbers_onceJob (s : State) (key : Nat) : numbers (onceJob s key).2 = numbers s := by
  unfold onceJob
  repeat' split
  all_goals simp

@[simp] theorem numbers_oncePage (s : State) (id : Dword) (key : Nat) : numbers (oncePage s id key).2 = numbers s := by
  unfold oncePage
  repeat' split
  all_goals simp

@[simp] theorem numbers_oncePrinting (s : State) (key : Nat) : numbers (oncePrinting s key).2 = numbers s := by
  unfold oncePrinting
  exact numbers_foldl (g := fun t (p : Page) => setPage t p.id _) (fun _ _ => rfl) _ s

@[simp] theorem numbers_freeWords (n : Nat) (s : State) : numbers (freeWords n s).1 = numbers s := by
  induction n generalizing s with
  | zero => rfl
  | succ n ih => exact (ih (drawFree s).1).trans (numbers_drawFree s)

@[simp] theorem numbers_sendRec (s : State) (r : Rec) : numbers (sendRec s r) = numbers s := by
  unfold sendRec
  cases s.sec.outside <;> simp

@[simp] theorem numbers_sendRole (s : State) : numbers (sendRole s) = numbers s := by simp [sendRole]

@[simp] theorem numbers_sendPartner (s : State) (kind : Nat) (words : List Qword) :
    numbers (sendPartner s kind words) = numbers s := by
  simp [sendPartner]

@[simp] theorem numbers_tellServitor (s : State) (kind : Nat) (words : List Qword) :
    numbers (tellServitor s kind words) = numbers s := by
  simp [tellServitor]

@[simp] theorem numbers_setAuth (s : State) (g : Nat) (b : Bool) : numbers (setAuth s g b) = numbers s := by simp [setAuth]

@[simp] theorem numbers_authOutcome (s : State) (g st keyId : Nat) : numbers (authOutcome s g st keyId) = numbers s := by
  simp [authOutcome]

@[simp] theorem numbers_endAuth (s : State) (g st : Nat) : numbers (endAuth s g st) = numbers s := by
  unfold endAuth
  split <;> simp

@[simp] theorem numbers_restartLanes (s : State) (g : Nat) : numbers (restartLanes s g) = numbers s := by
  simp [restartLanes]

@[simp] theorem numbers_unalignCamera (s : State) (k : Nat) : numbers (unalignCamera s k) = numbers s := by
  unfold unalignCamera
  split <;> simp

@[simp] theorem numbers_loseCamera (s : State) (k : Nat) : numbers (loseCamera s k) = numbers s := by simp [loseCamera]

@[simp] theorem numbers_dropHolding (s : State) (g : Nat) : numbers (dropHolding s g) = numbers s := by simp [dropHolding]

@[simp] theorem numbers_leaveRun (s0 : State) (g : Nat) : numbers (leaveRun s0 g) = numbers s0 := by simp [leaveRun]

@[simp] theorem numbers_setMark (s : State) (k : Nat) (refill : Bool) : numbers (setMark s k refill) = numbers s := by
  simp [setMark]

@[simp] theorem numbers_setAllRefillMarks (s : State) : numbers (setAllRefillMarks s) = numbers s :=
  numbers_foldl (fun t k => numbers_setMark t k true) _ s

@[simp] theorem numbers_clearMark (s : State) (k : Nat) : numbers (clearMark s k) = numbers s := by simp [clearMark]

@[simp] theorem numbers_requestSeam (s : State) (k span : Nat) : numbers (requestSeam s k span) = numbers s := by
  simp [requestSeam]

@[simp] theorem numbers_outOfStep (s : State) (m q cause : Nat) (n : Int) :
    numbers (outOfStep s m q cause n) = numbers s := by
  simp [outOfStep]

@[simp] theorem numbers_failRejoin (s : State) (step st item : Nat) : numbers (failRejoin s step st item) = numbers s := by
  simp [failRejoin]

@[simp] theorem numbers_partnerLinkLost (s : State) : numbers (partnerLinkLost s) = numbers s := by simp [partnerLinkLost]

@[simp] theorem numbers_failChip (s : State) : numbers (failChip s) = numbers s := by simp [failChip]

@[simp] theorem numbers_endPartnerWaits (s : State) : numbers (endPartnerWaits s) = numbers s := by simp [endPartnerWaits]

@[simp] theorem numbers_refuseRole (s : State) : numbers (refuseRole s) = numbers s := by simp [refuseRole]

@[simp] theorem numbers_enterSyncing (s : State) : numbers (enterSyncing s) = numbers s := by simp [enterSyncing]

@[simp] theorem numbers_enterShadow (s : State) : numbers (enterShadow s) = numbers s := by simp [enterShadow]

@[simp] theorem numbers_uncertainAxis (s : State) (i : Nat) : numbers (uncertainAxis s i) = numbers s := by
  simp [uncertainAxis]

@[simp] theorem numbers_adopt (s : State) : numbers (adopt s) = numbers s := by simp [adopt]

@[simp] theorem numbers_depose (s : State) (higher : Nat) : numbers (depose s higher) = numbers s := by simp [depose]

@[simp] theorem numbers_setDebug (s : State) (d : DebugLevel) (cause : Nat) : numbers (setDebug s d cause) = numbers s := by
  simp [setDebug]

end Sys2Proof.Machine
end

section
/-! SUPPORT. The operations on pages, tables and slices keep the numbers (O39). -/
set_option Elab.async false
namespace Sys2Proof.Machine

@[simp] theorem numbers_sendPhase (s : State) (m q i : Nat) (n : Int) : numbers (sendPhase s m q i n) = numbers s := by
  simp [sendPhase]

@[simp] theorem numbers_sendRows (s : State) (m q : Nat) (n : Int) : numbers (sendRows s m q n) = numbers s := by
  simp [sendRows]

@[simp] theorem numbers_sendRowsFrom (s : State) (m q : Nat) (n : Int) : numbers (sendRowsFrom s m q n) = numbers s := by
  simp [sendRowsFrom]

@[simp] theorem numbers_sendModulePhases (s : State) (m : Nat) : numbers (sendModulePhases s m) = numbers s := by
  simp [sendModulePhases]

@[simp] theorem numbers_tellPage (s : State) (p : Page) (state : Nat) : numbers (tellPage s p state) = numbers s := by
  simp [tellPage]

@[simp] theorem numbers_tellRejected (s : State) (id : Dword) : numbers (tellRejected s id) = numbers s := by
  simp [tellRejected]

@[simp] theorem numbers_tellPageEnd (s : State) (id : Dword) (cause : Nat) (lines : List Int) :
    numbers (tellPageEnd s id cause lines) = numbers s := by
  simp [tellPageEnd]

@[simp] theorem numbers_reportSkips (s : State) (p : Page) : numbers (reportSkips s p) = numbers s := by simp [reportSkips]

@[simp] theorem numbers_resolvePage (s : State) (id : Dword) (line : Int) :
    numbers (resolvePage s id line) = numbers s := by
  unfold resolvePage
  split <;> simp

@[simp] theorem numbers_resolveChained (s : State) (p : Page) : numbers (resolveChained s p) = numbers s := by
  simp [resolveChained]

@[simp] theorem numbers_resolveChain (s : State) (fuel : Nat) : numbers (resolveChain s fuel) = numbers s := by
  induction fuel generalizing s with
  | zero => rfl
  | succ fuel ih =>
    unfold resolveChain
    split
    · rfl
    · simp [ih]

@[simp] theorem numbers_resolveAll (s : State) : numbers (resolveAll s) = numbers s := by simp [resolveAll]

@[simp] theorem numbers_addDue (s : State) (plane : Nat) : numbers (addDue s plane) = numbers s := by simp [addDue]

@[simp] theorem numbers_returnBand (s : State) (p : Page) (planes : List Nat) :
    numbers (returnBand s p planes) = numbers s := by
  simp [returnBand]

@[simp] theorem numbers_attachBand (s : State) (planes : List Nat) : numbers (attachBand s planes) = numbers s := by
  simp [attachBand]

@[simp] theorem numbers_unshadow (s : State) (id : Dword) (n0 : Option Int) (lines : Nat) (band : List Nat) :
    numbers (unshadow s id n0 lines band) = numbers s := by
  simp [unshadow]

@[simp] theorem numbers_markCuts (s : State) (p : Page) (cuts : List (Nat × Int)) :
    numbers (markCuts s p cuts) = numbers s := by
  unfold markCuts
  split <;> simp

@[simp] theorem numbers_cutPage (s : State) (p : Page) (cuts : List (Nat × Int)) :
    numbers (cutPage s p cuts) = numbers s := by
  unfold cutPage
  split <;> simp

@[simp] theorem numbers_uncover (s : State) (p : Page) : numbers (uncover s p) = numbers s := by simp [uncover]

@[simp] theorem numbers_removePage (s : State) (p : Page) : numbers (removePage s p) = numbers s := by
  unfold removePage
  split <;> simp

@[simp] theorem numbers_retirePage (s : State) (p : Page) : numbers (retirePage s p) = numbers s := by simp [retirePage]

@[simp] theorem numbers_retirePages (s : State) : numbers (retirePages s) = numbers s := by simp [retirePages]

@[simp] theorem numbers_endPrinting (s : State) (cause : Nat) : numbers (endPrinting s cause) = numbers s := by
  simp [endPrinting]

@[simp] theorem numbers_overspeedEnd (s : State) (cause : Nat) : numbers (overspeedEnd s cause) = numbers s := by
  simp [overspeedEnd]

@[simp] theorem numbers_addPoison (s : State) (kind index burst : Nat) (c : Int) :
    numbers (addPoison s kind index burst c) = numbers s := by
  simp [addPoison]

@[simp] theorem numbers_endPoison (s : State) (kind index : Nat) (n : Int) :
    numbers (endPoison s kind index n) = numbers s := by
  simp [endPoison]

@[simp] theorem numbers_noteDropped (s : State) : numbers (noteDropped s) = numbers s := by simp [noteDropped]

@[simp] theorem numbers_foldDropped (s : State) : numbers (foldDropped s) = numbers s := by simp [foldDropped]

@[simp] theorem numbers_pruneMarks (s : State) : numbers (pruneMarks s) = numbers s := by simp [pruneMarks]

@[simp] theorem numbers_markArea (s : State) (p : Nat) (x0 x1 n0 n1 : Int) :
    numbers (markArea s p x0 x1 n0 n1) = numbers s := by
  simp [markArea]

@[simp] theorem numbers_markFailed (s : State) (p : Nat) (n : Int) : numbers (markFailed s p n) = numbers s := by
  unfold markFailed
  dsimp only
  split <;> simp

@[simp] theorem numbers_markModule (s : State) (m q : Nat) (n : Int) : numbers (markModule s m q n) = numbers s := by
  simp [markModule]

@[simp] theorem numbers_lateLine (s : State) (m q : Nat) (n : Int) : numbers (lateLine s m q n) = numbers s := by
  unfold lateLine
  dsimp only
  split <;> simp

@[simp] theorem numbers_handOver (s : State) (r : Rec) : numbers (handOver s r) = numbers s := by simp [handOver]

@[simp] theorem numbers_markPlace (s : State) (p : Page) (plane layer row col : Nat) (n0 x : Int) :
    numbers (markPlace s p plane layer row col n0 x) = numbers s := by
  simp [markPlace]

@[simp] theorem numbers_settleBlock (m : Nat) (n0 x : Int) (id : Dword) (s : State) (b : Block) :
    numbers (settleBlock m n0 x id s b) = numbers s := by
  unfold settleBlock
  split <;> simp

@[simp] theorem numbers_settleEmpty (n0 x : Int) (id : Dword) (s : State) (b : Nat × Nat × Nat × Nat) :
    numbers (settleEmpty n0 x id s b) = numbers s := by
  unfold settleEmpty
  split <;> simp

@[simp] theorem numbers_settleRecord (s : State) (p : Page) (m pl : Nat) (n0 y x : Int) :
    numbers (settleRecord s p m pl n0 y x) = numbers s := by
  simp [settleRecord]

@[simp] theorem numbers_tablePoison (s : State) (hits : List (Nat × Nat)) : numbers (tablePoison s hits) = numbers s := by
  simp [tablePoison]

@[simp] theorem numbers_fetchFor (s : State) (pg : Page) (n0 : Int) (m q : Nat) (n : Int) :
    numbers (fetchFor s pg n0 m q n) = numbers s := by
  unfold fetchFor
  split <;> simp

@[simp] theorem numbers_pixelsReported (s : State) (m q : Nat) (n : Int) (px : List (Nat × Pixel)) :
    numbers (pixelsReported s m q n px) = numbers s := by
  simp [pixelsReported]

@[simp] theorem numbers_printRecord (s : State) (pg : Page) (n0 : Int) (m q : Nat) (n : Int) :
    numbers (printRecord s pg n0 m q n) = numbers s := by
  simp [printRecord_eq]

@[simp] theorem numbers_mapWaitLine (s : State) (m g : Nat) : numbers (mapWaitLine s m g) = numbers s := by
  simp [mapWaitLine]

@[simp] theorem numbers_setRec (s : State) (m q : Nat) (n : Int) (f : Rec → Rec) :
    numbers (setRec s m q n f) = numbers s := by
  simp [setRec]

@[simp] theorem numbers_undelivered (s : State) (m q : Nat) (n : Int) (drops : Bool) :
    numbers (undelivered s m q n drops) = numbers s := by
  simp [undelivered]

@[simp] theorem numbers_holdMarks (s : State) (m q : Nat) (n : Int) : numbers (holdMarks s m q n) = numbers s := by
  simp [holdMarks]

@[simp] theorem numbers_dueUnadmitted (s : State) (n : Int) : numbers (dueUnadmitted s n) = numbers s := by
  unfold dueUnadmitted
  repeat' split
  all_goals simp

@[simp] theorem numbers_makeLate (s : State) (m q : Nat) (n : Int) : numbers (makeLate s m q n) = numbers s := by
  unfold makeLate
  split <;> simp

@[simp] theorem numbers_deadlineRecord (s : State) (m q : Nat) (n : Int) :
    numbers (deadlineRecord s m q n) = numbers s := by
  unfold deadlineRecord
  repeat' split
  all_goals simp

@[simp] theorem numbers_atDeadline (s : State) (m q : Nat) (n : Int) : numbers (atDeadline s m q n) = numbers s := by
  have hawait (u : State) : numbers (awaitMap u m q n) = numbers u := by
    unfold awaitMap
    split <;> simp
  simp [atDeadline, hawait]

@[simp] theorem execSliceDeadline_kept (m q : Nat) (n : Int) (s : State) : OutcomeKept s (execSliceDeadline m q n s) := by
  simp [execSliceDeadline_eq]

@[simp] theorem numbers_reportPace (s : State) (m pace : Nat) : numbers (reportPace s m pace) = numbers s :=
  (numbers_raiseIf _ _ _ _).trans (numbers_foldl (g := fun t (p : Page) => setPage t p.id _) (fun _ _ => rfl) _ s)

@[simp] theorem numbers_paceRun (s : State) (m pace run : Nat) : numbers (paceRun s m pace run) = numbers s := by
  simp [paceRun]

@[simp] theorem numbers_paceSlice (s : State) (m pace : Nat) : numbers (paceSlice s m pace) = numbers s := by
  simp [paceSlice]

@[simp] theorem numbers_readPaces (s : State) (ps : List Nat) : numbers (readPaces s ps) = numbers s := by simp [readPaces]

@[simp] theorem execPaceReading_kept (pace : List Nat) (s : State) : OutcomeKept s (execPaceReading pace s) := by
  simp [execPaceReading]

@[simp] theorem numbers_addCurveUpd (s : State) (u : CurveUpd) : numbers (addCurveUpd s u) = numbers s := by
  simp [addCurveUpd]

@[simp] theorem execCurveLoad_kept (e : Entry) (s : State) : OutcomeKept s (execCurveLoad e s) :=
  outcomeKept_of_changesOnly (curveLoad_changesOnly e s)

@[simp] theorem execScreenLoad_kept (e : Entry) (s : State) : OutcomeKept s (execScreenLoad e s) :=
  outcomeKept_of_changesOnly (screenLoad_changesOnly e s)

@[simp] theorem execStitchLoad_kept (e : Entry) (s : State) : OutcomeKept s (execStitchLoad e s) :=
  outcomeKept_of_changesOnly (stitchLoad_changesOnly e s)

end Sys2Proof.Machine
end

section
/-! SUPPORT. Boot, mailbox and pins keep the numbers (O39). -/
set_option Elab.async false
namespace Sys2Proof.Machine

@[simp] theorem numbers_endpointReset (s : State) : numbers (endpointReset s) = numbers s := by simp [endpointReset]

@[simp] theorem numbers_relink (s : State) : numbers (relink s) = numbers s := by simp [relink]

@[simp] theorem execEndpointReset_kept (s : State) : OutcomeKept s (execEndpointReset s) := by simp [execEndpointReset]

@[simp] theorem numbers_setBoot (s : State) (b : BootState) (cause : Nat) : numbers (setBoot s b cause) = numbers s := by
  simp [setBoot]

@[simp] theorem numbers_writeImage (s : State) (image : List Byte) : numbers (writeImage s image) = numbers s := by
  simp [writeImage]

@[simp] theorem numbers_writeBootCtrl (s : State) (v : Dword) : numbers (writeBootCtrl s v) = numbers s := by
  simp [writeBootCtrl]

@[simp] theorem execBootGo_kept (value : Dword) (image : List Byte) (s : State) :
    OutcomeKept s (execBootGo value image s) := by
  simp [execBootGo]

@[simp] theorem execBootVerifyDone_kept (s : State) : OutcomeKept s (execBootVerifyDone s) := by
  unfold execBootVerifyDone
  repeat' split
  all_goals simp

@[simp] theorem numbers_annealEnd (s : State) (pass : Bool) : numbers (annealEnd s pass) = numbers s := by
  have hcount := numbers_count s (cnum 10 1)
  unfold annealEnd
  split
  · exact hcount
  · exact (numbers_count _ _).trans hcount

@[simp] theorem numbers_raiseAnneal (s : State) (pass : Bool) : numbers (raiseAnneal s pass) = numbers s := by
  simp [raiseAnneal]

@[simp] theorem numbers_bootAnneal (s : State) (pass : Bool) : numbers (bootAnneal s pass) = numbers s := by
  simp [bootAnneal]

@[simp] theorem numbers_lanesWait (s : State) : numbers (lanesWait s) = numbers s := by simp [lanesWait]

@[simp] theorem numbers_dropBoundary (s : State) : numbers (dropBoundary s) = numbers s := by simp [dropBoundary]

@[simp] theorem execBootStartDone_kept (s : State) : OutcomeKept s (execBootStartDone s) := by simp [execBootStartDone]

@[simp] theorem numbers_bootReload (s : State) : numbers (bootReload s) = numbers s := by simp [bootReload]

@[simp] theorem numbers_latchTime (s : State) : numbers (latchTime s) = numbers s := by simp [latchTime]

@[simp] theorem execTimNsecRead_kept (s : State) : OutcomeKept s (execTimNsecRead s) := by simp [execTimNsecRead]

@[simp] theorem numbers_writeMsix (s : State) (k : Nat) (v : Dword) : numbers (writeMsix s k v) = numbers s := by
  simp [writeMsix]

@[simp] theorem numbers_writeCqHead (s : State) (v : Dword) : numbers (writeCqHead s v) = numbers s := by simp [writeCqHead]

@[simp] theorem numbers_writeCqBase (s : State) (hi : Bool) (v : Dword) : numbers (writeCqBase s hi v) = numbers s := by
  simp [writeCqBase]

@[simp] theorem numbers_writePlain (s : State) (off : Nat) (v : Dword) : numbers (writePlain s off v) = numbers s := by
  simp [writePlain]

@[simp] theorem execRegisterWrite_kept (offset : Nat) (value : Dword) (s : State) :
    OutcomeKept s (execRegisterWrite offset value s) := by
  simp [execRegisterWrite]

@[simp] theorem numbers_mbxEnable (s : State) : numbers (mbxEnable s) = numbers s := by simp [mbxEnable]

@[simp] theorem execMbxEnable_kept (s : State) : OutcomeKept s (execMbxEnable s) := by simp [execMbxEnable]

@[simp] theorem numbers_mbxDisable (s : State) : numbers (mbxDisable s) = numbers s := by simp [mbxDisable]

@[simp] theorem execMbxDisable_kept (s : State) : OutcomeKept s (execMbxDisable s) := by simp [execMbxDisable]

@[simp] theorem numbers_writeTail (s : State) (v : Dword) : numbers (writeTail s v) = numbers s := by simp [writeTail]

@[simp] theorem numbers_hostStores (s : State) (cells : List Host.Cell) : numbers (hostStores s cells) = numbers s := by
  simp [hostStores]

@[simp] theorem execDoorbell_kept (tail : Dword) (ring : List RingStore) (stores : List Host.Cell) (s : State) :
    OutcomeKept s (execDoorbell tail ring stores s) := by
  simp [execDoorbell]

@[simp] theorem execCommandFetch_kept (s : State) : OutcomeKept s (execCommandFetch s) := by
  unfold execCommandFetch
  repeat' split
  all_goals simp

@[simp] theorem execUnknownOpcode_kept (e : Entry) (s : State) : OutcomeKept s (execUnknownOpcode e s) := by
  unfold execUnknownOpcode
  repeat' split
  all_goals simp

@[simp] theorem execHealthPulse_kept (s : State) : OutcomeKept s (execHealthPulse s) := by simp [execHealthPulse]

end Sys2Proof.Machine
end

section
/-! SUPPORT. Generations, records and the map keep the numbers (O39). -/
set_option Elab.async false
namespace Sys2Proof.Machine

@[simp] theorem numbers_sendGenTo (s : State) (g : Gen) (full : Bool) (m : Nat) :
    numbers (sendGenTo s g full m) = numbers s := by
  simp [sendGenTo]

@[simp] theorem numbers_genParts (s : State) (g : Gen) (full : Bool) (fuel first : Nat) (ws : List Qword) :
    numbers (genParts s g full fuel first ws) = numbers s := by
  induction fuel generalizing s first ws with
  | zero => rfl
  | succ fuel ih => simp [genParts, ih]

@[simp] theorem numbers_tellGen (s : State) (g : Gen) (full : Bool) : numbers (tellGen s g full) = numbers s := by
  simp [tellGen]

@[simp] theorem numbers_addGen (s : State) (g : Gen) : numbers (addGen s g) = numbers s := by
  unfold addGen
  refine (numbers_tellGen _ g _).trans ((numbers_foldl (fun t m => numbers_sendGenTo t g _ m) _ _).trans rfl)

@[simp] theorem numbers_dropReports (s : State) : numbers (dropReports s) = numbers s := by simp [dropReports]

@[simp] theorem numbers_reportPoison (s : State) (number : Nat) (xs : List (Nat × Nat)) :
    numbers (reportPoison s number xs) = numbers s := by
  simp [reportPoison]

@[simp] theorem numbers_queueJoin (s : State) (j : Nat × List Nat) : numbers (queueJoin s j) = numbers s := by
  simp [queueJoin]

@[simp] theorem numbers_rankDue (s : State) (m : Nat) : numbers (rankDue s m) = numbers s := by simp [rankDue]

@[simp] theorem numbers_fixRecord (s : State) (r : Rec) (rho : Nat) : numbers (fixRecord s r rho) = numbers s := by
  unfold fixRecord
  dsimp only
  split <;> simp

@[simp] theorem numbers_planPlane (s : State) (k : Nat) : numbers (planPlane s k) = numbers s := by simp [planPlane]

@[simp] theorem numbers_fixReady (acc : State × List Nat) (r : Rec) : numbers (fixReady acc r).1 = numbers acc.1 := by
  unfold fixReady
  split <;> simp

@[simp] theorem numbers_scheduleReady (s : State) : numbers (scheduleReady s) = numbers s := by
  rw [scheduleReady_eq, numbers_foldl numbers_planPlane]
  exact foldl_fst numbers fixReady numbers_fixReady _ (s, [])

@[simp] theorem execRefillFix_kept (s : State) : OutcomeKept s (execRefillFix s) := by simp [execRefillFix]

@[simp] theorem execRecordComplete_kept (m q : Nat) (n : Int) (s : State) : OutcomeKept s (execRecordComplete m q n s) := by
  unfold execRecordComplete
  repeat' split
  all_goals simp

@[simp] theorem execSchedLate_kept (m q : Nat) (n : Int) (s : State) : OutcomeKept s (execSchedLate m q n s) := by
  unfold execSchedLate
  split <;> simp

@[simp] theorem numbers_countThin (r : Rec) (s : State) (l : Nat × Nat) : numbers (countThin r s l) = numbers s := by
  simp [countThin]

@[simp] theorem numbers_reportThin (s : State) (r : Rec) : numbers (reportThin s r) = numbers s := by
  unfold reportThin
  dsimp only
  split <;> simp

@[simp] theorem numbers_countClamps (s : State) (r : Rec) : numbers (countClamps s r) = numbers s := by simp [countClamps]

@[simp] theorem numbers_reportSeam (s : State) (r : Rec) : numbers (reportSeam s r) = numbers s := by simp [reportSeam]

@[simp] theorem numbers_noteRefill (s : State) (r : Rec) : numbers (noteRefill s r) = numbers s := by simp [noteRefill]

@[simp] theorem numbers_noteDrops (s : State) (r : Rec) (drops : Bool) : numbers (noteDrops s r drops) = numbers s := by
  simp [noteDrops]

@[simp] theorem numbers_releasePrint (s : State) (r : Rec) : numbers (releasePrint s r) = numbers s := by
  simp [releasePrint]

@[simp] theorem numbers_beginPrinting (s : State) (n : Int) : numbers (beginPrinting s n) = numbers s := by
  unfold beginPrinting
  split <;> simp

@[simp] theorem numbers_transmit (s : State) (r : Rec) : numbers (transmit s r) = numbers s := by simp [transmit]

@[simp] theorem numbers_releaseRecord (s : State) (r : Rec) : numbers (releaseRecord s r) = numbers s := by
  simp [releaseRecord]

@[simp] theorem execRecordRelease_kept (m : Nat) (s : State) : OutcomeKept s (execRecordRelease m s) := by
  unfold execRecordRelease
  dsimp only
  repeat' split
  all_goals simp

@[simp] theorem execOverspeed_kept (s : State) : OutcomeKept s (execOverspeed s) := by simp [execOverspeed]

@[simp] theorem numbers_settleGen (s : State) (g : Gen) : numbers (settleGen s g) = numbers s := by simp [settleGen]

@[simp] theorem execMapApplied_kept (s : State) : OutcomeKept s (execMapApplied s) := by
  unfold execMapApplied
  repeat' split
  all_goals simp

@[simp] theorem execGenerationForm_kept (s : State) : OutcomeKept s (execGenerationForm s) := by
  unfold execGenerationForm
  dsimp only
  repeat' split
  all_goals simp

@[simp] theorem execMapPush_kept (e : Entry) (s : State) : OutcomeKept s (execMapPush e s) :=
  outcomeKept_of_changesOnly (mapPush_changesOnly e s)

@[simp] theorem execMapRead_kept (e : Entry) (s : State) : OutcomeKept s (execMapRead e s) :=
  outcomeKept_of_changesOnly (mapRead_changesOnly e s)

end Sys2Proof.Machine
end

section
/-! SUPPORT. The link to the modules keeps the numbers (O39). -/
set_option Elab.async false
namespace Sys2Proof.Machine

@[simp] theorem execLaneDetect_kept (lane : Nat) (s : State) : OutcomeKept s (execLaneDetect lane s) := by
  simp [execLaneDetect]

@[simp] theorem numbers_searchFailed (s : State) (lane : Nat) : numbers (searchFailed s lane) = numbers s := by
  simp [searchFailed]

@[simp] theorem execPolarityCount_kept (lane ones : Nat) (s : State) : OutcomeKept s (execPolarityCount lane ones s) := by
  simp [execPolarityCount]

@[simp] theorem execSlipTrial_kept (lane : Nat) (trial : Trial) (s : State) :
    OutcomeKept s (execSlipTrial lane trial s) := by
  simp [execSlipTrial]

@[simp] theorem numbers_orderFailed (s : State) (g : Nat) : numbers (orderFailed s g) = numbers s := by simp [orderFailed]

@[simp] theorem numbers_rejoinLane (s : State) (lane logical : Nat) : numbers (rejoinLane s lane logical) = numbers s := by
  simp [rejoinLane]

@[simp] theorem execMarkLock_kept (lane logical : Nat) (s : State) : OutcomeKept s (execMarkLock lane logical s) := by
  simp [execMarkLock]

@[simp] theorem numbers_startRead (s : State) (g tries : Nat) : numbers (startRead s g tries) = numbers s := by
  simp [startRead]

@[simp] theorem numbers_sendEcho (s : State) (g : Nat) : numbers (sendEcho s g) = numbers s := by simp [sendEcho]

@[simp] theorem numbers_lanesToRun (s : State) (g : Nat) : numbers (lanesToRun s g) = numbers s := by simp [lanesToRun]

@[simp] theorem numbers_joinSeams (s : State) (m : Nat) : numbers (joinSeams s m) = numbers s := by simp [joinSeams]

@[simp] theorem numbers_adjustJoinSeams (s : State) (m : Nat) : numbers (adjustJoinSeams s m) = numbers s := by
  simp [adjustJoinSeams]

@[simp] theorem numbers_onGroupLanes (s : State) (g : Nat) (w : Qword) : numbers (onGroupLanes s g w) = numbers s := by
  simp [onGroupLanes]

@[simp] theorem numbers_groupToRun (s : State) (g : Nat) : numbers (groupToRun s g) = numbers s := by simp [groupToRun]

@[simp] theorem numbers_finishJoin (s : State) (g : Nat) : numbers (finishJoin s g) = numbers s := by simp [finishJoin]

@[simp] theorem numbers_settleMap (s : State) (g : Nat) (held : Option Nat) : numbers (settleMap s g held) = numbers s := by
  unfold settleMap
  split <;> simp

@[simp] theorem execGroupBringup_kept (link : LinkUp) (s : State) : OutcomeKept s (execGroupBringup link s) := by
  unfold execGroupBringup
  dsimp only
  repeat' split
  all_goals simp

@[simp] theorem execSpareAbsent_kept (g : Nat) (s : State) : OutcomeKept s (execSpareAbsent g s) := by
  simp [execSpareAbsent]

@[simp] theorem numbers_authRead (s : State) (g : Nat) : numbers (authRead s g) = numbers s := by
  unfold authRead
  split <;> simp

@[simp] theorem numbers_touchRead (s : State) (g : Nat) : numbers (touchRead s g) = numbers s := by simp [touchRead]

@[simp] theorem numbers_readDone (s : State) (g : Nat) : numbers (readDone s g) = numbers s := by simp [readDone]

@[simp] theorem numbers_touchDword (s : State) (g off : Nat) (data : Dword) :
    numbers (touchDword s g off data) = numbers s := by
  simp [touchDword]

@[simp] theorem numbers_mcrcWord (s : State) (g : Nat) (data : Dword) : numbers (mcrcWord s g data) = numbers s := by
  unfold mcrcWord
  split <;> simp

@[simp] theorem execTmdata_kept (g offset : Nat) (data : Dword) (s : State) :
    OutcomeKept s (execTmdata g offset data s) := by
  unfold execTmdata
  split <;> simp

@[simp] theorem execMcrcTimeout_kept (g : Nat) (s : State) : OutcomeKept s (execMcrcTimeout g s) := by
  simp [execMcrcTimeout]

@[simp] theorem numbers_ackGen (s : State) (g n : Nat) : numbers (ackGen s g n) = numbers s := by simp [ackGen]

@[simp] theorem execMapack_kept (g : Nat) (ok unprompted : Bool) (gen : Dword) (s : State) :
    OutcomeKept s (execMapack g ok unprompted gen s) := by
  unfold execMapack
  dsimp only
  repeat' split
  all_goals simp

@[simp] theorem numbers_sendJoinJobcfg (s : State) (g : Nat) : numbers (sendJoinJobcfg s g) = numbers s := by
  unfold sendJoinJobcfg
  split <;> simp

@[simp] theorem execEchoRsp_kept (g token turn roundTrip : Nat) (s : State) :
    OutcomeKept s (execEchoRsp g token turn roundTrip s) := by
  unfold execEchoRsp
  dsimp only
  split <;> simp

@[simp] theorem execLatencyMeasure_kept (g : Nat) (s : State) : OutcomeKept s (execLatencyMeasure g s) := by
  simp [execLatencyMeasure]

@[simp] theorem numbers_sendRestripeReq (s : State) (g llane cause : Nat) :
    numbers (sendRestripeReq s g llane cause) = numbers s := by
  simp [sendRestripeReq]

@[simp] theorem numbers_groupLost (s : State) (m : Nat) : numbers (groupLost s m) = numbers s := by simp [groupLost]

@[simp] theorem numbers_groupDown (s : State) (g : Nat) : numbers (groupDown s g) = numbers s := by simp [groupDown]

@[simp] theorem numbers_cameraDown (s : State) (k : Nat) : numbers (cameraDown s k) = numbers s := by simp [cameraDown]

@[simp] theorem numbers_laneTrips (s : State) (lane cause : Nat) (st : LaneState) :
    numbers (laneTrips s lane cause st) = numbers s := by
  simp [laneTrips]

@[simp] theorem numbers_laneFalls (s : State) (lane cause : Nat) (st : LaneState) :
    numbers (laneFalls s lane cause st) = numbers s := by
  unfold laneFalls
  split <;> simp

@[simp] theorem execLos_kept (lane : Nat) (s : State) : OutcomeKept s (execLos lane s) := by simp [execLos]

@[simp] theorem execLol_kept (lane : Nat) (markMissing : Bool) (s : State) :
    OutcomeKept s (execLol lane markMissing s) := by
  simp [execLol]

@[simp] theorem execRestripeReq_kept (g llane cause : Nat) (s : State) :
    OutcomeKept s (execRestripeReq g llane cause s) := by
  simp [execRestripeReq]

@[simp] theorem execRestripe_kept (g llane phys sfn slot : Nat) (s : State) :
    OutcomeKept s (execRestripe g llane phys sfn slot s) := by
  simp [execRestripe]

@[simp] theorem numbers_reportRestripe (s : State) (g dir llane phys : Nat) :
    numbers (reportRestripe s g dir llane phys) = numbers s := by
  simp [reportRestripe]

@[simp] theorem execRestripeSwitch_kept (g : Nat) (upstream : Bool) (s : State) :
    OutcomeKept s (execRestripeSwitch g upstream s) := by
  unfold execRestripeSwitch
  dsimp only
  repeat' split
  all_goals simp

@[simp] theorem execCeaseN_kept (s : State) : OutcomeKept s (execCeaseN s) := by simp [execCeaseN]

@[simp] theorem execCeaseNRelease_kept (s : State) : OutcomeKept s (execCeaseNRelease s) := by simp [execCeaseNRelease]

@[simp] theorem numbers_resume (s : State) : numbers (resume s) = numbers s := by simp [resume]

@[simp] theorem execCeaseClear_kept (e : Entry) (s : State) : OutcomeKept s (execCeaseClear e s) :=
  numbers_command fun _ => .checked (by simp) _

@[simp] theorem execCeaseIssue_kept (e : Entry) (s : State) : OutcomeKept s (execCeaseIssue e s) :=
  numbers_command fun _ => .checked (by simp) _

@[simp] theorem execCeased_kept (g cseq : Nat) (s : State) : OutcomeKept s (execCeased g cseq s) := by simp [execCeased]

@[simp] theorem execCeaseUnconfirmed_kept (s : State) : OutcomeKept s (execCeaseUnconfirmed s) := by
  simp [execCeaseUnconfirmed]

@[simp] theorem numbers_seenEpoch (s : State) (g : Nat) (e : Dword) : numbers (seenEpoch s g e) = numbers s := by
  simp [seenEpoch]

@[simp] theorem execMark_kept (g : Nat) (body : MarkBody) (s : State) : OutcomeKept s (execMark g body s) := by
  simp [execMark]

@[simp] theorem execStatus_kept (g : Nat) (body : BitVec 48) (s : State) : OutcomeKept s (execStatus g body s) := by
  simp [execStatus]

@[simp] theorem execHeld_kept (g q rseq : Nat) (nLo : Dword) (s : State) : OutcomeKept s (execHeld g q rseq nLo s) := by
  simp [execHeld]

@[simp] theorem numbers_recordsLost (s : State) (g q : Nat) : numbers (recordsLost s g q) = numbers s := by
  simp [recordsLost]

@[simp] theorem execResend_kept (g q rseq : Nat) (s : State) : OutcomeKept s (execResend g q rseq s) := by
  unfold execResend
  dsimp only
  repeat' split
  all_goals simp

@[simp] theorem execEhr_kept (g cause : Nat) (addr : Dword) (s : State) : OutcomeKept s (execEhr g cause addr s) := by
  unfold execEhr
  split <;> simp

@[simp] theorem execTemp_kept (g sensor : Nat) (value : BitVec 16) (s : State) :
    OutcomeKept s (execTemp g sensor value s) := by
  simp [execTemp]

@[simp] theorem numbers_markRows (s : State) (m q : Nat) : numbers (markRows s m q) = numbers s := by simp [markRows]

@[simp] theorem execFault_kept (g q kind count_ : Nat) (s : State) : OutcomeKept s (execFault g q kind count_ s) := by
  unfold execFault
  repeat' split
  all_goals simp

@[simp] theorem numbers_partnerWordLost (s : State) (lane : Nat) : numbers (partnerWordLost s lane) = numbers s := by
  simp [partnerWordLost]

@[simp] theorem execChkFail_kept (lane : Nat) (s : State) : OutcomeKept s (execChkFail lane s) := by simp [execChkFail]

@[simp] theorem execStuffingViolation_kept (lane : Nat) (s : State) : OutcomeKept s (execStuffingViolation lane s) := by
  simp [execStuffingViolation]

@[simp] theorem numbers_loadEq (s : State) (w : Dword) : numbers (loadEq s w) = numbers s := by simp [loadEq]

@[simp] theorem execLinkEqLoad_kept (e : Entry) (s : State) : OutcomeKept s (execLinkEqLoad e s) :=
  numbers_command fun _ => .checked (.withRecord (fun _ => .checked (.okWith (numbers_foldl numbers_loadEq _ s) _) _) _ _) _

@[simp] theorem execLinkStatus_kept (e : Entry) (s : State) : OutcomeKept s (execLinkStatus e s) :=
  numbers_command fun _ => .checked (by simp) _

@[simp] theorem execModuleAuth_kept (e : Entry) (s : State) : OutcomeKept s (execModuleAuth e s) := by
  refine numbers_command fun _ => ?_
  dsimp only
  repeat' split
  all_goals simp

end Sys2Proof.Machine
end

section
/-! SUPPORT. The assay keeps the numbers (O39). -/
set_option Elab.async false
namespace Sys2Proof.Machine

@[simp] theorem numbers_setCam (s : State) (k : Nat) (f : Camera → Camera) : numbers (setCam s k f) = numbers s := by
  simp [setCam]

@[simp] theorem numbers_whiteScan (s : State) (a : AsySetup) (r : ScanRead) : numbers (whiteScan s a r) = numbers s := by
  simp [whiteScan]

@[simp] theorem numbers_wantVariant (s : State) (a : AsySetup) (k p u : Nat) (e : Int) :
    numbers (wantVariant s a k p u e) = numbers s := by
  simp [wantVariant]

@[simp] theorem numbers_closeWindow (s : State) (a : AsySetup) (k p u : Nat) (e : Int) :
    numbers (closeWindow s a k p u e) = numbers s := by
  simp [closeWindow]

@[simp] theorem numbers_addSample (s : State) (a : AsySetup) (r : ScanRead) (p u : Nat) (e : Int) :
    numbers (addSample s a r p u e) = numbers s := by
  unfold addSample
  split <;> simp

@[simp] theorem numbers_pixelSamples (a : AsySetup) (r : ScanRead) (s : State) (u : Nat) :
    numbers (pixelSamples a r s u) = numbers s := by
  refine numbers_foldl (fun t p => ?_) _ s
  split <;> simp

@[simp] theorem numbers_pixelDrops (a : AsySetup) (r : ScanRead) (s : State) (u : Nat) :
    numbers (pixelDrops a r s u) = numbers s := by
  simp [pixelDrops]

@[simp] theorem numbers_useScan (s : State) (a : AsySetup) (r : ScanRead) : numbers (useScan s a r) = numbers s := by
  unfold useScan
  rw [numbers_foldl (numbers_pixelDrops a r), numbers_foldl (numbers_pixelSamples a r)]
  simp

@[simp] theorem numbers_matchScan (s : State) (k trig pix0 : Nat) (totals : List Nat) (pixels : List (List Nat)) :
    numbers (matchScan s k trig pix0 totals pixels) = numbers s := by
  unfold matchScan
  dsimp only
  repeat' split
  all_goals simp

@[simp] theorem execScan_kept (k trig pix0 npix : Nat) (deep : Bool) (s : State) :
    OutcomeKept s (execScan k trig pix0 npix deep s) := by
  unfold execScan
  repeat' split
  all_goals simp

@[simp] theorem execScanend_kept (k trig : Nat) (crc : Dword) (words : List Qword) (s : State) :
    OutcomeKept s (execScanend k trig crc words s) := by
  unfold execScanend
  repeat' split
  all_goals simp

@[simp] theorem numbers_curvesParts (s : State) (line : Int) (fuel : Nat) (es : List (Nat × Nat)) :
    numbers (curvesParts s line fuel es) = numbers s := by
  induction fuel generalizing s es with
  | zero => rfl
  | succ fuel ih => simp [curvesParts, ih]

@[simp] theorem numbers_tellCurves (s : State) (u : CurveUpd) : numbers (tellCurves s u) = numbers s := by simp [tellCurves]

@[simp] theorem numbers_endCurvePoison (s : State) (u : CurveUpd) : numbers (endCurvePoison s u) = numbers s := by
  simp [endCurvePoison]

@[simp] theorem numbers_formCurves (s : State) (curves : List (Nat × List Nat)) (entries : List (Nat × Nat)) :
    numbers (formCurves s curves entries) = numbers s := by
  simp [formCurves]

@[simp] theorem numbers_realign (s : State) (old : Option AsySetup) (a : AsySetup) :
    numbers (realign s old a) = numbers s := by
  unfold realign
  split <;> simp

@[simp] theorem numbers_awaitVariants (s : State) (a : AsySetup) : numbers (awaitVariants s a) = numbers s := by
  unfold awaitVariants
  dsimp only
  repeat' split
  all_goals simp

@[simp] theorem numbers_startAssay (s : State) (a : AsySetup) : numbers (startAssay s a) = numbers s := by simp [startAssay]

@[simp] theorem execAssaySetup_kept (e : Entry) (s : State) : OutcomeKept s (execAssaySetup e s) :=
  numbers_command fun _ => .checked (by simp) _

@[simp] theorem execAssayStop_kept (e : Entry) (s : State) : OutcomeKept s (execAssayStop e s) :=
  numbers_command fun _ => .checked (by rfl) _

@[simp] theorem numbers_tellLocks (s : State) : numbers (tellLocks s) = numbers s := by simp [tellLocks]

@[simp] theorem numbers_putLocks (s : State) (mapL curveL hold : Bool) :
    numbers (putLocks s mapL curveL hold) = numbers s := by
  simp [putLocks]

@[simp] theorem execAssayLock_kept (e : Entry) (s : State) : OutcomeKept s (execAssayLock e s) :=
  numbers_command fun _ => .checked (by simp) _

@[simp] theorem execCensusRequest_kept (e : Entry) (s : State) : OutcomeKept s (execCensusRequest e s) :=
  numbers_command fun _ => .checked (by simp) _

@[simp] theorem queryDone_kept (s : State) (op addr bytes : Nat) (result : List Dword) :
    ReplyKept s (queryDone s op addr bytes result) := by
  simp [queryDone]

@[simp] theorem execAssayResults_kept (e : Entry) (s : State) : OutcomeKept s (execAssayResults e s) :=
  numbers_command fun _ => .checked ((queryDone_kept _ _ _ _ _).after (numbers_hostPut s _ _)) _

@[simp] theorem execAssayPixels_kept (e : Entry) (s : State) : OutcomeKept s (execAssayPixels e s) := by
  refine numbers_command fun _ => .checked ?_ _
  dsimp only
  split
  · exact .okWith rfl _
  · exact (queryDone_kept _ _ _ _ _).after (numbers_hostPutDws s _ _)

@[simp] theorem numbers_goodStep (s : State) (o c v : Nat) : numbers (goodStep s o c v) = numbers s := by simp [goodStep]

@[simp] theorem numbers_proposals (s : State) (a : AsySetup) (vs : List (Nat × Nat)) :
    numbers (proposals s a vs) = numbers s := by
  simp [proposals]

@[simp] theorem numbers_closeStripe (s : State) (a : AsySetup) (p : Nat) : numbers (closeStripe s a p) = numbers s := by
  simp [closeStripe]

@[simp] theorem numbers_recordVerdicts (s : State) (p : Nat) (sigs : List (Nat × Int)) (vs : List (Nat × Nat)) :
    numbers (recordVerdicts s p sigs vs) = numbers s := by
  simp [recordVerdicts]

@[simp] theorem numbers_judge (s : State) (a : AsySetup) (p : Nat) (start band : Int) (len : Nat) :
    numbers (judge s a p start band len) = numbers s := by
  simp [judge]

@[simp] theorem execCensusDone_kept (plane : Nat) (s : State) : OutcomeKept s (execCensusDone plane s) := by
  unfold execCensusDone
  split <;> simp

@[simp] theorem execAssayMap_kept (s : State) : OutcomeKept s (execAssayMap s) := by simp [execAssayMap]

@[simp] theorem execAssayCurves_kept (s : State) : OutcomeKept s (execAssayCurves s) := by
  unfold execAssayCurves
  split <;> simp

end Sys2Proof.Machine
end

section
/-! SUPPORT. Encoders, line ticks, cues and pulses keep the numbers (O39). -/
set_option Elab.async false
namespace Sys2Proof.Machine

@[simp] theorem numbers_reportRate (s : State) : numbers (reportRate s) = numbers s := by
  unfold reportRate
  split <;> simp

@[simp] theorem numbers_setPosFlag (s : State) (bit : Nat) : numbers (setPosFlag s bit) = numbers s := by simp [setPosFlag]

@[simp] theorem numbers_applyGear (s : State) (ratio : Nat) : numbers (applyGear s ratio) = numbers s := by simp [applyGear]

@[simp] theorem numbers_standstill (s : State) : numbers (standstill s) = numbers s := by simp [standstill]

@[simp] theorem numbers_shiftLines (s0 : State) (d : Int) : numbers (shiftLines s0 d) = numbers s0 := by simp [shiftLines]

@[simp] theorem numbers_applyReference (s : State) (lamI : Int) (lamF : Nat) :
    numbers (applyReference s lamI lamF) = numbers s := by
  simp [applyReference]

@[simp] theorem numbers_countSpeed (s : State) (fwd : Bool) (t : Nat) : numbers (countSpeed s fwd t) = numbers s := by
  unfold countSpeed
  dsimp only
  split <;> simp

@[simp] theorem numbers_projectTicks (s : State) (fwd : Bool) (t : Nat) : numbers (projectTicks s fwd t) = numbers s := by
  simp [projectTicks]

@[simp] theorem numbers_webCheck (s : State) : numbers (webCheck s) = numbers s := by simp [webCheck]

@[simp] theorem numbers_emitPulse (s : State) (k t : Nat) (n : Int) : numbers (emitPulse s k t n) = numbers s := by
  unfold emitPulse
  repeat' split
  all_goals simp

@[simp] theorem numbers_countPulses (s : State) (t : Nat) : numbers (countPulses s t) = numbers s := by
  refine numbers_foldl (fun u k => ?_) _ s
  split <;> simp

@[simp] theorem numbers_refAtCount (s : State) (before : Int) (t : Nat) : numbers (refAtCount s before t) = numbers s := by
  unfold refAtCount
  split <;> simp

@[simp] theorem numbers_reverseState (s : State) (fwd : Bool) : numbers (reverseState s fwd) = numbers s := by
  simp [reverseState]

@[simp] theorem numbers_movePos (s : State) (ch : Nat) (fwd : Bool) : numbers (movePos s ch fwd) = numbers s := by
  simp [movePos]

@[simp] theorem numbers_gearAt (s : State) (before : Int) : numbers (gearAt s before) = numbers s := by
  unfold gearAt
  split <;> simp

@[simp] theorem numbers_webCount (s : State) (fwd : Bool) (t : Nat) : numbers (webCount s fwd t) = numbers s := by
  simp [webCount]

@[simp] theorem numbers_masterCount (s : State) (fwd : Bool) (t : Nat) : numbers (masterCount s fwd t) = numbers s := by
  simp [masterCount]

@[simp] theorem execEncCount_kept (ch : Nat) (a b : Bool) (edge : Edge) (s : State) :
    OutcomeKept s (execEncCount ch a b edge s) := by
  unfold execEncCount
  repeat' split
  all_goals simp

@[simp] theorem numbers_sendTick (s : State) (n : Int) : numbers (sendTick s n) = numbers s := by simp [sendTick]

@[simp] theorem numbers_leaveTick (s : State) (n : Int) (t : Nat) : numbers (leaveTick s n t) = numbers s := by
  unfold leaveTick
  refine (numbers_foldl (fun u k => ?_) _ _).trans (by simp)
  split <;> simp

@[simp] theorem numbers_queueLimit (s : State) : numbers (queueLimit s) = numbers s := by simp [queueLimit]

@[simp] theorem numbers_reportHeld (s : State) : numbers (reportHeld s) = numbers s := by simp [reportHeld]

@[simp] theorem numbers_countOverspeed (s : State) : numbers (countOverspeed s) = numbers s := by simp [countOverspeed]

@[simp] theorem numbers_annealWindowOver (s : State) : numbers (annealWindowOver s) = numbers s := by
  unfold annealWindowOver
  split <;> simp

@[simp] theorem numbers_issueTick (s : State) (line : Int) (t : Nat) : numbers (issueTick s line t) = numbers s := by
  simp [issueTick]

@[simp] theorem execLineTick_kept (t : Nat) (s : State) : OutcomeKept s (execLineTick t s) := by
  unfold execLineTick
  split <;> simp

@[simp] theorem execHeldTickIssue_kept (t : Nat) (s : State) : OutcomeKept s (execHeldTickIssue t s) := by
  unfold execHeldTickIssue
  dsimp only
  split <;> simp

@[simp] theorem execPacingTick_kept (t : Nat) (s : State) : OutcomeKept s (execPacingTick t s) := by simp [execPacingTick]

@[simp] theorem execWebStill_kept (t : Nat) (s : State) : OutcomeKept s (execWebStill t s) := by
  unfold execWebStill
  split <;> simp

@[simp] theorem numbers_decay (s : State) (t : Nat) : numbers (decay s t) = numbers s := by
  unfold decay
  split <;> simp

@[simp] theorem numbers_refillGuard (s : State) : numbers (refillGuard s) = numbers s := by
  unfold refillGuard
  split <;> simp

@[simp] theorem execRateReading_kept (t : Nat) (s : State) : OutcomeKept s (execRateReading t s) := by
  simp [execRateReading]

@[simp] theorem numbers_offerCue (s : State) (ch : Nat) (line : Int) : numbers (offerCue s ch line) = numbers s := by
  unfold offerCue
  split <;> simp

@[simp] theorem execCueCapture_kept (ch : Nat) (rising : Bool) (edge : Edge) (s : State) :
    OutcomeKept s (execCueCapture ch rising edge s) := by
  unfold execCueCapture
  split <;> simp

@[simp] theorem execCueConfig_kept (e : Entry) (s : State) : OutcomeKept s (execCueConfig e s) :=
  numbers_command fun _ => .checked (by simp) _

@[simp] theorem execCueRead_kept (e : Entry) (s : State) : OutcomeKept s (execCueRead e s) :=
  numbers_command fun _ => .checked (by simp) _

@[simp] theorem execEncConfig_kept (e : Entry) (s : State) : OutcomeKept s (execEncConfig e s) :=
  numbers_command fun _ => .checked (by simp) _

@[simp] theorem execWebConfig_kept (e : Entry) (s : State) : OutcomeKept s (execWebConfig e s) :=
  numbers_command fun _ => .checked (by simp) _

@[simp] theorem execGearSet_kept (e : Entry) (s : State) : OutcomeKept s (execGearSet e s) :=
  numbers_command fun _ => .checked (by simp) _

@[simp] theorem execLineReference_kept (e : Entry) (s : State) : OutcomeKept s (execLineReference e s) :=
  numbers_command fun _ => .checked (by simp) _

@[simp] theorem execPaceSet_kept (e : Entry) (s : State) : OutcomeKept s (execPaceSet e s) :=
  numbers_command fun _ => .checked (by simp) _

@[simp] theorem execPulseConfig_kept (e : Entry) (s : State) : OutcomeKept s (execPulseConfig e s) :=
  numbers_command fun _ => .checked (by simp) _

@[simp] theorem execFireTrim_kept (e : Entry) (s : State) : OutcomeKept s (execFireTrim e s) :=
  numbers_command fun _ => .checked (by simp) _

@[simp] theorem execWebStatus_kept (e : Entry) (s : State) : OutcomeKept s (execWebStatus e s) :=
  numbers_command fun _ => .checked (by rfl) _

end Sys2Proof.Machine
end

section
/-! SUPPORT. Job, loading and admission of pages keep the numbers (O39). -/
set_option Elab.async false
namespace Sys2Proof.Machine

@[simp] theorem numbers_boundPending (s : State) : numbers (boundPending s) = numbers s := by
  unfold boundPending
  repeat' split
  all_goals simp

@[simp] theorem numbers_closeJob (s0 : State) : numbers (closeJob s0) = numbers s0 := by simp [closeJob]

@[simp] theorem numbers_startJob (s9 : State) (j : Job) (geo : List Dword) : numbers (startJob s9 j geo) = numbers s9 := by
  simp [startJob]

@[simp] theorem execJobOpen_kept (e : Entry) (s : State) : OutcomeKept s (execJobOpen e s) := by
  refine numbers_command fun _ => .checked (.withRecord (fun d => .checked (.withRecord (fun geo => ?_) _ _) _) _ _) _
  dsimp only
  split
  · exact .reject s _
  · split <;> simp

@[simp] theorem execJobClose_kept (e : Entry) (s : State) : OutcomeKept s (execJobClose e s) :=
  numbers_command fun _ => .checked (by simp) _

@[simp] theorem numbers_failLoad (s : State) (ld : Load) (st : Nat) (res : List Dword) :
    numbers (failLoad s ld st res) = numbers s := by
  simp [failLoad]

@[simp] theorem numbers_failBlock (s : State) (ld : Load) (st : Nat) : numbers (failBlock s ld st) = numbers s := by
  simp [failBlock]

@[simp] theorem numbers_setLoad (s : State) (ld : Load) : numbers (setLoad s ld) = numbers s := by simp [setLoad]

@[simp] theorem numbers_advanceLoad (s : State) (ld : Load) (p : Page) (fuel : Nat) :
    numbers (advanceLoad s ld p fuel) = numbers s :=
  (advanceLoad_within s ld p fuel).untouched numbers

@[simp] theorem numbers_driveLoad (s : State) (ld : Load) : numbers (driveLoad s ld) = numbers s := by
  unfold driveLoad
  split <;> simp

@[simp] theorem numbers_enterLoading (s : State) (p : Page) : numbers (enterLoading s p) = numbers s := by
  simp [enterLoading]

@[simp] theorem loadPage_kept (e : Entry) (s : State) : ReplyKept s (loadPage e s) := by
  unfold loadPage
  dsimp only
  repeat' split
  all_goals simp

@[simp] theorem execPageLoad_kept (e : Entry) (s : State) : OutcomeKept s (execPageLoad e s) :=
  outcomeKept_of_changesOnly (pageLoad_changesOnly e s)

@[simp] theorem execDmaReadCompletion_kept (addr len : Nat) (outcome : DmaEnd) (s : State) :
    OutcomeKept s (execDmaReadCompletion addr len outcome s) :=
  outcomeKept_of_changesOnly (dmaReadCompletion_changesOnly addr len outcome s)

@[simp] theorem numbers_afterBlock (s : State) (ld : Load) (p : Page) (l : Layer) (addr len used : Nat) :
    numbers (afterBlock s ld p l addr len used) = numbers s := by
  unfold afterBlock
  dsimp only
  split <;> simp

@[simp] theorem execBlockStore_kept (s : State) : OutcomeKept s (execBlockStore s) :=
  outcomeKept_of_changesOnly (blockStore_changesOnly s)

@[simp] theorem numbers_enterAdmitted (s : State) (p : Page) (thin : Bool) (planes : List Nat) :
    numbers (enterAdmitted s p thin planes) = numbers s := by
  simp [enterAdmitted]

@[simp] theorem numbers_unshadowMsg (s : State) (m : Dword × Nat × Bool × Nat × Int × Nat) :
    numbers (unshadowMsg s m) = numbers s := by
  simp [unshadowMsg]

@[simp] theorem numbers_refusePage (s : State) (id : Dword) : numbers (refusePage s id) = numbers s := by
  unfold refusePage
  repeat' split
  all_goals simp

@[simp] theorem rejectPage_kept (s : State) (id : Dword) (st : Nat) (res : List Dword) :
    ReplyKept s (rejectPage s id st res) := by
  simp [rejectPage]

@[simp] theorem commitOwn_kept (s : State) (p : Page) : ReplyKept s (commitOwn s p) := by
  unfold commitOwn
  dsimp only
  split
  · exact rejectPage_kept s _ _ _
  · split
    · exact rejectPage_kept s _ _ _
    · split
      all_goals
        rw [replyKept_okWith]
        split <;> simp

@[simp] theorem commitServitor_kept (s : State) (p : Page) (m : Dword × Nat × Bool × Nat × Int × Nat) :
    ReplyKept s (commitServitor s p m) := by
  unfold commitServitor
  dsimp only
  repeat' split
  all_goals simp

@[simp] theorem numbers_pageCommit (e : Entry) (s : State) : numbers (pageCommit e s) = numbers s := by
  have hstart : numbers (if commitFailsEarly e s then tellRejected s (pw e 0) else s) = numbers s := by simp
  unfold pageCommit
  refine (numbers_command fun r => ?_).trans hstart
  generalize (if commitFailsEarly e s then tellRejected s (pw e 0) else s) = u
  refine .ite (rejectPage_kept _ _ _ _) ?_
  split
  · exact rejectPage_kept _ _ _ _
  · refine .ite (replyKept_waits _) (.ite (rejectPage_kept _ _ _ _) (.ite ?_ (.ite (replyKept_waits _) (commitOwn_kept _ _))))
    split
    · exact commitServitor_kept _ _ _
    · exact .ite (replyKept_waits _) (.reject _ _)

@[simp] theorem execPageCommit_kept (e : Entry) (s : State) : OutcomeKept s (execPageCommit e s) := by simp [execPageCommit]

@[simp] theorem numbers_endWaitingCommit (s : State) (id : Dword) : numbers (endWaitingCommit s id) = numbers s := by
  unfold endWaitingCommit
  split <;> simp

@[simp] theorem numbers_abortPage (s : State) (p : Page) (cuts : List (Nat × Int)) :
    numbers (abortPage s p cuts) = numbers s := by
  unfold abortPage
  repeat' split
  all_goals simp

@[simp] theorem abortServitor_kept (s : State) (p : Page) : ReplyKept s (abortServitor s p) := by
  unfold abortServitor
  split <;> simp

@[simp] theorem numbers_pageAbort (e : Entry) (s : State) : numbers (pageAbort e s) = numbers s := by
  refine numbers_command fun r => .ite (.reject s _) ?_
  split
  · exact .reject s _
  · refine .ite ((replyKept_done s s _ _).mpr rfl) (.ite (abortServitor_kept s _) (.okWith ?_ _))
    simp

@[simp] theorem execPageAbort_kept (e : Entry) (s : State) : OutcomeKept s (execPageAbort e s) := by simp [execPageAbort]

@[simp] theorem execPageStatus_kept (e : Entry) (s : State) : OutcomeKept s (execPageStatus e s) :=
  outcomeKept_of_changesOnly (pageStatus_changesOnly e s)

@[simp] theorem execDoffsetSet_kept (e : Entry) (s : State) : OutcomeKept s (execDoffsetSet e s) :=
  numbers_command fun _ => .checked (by simp) _

@[simp] theorem execXshiftSet_kept (e : Entry) (s : State) : OutcomeKept s (execXshiftSet e s) :=
  outcomeKept_of_changesOnly (xshiftSet_changesOnly e s)

end Sys2Proof.Machine
end

section
/-! SUPPORT. Time, ports and servo keep the numbers (O39). -/
set_option Elab.async false
namespace Sys2Proof.Machine

@[simp] theorem numbers_timeMatch (before : Time) (s : State) : numbers (timeMatch before s) = numbers s := by
  simp [timeMatch]

@[simp] theorem numbers_setAdj (s : State) (a : Int) : numbers (setAdj s a) = numbers s := by simp [setAdj]

@[simp] theorem numbers_stepTo (s : State) (sec nsec frac : Nat) : numbers (stepTo s sec nsec frac) = numbers s := by
  simp [stepTo]

@[simp] theorem numbers_stepBy (s : State) (d : Int) : numbers (stepBy s d) = numbers s := by simp [stepBy]

@[simp] theorem numbers_stepCounter (s : State) (d : Int) : numbers (stepCounter s d) = numbers s := by simp [stepCounter]

@[simp] theorem numbers_drainPorts (s : State) : numbers (drainPorts s) = numbers s := by simp [drainPorts]

@[simp] theorem numbers_dueSignal (s : State) : numbers (dueSignal s) = numbers s := by simp [dueSignal]

@[simp] theorem numbers_changeCounter (s : State) (c : TimeChange) : numbers (changeCounter s c) = numbers s := by
  unfold changeCounter
  split <;> simp

@[simp] theorem numbers_advanceTime (s : State) : numbers (advanceTime s) = numbers s := by simp [advanceTime]

@[simp] theorem execTimeTick_kept (s : State) : OutcomeKept s (execTimeTick s) := by simp [execTimeTick]

@[simp] theorem timeDue_kept (s : State) (c : TimeChange) : ReplyKept s (timeDue s c) := by simp [timeDue]

@[simp] theorem execTimeSet_kept (e : Entry) (s : State) : OutcomeKept s (execTimeSet e s) :=
  .ite rfl (numbers_command fun _ => .checked (timeDue_kept s _) _)

@[simp] theorem execTimeStep_kept (e : Entry) (s : State) : OutcomeKept s (execTimeStep e s) :=
  .ite (numbers_command fun _ => .checked (timeDue_kept s _) _) rfl

@[simp] theorem execTimeAdj_kept (e : Entry) (s : State) : OutcomeKept s (execTimeAdj e s) :=
  numbers_command fun _ => .checked (by rfl) _

@[simp] theorem execTimeRead_kept (e : Entry) (s : State) : OutcomeKept s (execTimeRead e s) :=
  numbers_command fun _ => .checked (by rfl) _

@[simp] theorem numbers_setPort (s : State) (p : Nat) (f : Port → Port) : numbers (setPort s p f) = numbers s := by
  simp [setPort]

@[simp] theorem execNetConfig_kept (e : Entry) (s : State) : OutcomeKept s (execNetConfig e s) :=
  numbers_command fun _ => .checked (by simp) _

@[simp] theorem execNetStatus_kept (e : Entry) (s : State) : OutcomeKept s (execNetStatus e s) :=
  numbers_command fun _ => .checked (by rfl) _

@[simp] theorem execNetLink_kept (port : Nat) (up : Bool) (s : State) : OutcomeKept s (execNetLink port up s) := by
  simp [execNetLink]

@[simp] theorem execFrameDiscarded_kept (port : Nat) (s : State) : OutcomeKept s (execFrameDiscarded port s) := by
  simp [execFrameDiscarded]

@[simp] theorem execArpRequest_kept (port : Nat) (target : Dword) (s : State) :
    OutcomeKept s (execArpRequest port target s) := by
  simp [execArpRequest]

@[simp] theorem numbers_forwardFrame (s : State) (port bytes : Nat) (f : Frame) (inMac outMac correction : Ns16) :
    numbers (forwardFrame s port bytes f inMac outMac correction) = numbers s := by
  simp [forwardFrame]

@[simp] theorem execFrameForward_kept (port bytes : Nat) (frame : Frame) (inMac outMac : Ns16) (correction : Ns16) (s : State) :
    OutcomeKept s (execFrameForward port bytes frame inMac outMac correction s) := by
  simp [execFrameForward]

@[simp] theorem numbers_setServo (s : State) (x : ServoState) : numbers (setServo s x) = numbers s := by simp [setServo]

@[simp] theorem execPtpConfig_kept (e : Entry) (s : State) : OutcomeKept s (execPtpConfig e s) :=
  numbers_command fun _ => .checked (by simp) _

@[simp] theorem execServoConfig_kept (e : Entry) (s : State) : OutcomeKept s (execServoConfig e s) :=
  numbers_command fun _ => .checked (by rfl) _

@[simp] theorem execPtpStatus_kept (e : Entry) (s : State) : OutcomeKept s (execPtpStatus e s) :=
  numbers_command fun _ => .checked (by rfl) _

@[simp] theorem numbers_servoOffset (s : State) (o : Int) : numbers (servoOffset s o) = numbers s := by simp [servoOffset]

@[simp] theorem numbers_servoLock (s : State) (o : Int) : numbers (servoLock s o) = numbers s := by simp [servoLock]

@[simp] theorem numbers_startAcquiring (s : State) : numbers (startAcquiring s) = numbers s := by simp [startAcquiring]

@[simp] theorem numbers_takeOffset (s : State) (o : Int) : numbers (takeOffset s o) = numbers s := by simp [takeOffset]

@[simp] theorem numbers_syncDone (s : State) (rx origin : Ns16) : numbers (syncDone s rx origin) = numbers s := by
  simp [syncDone]

@[simp] theorem execSync_kept (port : Nat) (src : PtpFrom) (twoStep : Bool) (origin rx : Ns16) (correction : Ns16) (s : State) :
    OutcomeKept s (execSync port src twoStep origin rx correction s) := by
  simp [execSync]

@[simp] theorem execFollowUp_kept (port : Nat) (src : PtpFrom) (origin : Ns16) (correction : Ns16) (s : State) :
    OutcomeKept s (execFollowUp port src origin correction s) := by
  unfold execFollowUp
  repeat' split
  all_goals simp

@[simp] theorem execDelayReqSend_kept (txMac : Ns16) (s : State) : OutcomeKept s (execDelayReqSend txMac s) := by
  simp [execDelayReqSend]

@[simp] theorem execDelayResp_kept (port : Nat) (src : PtpFrom) (rx : Ns16) (correction : Ns16) (s : State) :
    OutcomeKept s (execDelayResp port src rx correction s) := by
  unfold execDelayResp
  repeat' split
  all_goals simp

@[simp] theorem numbers_holdover (s : State) : numbers (holdover s) = numbers s := by simp [holdover]

@[simp] theorem numbers_choose (s : State) : numbers (choose s) = numbers s := by
  unfold choose
  split <;> simp

@[simp] theorem execAnnounce_kept (port : Nat) (src : PtpFrom) (quality : Quality) (utcOffset : Int) (s : State) :
    OutcomeKept s (execAnnounce port src quality utcOffset s) := by
  unfold execAnnounce
  split <;> simp

@[simp] theorem execDelayReq_kept (port : Nat) (src : PtpFrom) (rx : Ns16) (correction : Ns16) (s : State) :
    OutcomeKept s (execDelayReq port src rx correction s) := by
  simp [execDelayReq]

@[simp] theorem execSyncSend_kept (s : State) : OutcomeKept s (execSyncSend s) := by simp [execSyncSend]

@[simp] theorem execAnnounceSend_kept (s : State) : OutcomeKept s (execAnnounceSend s) := by simp [execAnnounceSend]

@[simp] theorem execSyncTimeout_kept (s : State) : OutcomeKept s (execSyncTimeout s) := by simp [execSyncTimeout]

@[simp] theorem execAnnounceTimeout_kept (s : State) : OutcomeKept s (execAnnounceTimeout s) := by
  unfold execAnnounceTimeout
  repeat' split
  all_goals simp

end Sys2Proof.Machine
end

section
/-! SUPPORT. The pair's messages, roles and rejoin keep the numbers (O39). -/
set_option Elab.async false
namespace Sys2Proof.Machine

@[simp] theorem numbers_tellParts (s : State) (kind fuel : Nat) (ws : List Qword) :
    numbers (tellParts s kind fuel ws) = numbers s := by
  induction fuel generalizing s ws with
  | zero => rfl
  | succ fuel ih => simp [tellParts, ih]

@[simp] theorem numbers_tellBlock (s : State) : numbers (tellBlock s) = numbers s := by simp [tellBlock]

@[simp] theorem numbers_tellSettled (s : State) : numbers (tellSettled s) = numbers s := by
  unfold tellSettled
  split <;> simp

@[simp] theorem numbers_tellRejoin (s : State) : numbers (tellRejoin s) = numbers s := by simp [tellRejoin]

@[simp] theorem numbers_sendPtsync (s : State) : numbers (sendPtsync s) = numbers s := by simp [sendPtsync]

@[simp] theorem numbers_beginRejoin (s : State) (partnerVersion : Dword) :
    numbers (beginRejoin s partnerVersion) = numbers s := by
  simp [beginRejoin]

@[simp] theorem numbers_admitAs (s : State) (m : Dword × Nat × Bool × Nat × Int × Nat) :
    numbers (admitAs s m) = numbers s := by
  unfold admitAs
  dsimp only
  split <;> simp

@[simp] theorem numbers_enterRunning (s : State) : numbers (enterRunning s) = numbers s := by simp [enterRunning]

@[simp] theorem numbers_settlePages (s : State) : numbers (settlePages s) = numbers s := by simp [settlePages]

@[simp] theorem numbers_mapTaken (s : State) : numbers (mapTaken s) = numbers s := by simp [mapTaken]

@[simp] theorem numbers_endTimeStep (s : State) : numbers (endTimeStep s) = numbers s := by simp [endTimeStep]

@[simp] theorem numbers_advanceOnce (s : State) : numbers (advanceOnce s) = numbers s := by
  unfold advanceOnce
  repeat' split
  all_goals simp

@[simp] theorem numbers_advanceRejoin (s : State) : numbers (advanceRejoin s) = numbers s := by simp [advanceRejoin]

@[simp] theorem numbers_gotPart (s : State) (i : Nat) : numbers (gotPart s i) = numbers s := by simp [gotPart]

@[simp] theorem numbers_loseStep (s : State) : numbers (loseStep s) = numbers s := by simp [loseStep]

@[simp] theorem numbers_partnerLoss (s : State) : numbers (partnerLoss s) = numbers s := by simp [partnerLoss]

@[simp] theorem numbers_receive (s : State) (m : PMsg) (replaced page_ : Bool) {body : State → State}
    (h : ∀ u, numbers (body u) = numbers u) : numbers (receive s m replaced page_ body) = numbers s := by
  simp [receive, h]

@[simp] theorem numbers_boundGen (s : State) (number : Nat) (n : Int) : numbers (boundGen s number n) = numbers s := by
  simp [boundGen]

@[simp] theorem numbers_takeGen (s : State) (g : Gen) : numbers (takeGen s g) = numbers s := by simp [takeGen]

@[simp] theorem numbers_genPart (s : State) (m : PMsg) : numbers (genPart s m) = numbers s := by simp [genPart]

@[simp] theorem execGen_kept (msg : PMsg) (s : State) : OutcomeKept s (execGen msg s) := by simp [execGen]

@[simp] theorem numbers_takeCurves (s : State) (u : CurveUpd) : numbers (takeCurves s u) = numbers s := by
  unfold takeCurves
  split <;> simp

@[simp] theorem execCurves_kept (msg : PMsg) (s : State) : OutcomeKept s (execCurves msg s) := by simp [execCurves]

@[simp] theorem execDigest_kept (msg : PMsg) (s : State) : OutcomeKept s (execDigest msg s) := by simp [execDigest]

@[simp] theorem numbers_takeBlock (s : State) (ws : List Qword) : numbers (takeBlock s ws) = numbers s := by
  simp [takeBlock]

@[simp] theorem execBlock_kept (msg : PMsg) (s : State) : OutcomeKept s (execBlock msg s) := by simp [execBlock]

@[simp] theorem execLocks_kept (msg : PMsg) (s : State) : OutcomeKept s (execLocks msg s) := by simp [execLocks]

@[simp] theorem numbers_keepPageMsg (s : State) (x : Dword × Nat × Bool × Nat × Int × Nat) :
    numbers (keepPageMsg s x) = numbers s := by
  simp [keepPageMsg]

@[simp] theorem numbers_pageDecision (s : State) (x : Dword × Nat × Bool × Nat × Int × Nat) :
    numbers (pageDecision s x) = numbers s := by
  unfold pageDecision
  dsimp only
  split <;> simp

@[simp] theorem execPage_kept (msg : PMsg) (s : State) : OutcomeKept s (execPage msg s) := by simp [execPage]

@[simp] theorem numbers_endUnshadowed (s : State) (id : Dword) (lines : List Int) :
    numbers (endUnshadowed s id lines) = numbers s := by
  simp [endUnshadowed]

@[simp] theorem numbers_pageEnd (s : State) (m : PMsg) : numbers (pageEnd s m) = numbers s := by
  unfold pageEnd
  dsimp only
  split <;> simp

@[simp] theorem execPageend_kept (msg : PMsg) (s : State) : OutcomeKept s (execPageend msg s) := by simp [execPageend]

@[simp] theorem numbers_setOffsets (s : State) (m : PMsg) (since : List Int) :
    numbers (setOffsets s m since) = numbers s := by
  simp [setOffsets]

@[simp] theorem numbers_recount (s : State) (fwd : Bool) : numbers (recount s fwd) = numbers s := by simp [recount]

/-- A state whose motion is put back as it was in `s` has the numbers of `s` where it had them before. -/
theorem numbers_motion_back {s u : State} (h : numbers u = numbers s) : numbers { u with mot := s.mot } = numbers s := by
  simp only [numbers, Numbers.mk.injEq] at h ⊢
  obtain ⟨hencs, hcues, hpulses, hlanes, hgroups, hcams, -, -, hports, hlog⟩ := h
  exact ⟨hencs, hcues, hpulses, hlanes, hgroups, hcams, trivial, trivial, hports, hlog⟩

@[simp] theorem numbers_catchUp (s : State) (f : Ftb) (since : List Int) : numbers (catchUp s f since) = numbers s := by
  have hback (fs : List Bool) (u : State) (hu : numbers u = numbers s) :
      numbers { fs.foldl recount u with mot := s.mot } = numbers s :=
    numbers_motion_back ((numbers_foldl numbers_recount fs u).trans hu)
  have hnow (v : State) (hv : numbers v = numbers s) : numbers (advancePacing v (nowUnits s)) = numbers s :=
    (numbers_advancePacing v _).trans hv
  exact hnow _ (hback _ _ (by simp))

@[simp] theorem numbers_ticksDue (s : State) : numbers (ticksDue s) = numbers s := by simp [ticksDue]

@[simp] theorem numbers_takeReference (s : State) (m : PMsg) (since : List Int) :
    numbers (takeReference s m since) = numbers s := by
  simp [takeReference]

@[simp] theorem numbers_followReference (s t : State) (m : PMsg) : numbers (followReference s t m) = numbers t := by
  simp [followReference]

@[simp] theorem numbers_checkReference (s : State) (m : PMsg) (since : List Int) :
    numbers (checkReference s m since) = numbers s := by
  simp [checkReference]

@[simp] theorem execPosref_kept (msg : PMsg) (edgeNear : Bool) (countsSince : List Int) (s : State) :
    OutcomeKept s (execPosref msg edgeNear countsSince s) := by
  simp [execPosref]

@[simp] theorem execPosrefSend_kept (s : State) : OutcomeKept s (execPosrefSend s) := by simp [execPosrefSend]

@[simp] theorem execLocksSend_kept (s : State) : OutcomeKept s (execLocksSend s) := by simp [execLocksSend]

@[simp] theorem execPtsync_kept (token : Nat) (s : State) : OutcomeKept s (execPtsync token s) := by
  unfold execPtsync
  split <;> simp

@[simp] theorem execPtsyncSend_kept (s : State) : OutcomeKept s (execPtsyncSend s) := by simp [execPtsyncSend]

@[simp] theorem execTsync_kept (msg : PMsg) (t4 : Int) (s : State) : OutcomeKept s (execTsync msg t4 s) := by
  refine numbers_receive s msg false false fun t => ?_
  split <;> simp

@[simp] theorem execPrho_kept (tickLo rho : Nat) (s : State) : OutcomeKept s (execPrho tickLo rho s) := by simp [execPrho]

@[simp] theorem execPoos_kept (m q cause : Nat) (nLo : Dword) (s : State) : OutcomeKept s (execPoos m q cause nLo s) := by
  simp [execPoos]

@[simp] theorem numbers_unshadowRest (s : State) : numbers (unshadowRest s) = numbers s := by simp [unshadowRest]

@[simp] theorem execPartnerDown_kept (s : State) : OutcomeKept s (execPartnerDown s) := by simp [execPartnerDown]

@[simp] theorem execPartnerUp_kept (s : State) : OutcomeKept s (execPartnerUp s) := by simp [execPartnerUp]

@[simp] theorem execPartnerMark_kept (role : Nat) (epoch : Dword) (s : State) :
    OutcomeKept s (execPartnerMark role epoch s) := by
  unfold execPartnerMark
  split <;> simp

@[simp] theorem numbers_resumeVelocity (s : State) (k : Nat) : numbers (resumeVelocity s k) = numbers s := by
  simp [resumeVelocity]

@[simp] theorem numbers_resumeMotion (s : State) : numbers (resumeMotion s) = numbers s := by simp [resumeMotion]

@[simp] theorem numbers_decideWaiting (s : State) : numbers (decideWaiting s) = numbers s := by simp [decideWaiting]

@[simp] theorem numbers_takeOver (s : State) : numbers (takeOver s) = numbers s := by simp [takeOver]

@[simp] theorem execRoleSelRise_kept (s : State) : OutcomeKept s (execRoleSelRise s) := by
  unfold execRoleSelRise
  repeat' split
  all_goals simp

@[simp] theorem execRoleSelFall_kept (s : State) : OutcomeKept s (execRoleSelFall s) := by simp [execRoleSelFall]

@[simp] theorem numbers_lapse (s : State) : numbers (lapse s) = numbers s := by simp [lapse]

@[simp] theorem execSentinelLapse_kept (which : Sentinel) (s : State) : OutcomeKept s (execSentinelLapse which s) := by
  unfold execSentinelLapse
  split <;> simp

@[simp] theorem execPairConfig_kept (e : Entry) (s : State) : OutcomeKept s (execPairConfig e s) :=
  numbers_command fun _ => .checked (by simp) _

@[simp] theorem execRoleFound_kept (e : Entry) (s : State) : OutcomeKept s (execRoleFound e s) :=
  numbers_command fun _ => .checked (by simp) _

@[simp] theorem execPairRejoin_kept (e : Entry) (partnerVersion : Dword) (s : State) :
    OutcomeKept s (execPairRejoin e partnerVersion s) :=
  numbers_command fun _ => .checked (by simp) _

@[simp] theorem execRejoinAuto_kept (partnerVersion : Dword) (s : State) :
    OutcomeKept s (execRejoinAuto partnerVersion s) := by
  simp [execRejoinAuto]

@[simp] theorem execRefTimeout_kept (s : State) : OutcomeKept s (execRefTimeout s) := by simp [execRefTimeout]

@[simp] theorem execPairStatus_kept (e : Entry) (s : State) : OutcomeKept s (execPairStatus e s) :=
  numbers_command fun _ => .checked (by rfl) _

end Sys2Proof.Machine
end

section
/-! SUPPORT. Memory keeps the numbers (O39). -/
set_option Elab.async false
namespace Sys2Proof.Machine

@[simp] theorem numbers_setRank (s : State) (ch rank : Nat) (f : Rank → Rank) :
    numbers (setRank s ch rank f) = numbers s := by
  simp [setRank]

@[simp] theorem numbers_keepPlace (s : State) (addr k : Nat) (p : Place) : numbers (keepPlace s addr k p) = numbers s := by
  simp [keepPlace]

@[simp] theorem numbers_logCullet (s : State) (kind cnt : Nat) (place : Dword) (addr : Nat) :
    numbers (logCullet s kind cnt place addr) = numbers s := by
  simp [logCullet]

@[simp] theorem execCulletRead_kept (e : Entry) (s : State) : OutcomeKept s (execCulletRead e s) :=
  numbers_command fun _ => .checked (by rfl) _

@[simp] theorem numbers_applyMemCfg (s : State) (c : MemCfg) : numbers (applyMemCfg s c) = numbers s := by
  simp [applyMemCfg]

@[simp] theorem execMemConfig_kept (e : Entry) (found : Population) (s : State) : OutcomeKept s (execMemConfig e found s) :=
  numbers_command fun _ => .checked (.withRecord (fun _ => .checked (.withRecord (fun _ => .checked
    (.okWith (numbers_applyMemCfg s _) _) _) _ _) _) _ _) _

@[simp] theorem execMemRegions_kept (e : Entry) (s : State) : OutcomeKept s (execMemRegions e s) :=
  numbers_command fun _ => .checked (by simp) _

@[simp] theorem numbers_writeOut (s : State) (q : QueuedWrite) : numbers (writeOut s q) = numbers s := by simp [writeOut]

@[simp] theorem numbers_setWrites (s : State) (ws : List QueuedWrite) : numbers (setWrites s ws) = numbers s := by
  simp [setWrites]

@[simp] theorem numbers_enqueueWrite (s : State) (w : BurstWrite) (poison : Bool) :
    numbers (enqueueWrite s w poison) = numbers s := by
  unfold enqueueWrite
  dsimp only
  repeat' split
  all_goals simp

@[simp] theorem numbers_rewriteBurst (s : State) (p : Place) (addr : Nat) (data : BitVec 512) (poison : Bool) :
    numbers (rewriteBurst s p addr data poison) = numbers s := by
  unfold rewriteBurst
  split <;> simp

@[simp] theorem numbers_followDebug (s : State) (w : BurstWrite) : numbers (followDebug s w) = numbers s := by
  simp [followDebug]

@[simp] theorem numbers_writeArrives (s : State) (w : BurstWrite) : numbers (writeArrives s w) = numbers s := by
  simp [writeArrives]

@[simp] theorem execWriteDrain_kept (ch : Nat) (arrived : List BurstWrite) (s : State) :
    OutcomeKept s (execWriteDrain ch arrived s) := by
  unfold execWriteDrain
  split <;> simp

@[simp] theorem numbers_readArrives (s : State) (q : MemReq) : numbers (readArrives s q) = numbers s := by
  unfold readArrives
  split <;> simp

@[simp] theorem execRefreshDue_kept (ch rank : Nat) (arrived : List MemReq) (s0 : State) :
    OutcomeKept s0 (execRefreshDue ch rank arrived s0) := by
  unfold execRefreshDue
  dsimp only
  repeat' split
  all_goals simp

@[simp] theorem numbers_issueOwed (s : State) (ch : Nat) : numbers (issueOwed s ch) = numbers s := by simp [issueOwed]

@[simp] theorem execDramTempRead_kept (ch rank : Nat) (above85 : Bool) (s : State) :
    OutcomeKept s (execDramTempRead ch rank above85 s) := by
  simp [execDramTempRead]

@[simp] theorem numbers_rankError (s : State) (ch rank cause : Nat) : numbers (rankError s ch rank cause) = numbers s := by
  unfold rankError
  repeat' split
  all_goals simp

@[simp] theorem numbers_startMigration (s : State) (ch rank cause : Nat) :
    numbers (startMigration s ch rank cause) = numbers s := by
  unfold startMigration
  repeat' split
  all_goals simp

@[simp] theorem execMigrationStart_kept (ch rank : Nat) (s : State) : OutcomeKept s (execMigrationStart ch rank s) := by
  unfold execMigrationStart
  split <;> simp

@[simp] theorem execRankMigrated_kept (ch : Nat) (s : State) : OutcomeKept s (execRankMigrated ch s) := by
  unfold execRankMigrated
  split <;> simp

@[simp] theorem execMemMigrate_kept (e : Entry) (s : State) : OutcomeKept s (execMemMigrate e s) := by
  refine numbers_command fun _ => ?_
  dsimp only
  repeat' split
  all_goals simp

@[simp] theorem execCmdError_kept (ch rank : Nat) (recurs : Bool) (s : State) :
    OutcomeKept s (execCmdError ch rank recurs s) := by
  simp [execCmdError]

@[simp] theorem numbers_setBurnish (s : State) (f : Burnish → Burnish) : numbers (setBurnish s f) = numbers s := by
  simp [setBurnish]

@[simp] theorem numbers_chargeThree (s : State) (ch : Nat) : numbers (chargeThree s ch) = numbers s := by simp [chargeThree]

@[simp] theorem numbers_writeBack (s : State) (r : BurstRead) (p : Place) (poison : Bool) :
    numbers (writeBack s r p poison) = numbers s := by
  simp [writeBack]

@[simp] theorem numbers_burnishRewrite (s : State) (r : BurstRead) (c : CopyRead) :
    numbers (burnishRewrite s r c) = numbers s := by
  simp [burnishRewrite]

@[simp] theorem numbers_burnishRow (s : State) (p : Place) (addr : Nat) : numbers (burnishRow s p addr) = numbers s := by
  unfold burnishRow
  split <;> simp

@[simp] theorem numbers_goodCopy (s : State) (r : BurstRead) (c : CopyRead) (errors : Nat) (retried : Bool) :
    numbers (goodCopy s r c errors retried) = numbers s := by
  simp [goodCopy]

@[simp] theorem numbers_badCopy (s : State) (r : BurstRead) (c : CopyRead) : numbers (badCopy s r c) = numbers s := by
  simp [badCopy]

@[simp] theorem numbers_mirrorFix (s : State) (r : BurstRead) (c : CopyRead) : numbers (mirrorFix s r c) = numbers s := by
  simp [mirrorFix]

@[simp] theorem numbers_poisonMap (s : State) (k : Nat) (cl : List Nat) : numbers (poisonMap s k cl) = numbers s := by
  simp [poisonMap]

@[simp] theorem numbers_storedPoison (s : State) (u : BurstUse) : numbers (storedPoison s u) = numbers s := by
  cases u <;> simp [storedPoison]

@[simp] theorem numbers_consumedPoison (s : State) (u : BurstUse) : numbers (consumedPoison s u) = numbers s := by
  unfold consumedPoison
  split
  case h_2 => split <;> simp
  all_goals simp

@[simp] theorem numbers_deliver (s : State) (r : BurstRead) : numbers (deliver s r) = numbers s := by simp [deliver]

@[simp] theorem numbers_deliverPoison (s : State) (r : BurstRead) : numbers (deliverPoison s r) = numbers s := by
  simp [deliverPoison]

@[simp] theorem numbers_poisonBurst (s : State) (r : BurstRead) (cs : List CopyRead) :
    numbers (poisonBurst s r cs) = numbers s := by
  simp [poisonBurst]

@[simp] theorem numbers_readPoisoned (s : State) (r : BurstRead) : numbers (readPoisoned s r) = numbers s := by
  simp [readPoisoned]

@[simp] theorem numbers_burnishOther (s : State) (r : BurstRead) (code : Nat) (poisoned : Bool) :
    numbers (burnishOther s r code poisoned) = numbers s := by
  unfold burnishOther
  repeat' split
  all_goals simp

@[simp] theorem numbers_readFailing (s : State) (r : BurstRead) (code : Nat) (poisoned : Bool) :
    numbers (readFailing s r code poisoned) = numbers s := by
  unfold readFailing
  repeat' split
  all_goals simp

@[simp] theorem numbers_readBurst (s : State) (r : BurstRead) (code : Nat) : numbers (readBurst s r code) = numbers s := by
  unfold readBurst
  dsimp only
  repeat' split
  all_goals simp

@[simp] theorem numbers_keepPlaces (s : State) (r : BurstRead) : numbers (keepPlaces s r) = numbers s := by
  unfold keepPlaces
  split <;> simp

@[simp] theorem numbers_retireBurst (d place : Dword) (s : State) (r : BurstRead) :
    numbers (retireBurst d place s r) = numbers s := by
  unfold retireBurst
  split <;> simp

@[simp] theorem execMemRetire_kept (turn : RetireTurn) (s : State) : OutcomeKept s (execMemRetire turn s) := by
  refine numbers_command fun _ => ?_
  dsimp only
  split
  · refine .checked ?_ _
    split
    · exact .reject s _
    · rw [replyKept_okWith, numbers_logCullet]
      exact numbers_foldl (numbers_retireBurst _ _) _ s
  · exact .reject s _

@[simp] theorem numbers_serveRead (s : State) (q : MemReq) : numbers (serveRead s q) = numbers s := by simp [serveRead]

@[simp] theorem numbers_burnishTo (s : State) (addr : Nat) : numbers (burnishTo s addr) = numbers s := by simp [burnishTo]

@[simp] theorem numbers_copyToSpare (s : State) (r : BurstRead) : numbers (copyToSpare s r) = numbers s := by
  unfold copyToSpare
  dsimp only
  split <;> simp

@[simp] theorem numbers_copiedTo (s : State) (p : Place) (addr : Nat) : numbers (copiedTo s p addr) = numbers s := by
  simp [copiedTo]

@[simp] theorem numbers_readProgress (s : State) (r : BurstRead) : numbers (readProgress s r) = numbers s := by
  unfold readProgress
  split <;> simp

@[simp] theorem numbers_requestArrives (s : State) (q : MemReq) : numbers (requestArrives s q) = numbers s := by
  simp [requestArrives]

@[simp] theorem execMemRead_kept (turn : ReadTurn) (s : State) : OutcomeKept s (execMemRead turn s) := by
  unfold execMemRead
  dsimp only
  repeat' split
  all_goals simp

@[simp] theorem execBurnishRun_kept (e : Entry) (s : State) : OutcomeKept s (execBurnishRun e s) :=
  numbers_command fun _ => .checked (by rfl) _

@[simp] theorem execBurnishStop_kept (e : Entry) (s : State) : OutcomeKept s (execBurnishStop e s) :=
  numbers_command fun _ => .checked (by rfl) _

@[simp] theorem execBurnishDone_kept (s : State) : OutcomeKept s (execBurnishDone s) := by
  unfold execBurnishDone
  split <;> simp

@[simp] theorem numbers_finishAll (s : State) (st : Nat) : numbers (finishAll s st) = numbers s := by simp [finishAll]

@[simp] theorem execFwReload_kept (addr : Nat) (s : State) : OutcomeKept s (execFwReload addr s) := by simp [execFwReload]

@[simp] theorem execMemStatus_kept (e : Entry) (s : State) : OutcomeKept s (execMemStatus e s) :=
  numbers_command fun _ => .checked (by rfl) _

end Sys2Proof.Machine
end

section
/-! SUPPORT. Motion, loops and their mirror keep the numbers (O39). -/
set_option Elab.async false
namespace Sys2Proof.Machine

@[simp] theorem execAxisConfig_kept (e : Entry) (s : State) : OutcomeKept s (execAxisConfig e s) :=
  numbers_command fun _ => .checked (by simp) _

@[simp] theorem execAxisLimits_kept (e : Entry) (s : State) : OutcomeKept s (execAxisLimits e s) :=
  numbers_command fun _ => .checked (by simp) _

@[simp] theorem execAxisStatus_kept (e : Entry) (s : State) : OutcomeKept s (execAxisStatus e s) :=
  numbers_command fun _ => .checked (by simp) _

@[simp] theorem execAxisMove_kept (e : Entry) (s : State) : OutcomeKept s (execAxisMove e s) :=
  numbers_command fun _ => .checked (by simp) _

@[simp] theorem numbers_askStop (s : State) (i dec : Nat) : numbers (askStop s i dec) = numbers s := by simp [askStop]

@[simp] theorem numbers_unstall (s : State) (i : Nat) : numbers (unstall s i) = numbers s := by simp [unstall]

@[simp] theorem execAxisStop_kept (e : Entry) (s : State) : OutcomeKept s (execAxisStop e s) :=
  numbers_command fun _ => .checked (by simp) _

@[simp] theorem numbers_takeMove (s : State) (i : Nat) : numbers (takeMove s i) = numbers s := by
  unfold takeMove
  dsimp only
  repeat' split
  all_goals simp

@[simp] theorem numbers_loopOff (s : State) (k : Nat) : numbers (loopOff s k) = numbers s := by simp [loopOff]

@[simp] theorem numbers_takeStop (s : State) (i dec : Nat) : numbers (takeStop s i dec) = numbers s := by
  unfold takeStop
  dsimp only
  split <;> simp

@[simp] theorem execTableLoad_kept (e : Entry) (s : State) : OutcomeKept s (execTableLoad e s) := by
  refine numbers_command fun _ => .checked ?_ _
  split <;> simp

@[simp] theorem execTableRun_kept (e : Entry) (s : State) : OutcomeKept s (execTableRun e s) :=
  numbers_command fun _ => .checked (by simp) _

@[simp] theorem execAxisScale_kept (e : Entry) (s : State) : OutcomeKept s (execAxisScale e s) :=
  numbers_command fun _ => .checked (by simp) _

@[simp] theorem execAxisHome_kept (e : Entry) (s : State) : OutcomeKept s (execAxisHome e s) :=
  numbers_command fun _ => .checked (by simp) _

@[simp] theorem numbers_homingLimit (s : State) (i input : Nat) : numbers (homingLimit s i input) = numbers s := by
  unfold homingLimit
  dsimp only
  split <;> simp

@[simp] theorem numbers_homeLimit (s : State) (i : Nat) (dirSide : Bool) (input : Nat) :
    numbers (homeLimit s i dirSide input) = numbers s := by
  unfold homeLimit
  split <;> simp

@[simp] theorem numbers_moveDone (s : State) (i : Nat) (was : AxisState) : numbers (moveDone s i was) = numbers s := by
  simp [moveDone]

@[simp] theorem numbers_finishHoming (s : State) (i : Nat) : numbers (finishHoming s i) = numbers s := by
  unfold finishHoming
  dsimp only
  split
  · rfl
  · refine numbers_foldl (fun t k => ?_) _ s
    split <;> simp

@[simp] theorem numbers_endAborted (s : State) (i : Nat) : numbers (endAborted s i) = numbers s := by simp [endAborted]

@[simp] theorem numbers_homingRest (s : State) (i : Nat) (h : Homing) : numbers (homingRest s i h) = numbers s := by
  simp [homingRest]

@[simp] theorem numbers_settleHoming (s : State) (i : Nat) : numbers (settleHoming s i) = numbers s := by
  unfold settleHoming
  split <;> simp

@[simp] theorem numbers_reportVlimit (s : State) (i lim : Nat) : numbers (reportVlimit s i lim) = numbers s := by
  simp [reportVlimit]

@[simp] theorem numbers_crossLimit (s : State) (i : Nat) : numbers (crossLimit s i) = numbers s := by
  unfold crossLimit
  dsimp only
  split <;> simp

@[simp] theorem numbers_stepAxis (s0 : State) (i : Nat) : numbers (stepAxis s0 i) = numbers s0 := by
  unfold stepAxis
  dsimp only
  repeat' split
  all_goals simp

@[simp] theorem numbers_stepFollower (s : State) (i : Nat) : numbers (stepFollower s i) = numbers s := by
  simp [stepFollower]

@[simp] theorem numbers_emitSteps (s : State) (i : Nat) : numbers (emitSteps s i) = numbers s := by
  unfold emitSteps
  exact iteInduction (motive := fun u => numbers u = numbers s) (fun _ => numbers_setAxis s i _)
    fun _ => (numbers_emit _ _).trans (numbers_setAxis s i _)

@[simp] theorem numbers_setCurrent (s : State) (i code : Nat) : numbers (setCurrent s i code) = numbers s := by
  unfold setCurrent
  dsimp only
  split
  · rfl
  · exact numbers_setAxis s i _

@[simp] theorem numbers_stepCurrent (s : State) (i : Nat) : numbers (stepCurrent s i) = numbers s := by simp [stepCurrent]

@[simp] theorem numbers_driveLoop (s : State) (k : Nat) : numbers (driveLoop s k) = numbers s := by simp [driveLoop]

@[simp] theorem execPlanningStep_kept (s : State) : OutcomeKept s (execPlanningStep s) := by
  unfold execPlanningStep
  refine .ite rfl ?_
  rw [outcomeKept_next, numbers_foldl fun t i => by simp, numbers_foldl numbers_settleHoming, numbers_foldl numbers_emitSteps,
    numbers_foldl numbers_stepFollower, numbers_foldl numbers_stepAxis, numbers_foldl numbers_driveLoop]
  simp

@[simp] theorem numbers_limitStop (s : State) (i input : Nat) : numbers (limitStop s i input) = numbers s := by
  simp [limitStop]

@[simp] theorem numbers_sampleAxis (levels : BitVec 24) (s : State) (i : Nat) :
    numbers (sampleAxis levels s i) = numbers s := by
  unfold sampleAxis
  dsimp only
  split
  · simp
  · split <;> simp

@[simp] theorem execSwitchSample_kept (levels : BitVec 24) (s : State) : OutcomeKept s (execSwitchSample levels s) := by
  unfold execSwitchSample
  rw [outcomeKept_next, numbers_foldl (numbers_sampleAxis levels)]
  simp

@[simp] theorem numbers_stallAxis (s : State) (i : Nat) : numbers (stallAxis s i) = numbers s := by simp [stallAxis]

@[simp] theorem execStall_kept (ax : Nat) (s : State) : OutcomeKept s (execStall ax s) := by simp [execStall]

@[simp] theorem execHoldCurrent_kept (ax : Nat) (s : State) : OutcomeKept s (execHoldCurrent ax s) := by
  simp [execHoldCurrent]

@[simp] theorem numbers_homeIndex (s : State) (ch : Nat) : numbers (homeIndex s ch) = numbers s := by
  unfold homeIndex
  split
  · rfl
  · refine numbers_foldl (fun t i => ?_) _ s
    dsimp only
    split <;> simp

@[simp] theorem execIndexRise_kept (ch : Nat) (edge : Edge) (s : State) : OutcomeKept s (execIndexRise ch edge s) := by
  unfold execIndexRise
  dsimp only
  repeat' split
  all_goals simp

@[simp] theorem execCspiConfig_kept (e : Entry) (s : State) : OutcomeKept s (execCspiConfig e s) :=
  numbers_command fun _ => .checked (by simp) _

@[simp] theorem execAinConversion_kept (i : Nat) (code : BitVec 16) (s : State) :
    OutcomeKept s (execAinConversion i code s) := by
  simp [execAinConversion]

@[simp] theorem numbers_writeLoop (s : State) (k : Nat) : numbers (writeLoop s k) = numbers s := by simp [writeLoop]

@[simp] theorem execCspiTransfer_kept (dev : Nat) (frame : Dword) (s : State) :
    OutcomeKept s (execCspiTransfer dev frame s) := by
  unfold execCspiTransfer
  dsimp only
  repeat' split
  all_goals simp

@[simp] theorem execLoopConfig_kept (e : Entry) (s : State) : OutcomeKept s (execLoopConfig e s) :=
  numbers_command fun _ => .checked (by simp) _

@[simp] theorem numbers_driveAxis (s : State) (l : Loop) : numbers (driveAxis s l) = numbers s := by simp [driveAxis]

@[simp] theorem numbers_releaseAxis (s : State) (l : Loop) : numbers (releaseAxis s l) = numbers s := by simp [releaseAxis]

@[simp] theorem numbers_enterMode (s : State) (k : Nat) (m : LoopMode) (manOut : Int) :
    numbers (enterMode s k m manOut) = numbers s := by
  simp [enterMode]

@[simp] theorem execLoopMode_kept (e : Entry) (s : State) : OutcomeKept s (execLoopMode e s) :=
  numbers_command fun _ => .checked (by simp) _

@[simp] theorem execLoopTune_kept (e : Entry) (s : State) : OutcomeKept s (execLoopTune e s) :=
  numbers_command fun _ => .checked (by simp) _

@[simp] theorem execLoopSetpoint_kept (e : Entry) (s : State) : OutcomeKept s (execLoopSetpoint e s) :=
  numbers_command fun _ => .checked (by simp) _

@[simp] theorem execLoopStatus_kept (e : Entry) (s : State) : OutcomeKept s (execLoopStatus e s) :=
  numbers_command fun _ => .checked (by rfl) _

@[simp] theorem numbers_applyTune (s : State) (k : Nat) : numbers (applyTune s k) = numbers s := by
  unfold applyTune
  split <;> simp

@[simp] theorem numbers_faultLoop (s : State) (k : Nat) : numbers (faultLoop s k) = numbers s := by simp [faultLoop]

@[simp] theorem numbers_overrun (s : State) (k : Nat) : numbers (overrun s k) = numbers s := by
  unfold overrun
  dsimp only
  split <;> simp

@[simp] theorem numbers_settleWrite (s : State) (k : Nat) (late : Bool) : numbers (settleWrite s k late) = numbers s := by
  simp [settleWrite]

@[simp] theorem numbers_sampleLoop (s : State) (k : Nat) : numbers (sampleLoop s k) = numbers s := by
  unfold sampleLoop
  dsimp only
  split <;> simp

@[simp] theorem execLoopSample_kept (late : List Nat) (s : State) : OutcomeKept s (execLoopSample late s) := by
  simp [execLoopSample]

@[simp] theorem execMotionSend_kept (s : State) : OutcomeKept s (execMotionSend s) := by simp [execMotionSend]

@[simp] theorem numbers_mirrorPart (parts : List AxisPart) (s : State) (i : Nat) :
    numbers (mirrorPart parts s i) = numbers s := by
  unfold mirrorPart
  split <;> simp

@[simp] theorem numbers_mirrorLoops (s : State) (ws : List Qword) : numbers (mirrorLoops s ws) = numbers s := by
  fun_induction mirrorLoops s ws <;> simp_all

@[simp] theorem numbers_mirrorMotion (s : State) (ws : List Qword) : numbers (mirrorMotion s ws) = numbers s := by
  unfold mirrorMotion
  split <;> simp

@[simp] theorem execMotion_kept (msg : PMsg) (s : State) : OutcomeKept s (execMotion msg s) := by simp [execMotion]

end Sys2Proof.Machine
end

section
/-! SUPPORT. Debug, quench, observation, power and security keep the numbers (O39). -/
set_option Elab.async false
namespace Sys2Proof.Machine

@[simp] theorem execJtagInstruction_kept (code : BitVec 8) (s : State) : OutcomeKept s (execJtagInstruction code s) := by
  simp [execJtagInstruction]

@[simp] theorem numbers_shiftDr (s : State) : numbers (shiftDr s) = numbers s := by
  unfold shiftDr
  split <;> simp

@[simp] theorem numbers_dbgResult (s : State) (r : Nat) : numbers (dbgResult s r) = numbers s := by simp [dbgResult]

@[simp] theorem numbers_dbgDenied (s : State) : numbers (dbgDenied s) = numbers s := by simp [dbgDenied]

@[simp] theorem numbers_dramDword (s : State) (addr : Nat) : numbers (dramDword s addr) = numbers s := by simp [dramDword]

@[simp] theorem numbers_writeDram (s : State) (addr : Nat) (d : Dword) : numbers (writeDram s addr d) = numbers s := by
  simp [writeDram]

@[simp] theorem numbers_barDword (s : State) (off : Nat) : numbers (barDword s off) = numbers s := by simp [barDword]

@[simp] theorem numbers_dbgTurn (s : State) {access : State → State} (h : ∀ u, numbers (access u) = numbers u) :
    numbers (dbgTurn s access) = numbers s := by
  simp [dbgTurn, h]

@[simp] theorem numbers_dbgRead (m : DbgMode) (space a : Nat) (s : State) : numbers (dbgRead m space a s) = numbers s := by
  unfold dbgRead
  repeat' split
  all_goals simp

@[simp] theorem execDbgAccessRead_kept (reg : BitVec 96) (s : State) : OutcomeKept s (execDbgAccessRead reg s) :=
  .ite rfl ((numbers_dbgTurn _ (numbers_dbgRead _ _ _)).trans (numbers_shiftDr s))

@[simp] theorem numbers_dbgWrote (s : State) : numbers (dbgWrote s) = numbers s := by simp [dbgWrote]

@[simp] theorem numbers_armWith (s : State) (e : Entry) (arm : Bool) : numbers (armWith s e arm) = numbers s := by
  simp [armWith]

@[simp] theorem execQuenchArm_kept (e : Entry) (s : State) : OutcomeKept s (execQuenchArm e s) :=
  .ite rfl (numbers_command fun _ => .checked (.okWith (numbers_armWith s e true) _) _)

@[simp] theorem execQuenchDisarm_kept (e : Entry) (s : State) : OutcomeKept s (execQuenchDisarm e s) :=
  .ite (numbers_command fun _ => .ite (.okWith (numbers_armWith s e false) _) (.reject s _)) rfl

@[simp] theorem execQuenchFire_kept (e : Entry) (s : State) : OutcomeKept s (execQuenchFire e s) :=
  numbers_command fun _ => .checked (by simp) _

@[simp] theorem execQuenchPin_kept (s : State) : OutcomeKept s (execQuenchPin s) := by simp [execQuenchPin]

@[simp] theorem execQuenchRead_kept (e : Entry) (s : State) : OutcomeKept s (execQuenchRead e s) :=
  numbers_command fun _ => .checked (by simp) _

@[simp] theorem execEventMask_kept (e : Entry) (s : State) : OutcomeKept s (execEventMask e s) :=
  numbers_command fun _ => .checked (by simp) _

@[simp] theorem execCounterRead_kept (e : Entry) (s : State) : OutcomeKept s (execCounterRead e s) :=
  numbers_command fun _ => .checked (by rfl) _

@[simp] theorem numbers_clearCounters (s : State) (first n : Nat) : numbers (clearCounters s first n) = numbers s := by
  simp [clearCounters]

@[simp] theorem execCounterClear_kept (e : Entry) (s : State) : OutcomeKept s (execCounterClear e s) :=
  numbers_command fun _ => .checked (by rfl) _

@[simp] theorem execTelemetryRead_kept (e : Entry) (rails : List Dword) (s : State) :
    OutcomeKept s (execTelemetryRead e rails s) :=
  numbers_command fun _ => .checked (by simp) _

@[simp] theorem execRateWindow_kept (s : State) : OutcomeKept s (execRateWindow s) := by simp [execRateWindow]

@[simp] theorem numbers_setPower (s : State) (p : PowerState) : numbers (setPower s p) = numbers s := by simp [setPower]

@[simp] theorem numbers_abandonAnneal (s : State) : numbers (abandonAnneal s) = numbers s := by simp [abandonAnneal]

@[simp] theorem numbers_stopAxes (s : State) : numbers (stopAxes s) = numbers s := by simp [stopAxes]

@[simp] theorem numbers_enterSave (s : State) (cause : Nat) : numbers (enterSave s cause) = numbers s := by simp [enterSave]

@[simp] theorem numbers_idleGroups (s : State) (partner : Bool) : numbers (idleGroups s partner) = numbers s := by
  simp [idleGroups]

@[simp] theorem numbers_enterSleep (s : State) : numbers (enterSleep s) = numbers s := by simp [enterSleep]

@[simp] theorem numbers_leaveSleep (s : State) : numbers (leaveSleep s) = numbers s := by simp [leaveSleep]

@[simp] theorem powerMove_kept (r : InFlight) (s : State) (dest : PowerState) : ReplyKept s (powerMove r s dest) := by
  unfold powerMove
  split <;> simp

@[simp] theorem execPowerState_kept (e : Entry) (s : State) : OutcomeKept s (execPowerState e s) := by
  refine numbers_command fun r => ?_
  split
  · exact .ite (.okWith rfl _) (powerMove_kept r s _)
  · exact .reject s _

@[simp] theorem numbers_voutWord (s : State) (mode : BitVec 8) (mv : Nat) : numbers (voutWord s mode mv).1 = numbers s := by
  unfold voutWord
  split <;> simp

@[simp] theorem execVcoreSet_kept (turn : VcoreTurn) (s : State) : OutcomeKept s (execVcoreSet turn s) := by
  refine numbers_command fun _ => .checked ?_ _
  split <;> simp

@[simp] theorem numbers_vcoreEnds (s : State) : numbers (vcoreEnds s) = numbers s := by simp [vcoreEnds]

@[simp] theorem execVoutSettled_kept (readback : Option Nat) (s : State) : OutcomeKept s (execVoutSettled readback s) := by
  unfold execVoutSettled
  repeat' split
  all_goals simp

@[simp] theorem execSupplySag_kept (s : State) : OutcomeKept s (execSupplySag s) := by
  unfold execSupplySag
  split <;> simp

@[simp] theorem numbers_setSlot (s : State) (one : Bool) (ds : List Dword) : numbers (setSlot s one ds) = numbers s := by
  simp [setSlot]

@[simp] theorem numbers_commitImage (s : State) : numbers (commitImage s) = numbers s := by
  unfold commitImage
  split
  simp

@[simp] theorem execSaveDone_kept (written : Bool) (s : State) : OutcomeKept s (execSaveDone written s) := by
  simp [execSaveDone]

@[simp] theorem execKeepApplyRecord_kept (e : Entry) (sfdp : Dword) (s : State) :
    OutcomeKept s (execKeepApplyRecord e sfdp s) := by
  have hread : numbers (emit s sfdpRead) = numbers s := numbers_emit s _
  refine .ite (numbers_command fun _ => ?_) rfl
  refine .checked (.checked (.withRecord (fun d => .ite (.okWith ?_ _) ?_) _ _ hread) _ hread) _
  · simp
  · exact (ReplyKept.reject _ _).after hread

@[simp] theorem execKeepReadImage_kept (e : Entry) (s : State) : OutcomeKept s (execKeepReadImage e s) := by
  refine .ite (numbers_command fun _ => .checked ?_ _) rfl
  split
  · exact .reject s _
  · exact .okWith ((numbers_hostPutDws _ _ _).trans (numbers_emit s _)) _

@[simp] theorem execKeepClearSlots_kept (e : Entry) (sfdp : Dword) (s : State) :
    OutcomeKept s (execKeepClearSlots e sfdp s) :=
  .ite (numbers_command fun _ => .checked (.checked (.okWith (by simp) _) _ (numbers_emit s sfdpRead)) _) rfl

@[simp] theorem execAnnealStart_kept (s : State) : OutcomeKept s (execAnnealStart s) := by
  unfold execAnnealStart
  repeat' split
  all_goals simp

@[simp] theorem execAnnealDone_kept (pass : Bool) (s : State) : OutcomeKept s (execAnnealDone pass s) := by
  simp [execAnnealDone]

@[simp] theorem annealGrant_kept (s : State) (run : Bool) : ReplyKept s (annealGrant s run) := by simp [annealGrant]

@[simp] theorem execAnnealIfDue_kept (e : Entry) (s : State) : OutcomeKept s (execAnnealIfDue e s) :=
  .ite (numbers_command fun _ => .ite (.reject s _) (annealGrant_kept s _)) rfl

@[simp] theorem execAnnealForce_kept (e : Entry) (s : State) : OutcomeKept s (execAnnealForce e s) :=
  .ite (numbers_command fun _ => .ite (.reject s _) (annealGrant_kept s true)) rfl

@[simp] theorem execAnnealInhibit_kept (e : Entry) (s : State) : OutcomeKept s (execAnnealInhibit e s) :=
  .ite (numbers_command fun _ => .ite (.reject s _) (.okWith (by simp) _)) rfl

@[simp] theorem execAinRecalibrate_kept (i : Nat) (s : State) : OutcomeKept s (execAinRecalibrate i s) := by
  simp [execAinRecalibrate]

@[simp] theorem execCalibRecompute_kept (s : State) : OutcomeKept s (execCalibRecompute s) := by simp [execCalibRecompute]

@[simp] theorem numbers_reportTj (s : State) : numbers (reportTj s) = numbers s := by
  unfold reportTj
  split <;> simp

@[simp] theorem execTemperatureSample_kept (temps : List Int) (s : State) :
    OutcomeKept s (execTemperatureSample temps s) := by
  unfold execTemperatureSample
  split <;> simp

@[simp] theorem execPowerStatus_kept (e : Entry) (s : State) : OutcomeKept s (execPowerStatus e s) :=
  numbers_command fun _ => .ite (.reject s _) (.okWith rfl _)

@[simp] theorem numbers_blow (s : State) (f : Fuse) : numbers (blow s f) = numbers s := by simp [blow]

@[simp] theorem programFuses_kept (s : State) (action : Nat) (bits : List Fuse) (stop : Option Nat) :
    ReplyKept s (programFuses s action bits stop) := by
  simp [programFuses]

@[simp] theorem execSeal_kept (e : Entry) (stopAfter : Option Nat) (s : State) : OutcomeKept s (execSeal e stopAfter s) :=
  .ite (numbers_command fun _ => .checked (.ite (.reject s _) (.checked
    ((programFuses_kept _ _ _ _).after (numbers_setDebug s _ _)) _)) _) rfl

@[simp] theorem execRetire_kept (e : Entry) (stopAfter : Option Nat) (s : State) :
    OutcomeKept s (execRetire e stopAfter s) :=
  .ite (numbers_command fun _ => .checked ((programFuses_kept _ _ _ _).after (numbers_setDebug s _ _)) _) rfl

@[simp] theorem execRollbackAdvance_kept (e : Entry) (stopAfter : Option Nat) (s : State) :
    OutcomeKept s (execRollbackAdvance e stopAfter s) :=
  .ite (numbers_command fun _ => .checked (programFuses_kept s _ _ _) _) rfl

@[simp] theorem execDebugChallenge_kept (e : Entry) (s : State) : OutcomeKept s (execDebugChallenge e s) :=
  numbers_command fun _ => .checked (by rfl) _

@[simp] theorem execChallengeLapse_kept (s : State) : OutcomeKept s (execChallengeLapse s) := by simp [execChallengeLapse]

@[simp] theorem unlockFail_kept (s : State) (lvl st : Nat) : ReplyKept s (unlockFail s lvl st) := by simp [unlockFail]

@[simp] theorem unlockChecked_kept (s : State) (e : Entry) (n lvl : Nat) : ReplyKept s (unlockChecked s e n lvl) := by
  unfold unlockChecked
  split <;> simp

@[simp] theorem unlockRaise_kept (r : InFlight) (s : State) (e : Entry) (lvl : Nat) :
    ReplyKept s (unlockRaise r s e lvl) := by
  unfold unlockRaise
  repeat' split
  all_goals simp

@[simp] theorem execDebugUnlock_kept (e : Entry) (s : State) : OutcomeKept s (execDebugUnlock e s) :=
  numbers_command fun _ => .checked (by simp) _

@[simp] theorem execSecStatus_kept (e : Entry) (s : State) : OutcomeKept s (execSecStatus e s) := by
  refine numbers_command fun _ => ?_
  dsimp only
  repeat' split
  all_goals simp

@[simp] theorem execQuenchLatch_kept (s : State) : OutcomeKept s (execQuenchLatch s) := by simp [execQuenchLatch]

end Sys2Proof.Machine
end

section
/-! SUPPORT. What a reset, a debug access and EVENT_READ leave, and every step keeps the numbers (O39). -/
set_option Elab.async false
namespace Sys2Proof.Machine

/-- The numbers the spec gives (R148, R167, R170, R177, R320, R346, R361, R460). -/
def specNumbers : Numbers := ⟨12, 4, 4, 172, 45, 4, 8, 32, 2, logSize⟩

theorem sized_iff (s : State) : s.sized ↔ numbers s = specNumbers := by
  simp [numbers, specNumbers, logSize]

theorem sized_of_numbers {s t : State} (h : numbers t = numbers s) (hs : s.sized) : t.sized :=
  (sized_iff t).mpr (h.trans ((sized_iff s).mp hs))

theorem sized_chipReset (s : State) : (chipReset s).sized := by
  obtain ⟨-, -, -, -, hsized⟩ := resetKeepsInvariants
  exact hsized

theorem sized_holdReset (s : State) : (holdReset s).sized := sized_chipReset s

theorem sized_writeChipReset {s : State} (hs : s.sized) (v : Dword) : (writeChipReset s v).sized :=
  iteInduction (motive := State.sized) (fun _ => sized_chipReset s) fun _ => hs

theorem sized_bar0Write {s : State} (hs : s.sized) (off : Nat) (v : Dword) : (bar0Write s off v).sized := by
  unfold bar0Write
  split
  · exact sized_of_numbers (numbers_writeBootCtrl s v) hs
  · split
    · exact sized_writeChipReset hs v
    · refine sized_of_numbers ?_ hs
      simp

theorem sized_dbgWrite {s : State} (hs : s.sized) (m : DbgMode) (space a : Nat) (d : Dword) :
    (dbgWrite m space a d s).sized := by
  unfold dbgWrite
  split
  · exact sized_of_numbers (numbers_dbgDenied s) hs
  · split
    · exact sized_bar0Write (sized_of_numbers (numbers_dbgWrote s) hs) a d
    all_goals
      refine sized_of_numbers ?_ hs
      simp

/-- A debug access meets the state with the time of its result noted, or is refused as it comes too early (R441). -/
theorem sized_dbgTurn {s : State} (hs : s.sized) {access : State → State} (h : ∀ u : State, u.sized → (access u).sized) :
    (dbgTurn s access).sized :=
  iteInduction (motive := State.sized) (fun _ => sized_of_numbers (numbers_dbgResult s 2) hs)
    fun _ => h _ (sized_of_numbers (numbers_drawFree s) hs)

/-- A state with entries taken off the front of its log, and the count of those read put in. -/
theorem sized_drop_log {s : State} (hs : s.sized) (n k : Nat) :
    State.sized { s with obs := { s.obs with log := s.obs.log.drop n, nRead := k } } := by
  obtain ⟨hencs, hcues, hpulses, hlanes, hgroups, hcams, haxes, hloops, hports, hlog⟩ := hs
  refine ⟨hencs, hcues, hpulses, hlanes, hgroups, hcams, haxes, hloops, hports, ?_⟩
  rw [List.length_drop]
  omega

/-- The state a reply leaves has the spec's numbers. -/
def ReplySized : Reply → Prop
  | .done u _ _ => u.sized
  | .waits => True
  | .runs u _ => u.sized

theorem sized_command {ops : List Nat} {e : Entry} {body : InFlight → State → Reply} {s : State} (hs : s.sized)
    (h : ∀ r, ReplySized (body r s)) : (command ops e body s).sized := by
  unfold command
  split
  · split
    · exact hs
    · next r _ =>
      split
      · exact sized_of_numbers (numbers_finish s r _ _) hs
      · have hbody := h r
        revert hbody
        cases body r s with
        | done u st res => exact sized_of_numbers (numbers_finish u r st res)
        | waits => exact fun _ => sized_of_numbers (numbers_markWaiting s r) hs
        | runs u note => exact sized_of_numbers (numbers_commitRunning u r note)
  · exact hs

theorem ReplySized.checked {s : State} (hs : s.sized) {body : State → Reply} (h : ReplySized (body s))
    (cs : List (Bool × Nat)) : ReplySized (checked s cs body) := by
  unfold Machine.checked
  split
  · exact hs
  · exact h

/-- The next state of an outcome, where it has one, has the spec's numbers. -/
def OutcomeSized : Host.Outcome State Fault Refusal → Prop
  | .next t => t.sized
  | .fault _ => True
  | .refused _ => True

theorem OutcomeKept.sized {s : State} {x : Host.Outcome State Fault Refusal} (h : OutcomeKept s x) (hs : s.sized) :
    OutcomeSized x := by
  cases x with
  | next t => exact sized_of_numbers h hs
  | fault f => trivial
  | refused r => trivial

theorem execResetN_sized (s : State) : OutcomeSized (execResetN s) :=
  iteInduction (motive := State.sized) (fun _ => sized_holdReset s) fun _ => sized_chipReset s

theorem execEventRead_sized {s : State} (hs : s.sized) (e : Entry) : OutcomeSized (execEventRead e s) := by
  refine sized_command hs fun r => .checked hs ?_ _
  exact sized_drop_log (sized_of_numbers (numbers_hostPutDws s _ _) hs) _ _

theorem execDbgAccessWrite_sized {s : State} (hs : s.sized) (reg : BitVec 96) : OutcomeSized (execDbgAccessWrite reg s) := by
  have hturn := sized_dbgTurn (sized_of_numbers (numbers_shiftDr s) hs) fun _ hu =>
    sized_dbgWrite hu (dbgMode s) (fld reg 92 2) (dbgAddr reg) (BitVec.ofNat 32 (fld reg 0 32))
  unfold execDbgAccessWrite
  dsimp only
  split
  · exact hs
  · exact hturn

/-- The instructions that may leave other numbers than the state had: a reset puts the spec's numbers in whatever
they were (DBG_ACCESS_WRITE of CHIP_RESET is one), and EVENT_READ shortens the log. -/
def renumbers : Instr → Bool
  | .powerOnReset | .resetN | .powerLoss | .chipReset _ | .dbgAccessWrite _ | .eventRead _ => true
  | _ => false

theorem exec_kept (c : Instr) (s : State) (hc : renumbers c = false) : OutcomeKept s (exec c s) := by
  cases c with
  | powerOnReset | resetN | powerLoss | chipReset | dbgAccessWrite | eventRead => cases hc
  | _ => simp [exec]

theorem exec_sized (c : Instr) {s : State} (hs : s.sized) : OutcomeSized (exec c s) := by
  cases c with
  | powerOnReset => exact sized_chipReset s
  | resetN => exact execResetN_sized s
  | powerLoss => exact sized_holdReset s
  | chipReset v => exact sized_writeChipReset hs v
  | eventRead e => exact execEventRead_sized hs e
  | dbgAccessWrite reg => exact execDbgAccessWrite_sized hs reg
  | _ => exact (exec_kept _ s rfl).sized hs

/-- Settles O39: every instruction but the resets, a debug write and EVENT_READ keeps each number; a reset puts in
the spec's own, and EVENT_READ takes entries off the log. -/
theorem numbersKept : Obligations.NumbersKept := by
  intro s t hs h
  unfold step at h
  split at h
  · cases h
    exact hs
  · next c rest _ =>
    have hnext := exec_sized c (s := { s with pending := rest }) hs
    rwa [h] at hnext
end Sys2Proof.Machine
end

section
/-! SUPPORT. The overlays of the operations on the web: the estimate, the gearing, the line reference, projected and held
ticks, pulses and cues (R150 to R174). -/
set_option Elab.async false
namespace Sys2Proof.Machine

/-! Reports once per page, and a camera off its pulse. -/

/-- `s` with what a report made once per page may touch taken from `t` (R28, R127, R162). -/
def onceReported (s t : State) : State := { reported s t with pages := { s.pages with list := t.pages.list } }

theorem oncePrinting_within (s : State) (key : Nat) : Within listed s (oncePrinting s key).2 := by
  have hmarked (ps : List Page) : Within listed s
      (ps.foldl (fun t p => setPage t p.id fun q => { q with once := q.once ++ [key] }) s) :=
    .foldl (fun t p => setPage_within t p.id _) ps s
  exact hmarked _

theorem raise_oncePrinting_within (s : State) (key : Nat) (pay : List Dword) :
    Within onceReported s (raiseIf (oncePrinting s key).1 (oncePrinting s key).2 key pay) :=
  (oncePrinting_within s key).andThen (raiseIf_within _ _ _ _)

/-- `s` with the alignment of cameras and what its loss reports taken from `t` (R234). -/
def camerasUnaligned (s t : State) : State := { reported s t with asy := { s.asy with cams := t.asy.cams } }

theorem unalignCamera_within (s : State) (k : Nat) : Within camerasUnaligned s (unalignCamera s k) := by
  unfold unalignCamera
  split
  · exact .refl s
  · exact .ite (.after (raise_within _ _ _)) (.refl s)

/-! The estimate (R28, R127, R165). -/

/-- `s` with the estimate and what it is made from taken from `t` (R165). -/
def estimated (s t : State) : State :=
  { s with ftb := { s.ftb with speed := t.ftb.speed, intervals := t.ftb.intervals, lastEdge := t.ftb.lastEdge
                               lastDir := t.ftb.lastDir } }

/-- `s` with what a count of the web may do to the estimate taken from `t`, and its reports (R28, R165). -/
def speedCounted (s t : State) : State :=
  { reported s t with
      pages := { s.pages with list := t.pages.list }
      ftb := { s.ftb with speed := t.ftb.speed, intervals := t.ftb.intervals, lastEdge := t.ftb.lastEdge
                          lastDir := t.ftb.lastDir } }

theorem standstill_within (s : State) : Within estimated s (standstill s) := rfl

theorem reportRate_within (s : State) : Within onceReported s (reportRate s) := by
  unfold reportRate
  split
  · exact .refl s
  · exact .ite (raise_oncePrinting_within s _ _) (.refl s)

theorem countSpeed_within (s : State) (fwd : Bool) (t : Nat) : Within speedCounted s (countSpeed s fwd t) := by
  unfold countSpeed
  dsimp only
  split
  · exact (Within.after (F := speedCounted) (raiseIf_within _ _ _ _)).andThen (reportRate_within _)
  · rfl

theorem decay_within (s : State) (t : Nat) :
    Within (fun s t => { s with ftb := { s.ftb with speed := t.ftb.speed } }) s (decay s t) := by
  unfold decay
  split
  · exact .ite rfl (.refl s)
  · exact .refl s

theorem refillGuard_within (s : State) : Within onceReported s (refillGuard s) := by
  unfold refillGuard
  split
  · exact .refl s
  · exact .ite ((count_within s _).andThen (raise_oncePrinting_within _ _ _)) (.refl s)

/-! Gearing and the line reference (R158, R159, R195). -/

/-- `s` with a flag that the next POSREF carries taken from `t` (R268). -/
def flagged (s t : State) : State := { s with par := { s.par with posFlagClk := t.par.posFlagClk } }

/-- `s` with what a gear ratio that comes in force touches taken from `t` (R158). -/
def geared (s t : State) : State := { reported s t with ftb := { s.ftb with g := t.ftb.g } }

/-- `s` with what a gear ratio in force, and out of the pending list, touches taken from `t` (R158). -/
def gearTaken (s t : State) : State := { reported s t with ftb := { s.ftb with g := t.ftb.g, gears := t.ftb.gears } }

/-- `s` with what is numbered by web lines taken from `t` (R195). -/
def linesShifted (s t : State) : State :=
  { s with
      web := t.web
      pages := { s.pages with list := t.pages.list, lastEnd := t.pages.lastEnd, fireEnd := t.pages.fireEnd }
      tables := { s.tables with
        curves := t.tables.curves, entries := t.tables.entries, curveUpds := t.tables.curveUpds
        masks := t.tables.masks, maskUpds := t.tables.maskUpds, poisoned := t.tables.poisoned }
      slices := { s.slices with recs := t.slices.recs, handed := t.slices.handed }
      map := { s.map with gens := t.map.gens }
      csc := { s.csc with
        nf := t.csc.nf, nfBase := t.csc.nfBase, bf := t.csc.bf, rho := t.csc.rho, heldRho := t.csc.heldRho
        fixedTo := t.csc.fixedTo, stamped := t.csc.stamped }
      dxl := { s.dxl with
        replay := t.dxl.replay, heldLine := t.dxl.heldLine, released := t.dxl.released, firstLine := t.dxl.firstLine } }

/-- `s` with what a line reference in force may touch taken from `t` (R159, R195). -/
def referenced (s t : State) : State :=
  { reported s t with
      pwr := { s.pwr with stale := t.pwr.stale }, web := t.web
      pages := { s.pages with list := t.pages.list, lastEnd := t.pages.lastEnd, fireEnd := t.pages.fireEnd }
      tables := { s.tables with
        curves := t.tables.curves, entries := t.tables.entries, curveUpds := t.tables.curveUpds
        masks := t.tables.masks, maskUpds := t.tables.maskUpds, poisoned := t.tables.poisoned }
      slices := { s.slices with recs := t.slices.recs, handed := t.slices.handed }
      map := { s.map with gens := t.map.gens }
      csc := { s.csc with
        nf := t.csc.nf, nfBase := t.csc.nfBase, bf := t.csc.bf, rho := t.csc.rho, heldRho := t.csc.heldRho
        fixedTo := t.csc.fixedTo, stamped := t.csc.stamped }
      ftb := { s.ftb with
        lamI := t.ftb.lamI, lamF := t.ftb.lamF, hwm := t.ftb.hwm, pmax := t.ftb.pmax, reversed := t.ftb.reversed
        lineRef := t.ftb.lineRef, speed := t.ftb.speed, intervals := t.ftb.intervals, lastEdge := t.ftb.lastEdge
        lastDir := t.ftb.lastDir, projected := t.ftb.projected, heldTicks := t.ftb.heldTicks, rate := t.ftb.rate
        paceAt := t.ftb.paceAt, lam10I := t.ftb.lam10I, lam10F := t.ftb.lam10F }
      cues := t.cues
      dxl := { s.dxl with
        replay := t.dxl.replay, heldLine := t.dxl.heldLine, released := t.dxl.released, firstLine := t.dxl.firstLine }
      par := { s.par with posFlagClk := t.par.posFlagClk } }

theorem setPosFlag_within (s : State) (bit : Nat) : Within flagged s (setPosFlag s bit) := rfl

theorem applyGear_within (s : State) (ratio : Nat) : Within geared s (applyGear s ratio) := .after (raise_within _ _ _)

theorem gearAt_within (s : State) (before : Int) : Within gearTaken s (gearAt s before) := by
  unfold gearAt
  split
  · exact .after (applyGear_within _ _)
  · exact .refl s

/-- Folding the tables at a line changes their base copies, the pending updates and the poisoned copies (R105, R106). -/
theorem foldTablesAt_eq (t : Tables) (n : Int) : foldTablesAt t n =
    { folded t (foldTablesAt t n) with poisoned := (foldTablesAt t n).poisoned } := by
  have hfolded (oldc : CurveUpd → Bool) (oldm : MaskUpd → Bool) :
      foldMasks (foldCurves t oldc) oldm = folded t (foldMasks (foldCurves t oldc) oldm) := by
    rw [foldMasks_eq_folded, foldCurves_eq_folded]
    rfl
  unfold foldTablesAt
  dsimp only
  rw [hfolded]
  rfl

theorem shiftLines_within (s : State) (d : Int) : Within linesShifted s (shiftLines s d) := by
  have hshift : Within linesShifted (noteDropped s) (shiftLines s d) :=
    congrArg (fun t : Tables => ({ shiftLines s d with tables := t } : State))
      (foldTablesAt_eq (noteDropped s).tables (lineCounter s))
  exact (noteDropped_within s).andThen hshift

/-- The state with a line reference in force, before the modules and the host are told (R159, R195). -/
def referencePut (s : State) (lamI : Int) (lamF : Nat) : State :=
  let d := linesPast lamI s.ftb.hwm
  let s1 := standstill (shiftLines s d)
  { s1 with
    ftb := { rebase10 (lamI * 2 ^ 32 + lamF - lamOf s.ftb) s1.ftb with
      lamI := lamI, lamF := lamF, hwm := lamI, reversed := false, pmax := masterPos s, lineRef := none
      projected := [], heldTicks := s.ftb.heldTicks.map fun x => wrapS 64 (x + d) }
    pwr := { s1.pwr with stale := false } }

/-- The state once every linked module is told the line base (R195). -/
def linebaseSent (s : State) (lamI : Int) : State :=
  (linkedModules s).foldl (fun t m => emitAll t ((linebaseWords lamI).map fun w => .ctrl m w)) s

theorem applyReference_eq (s : State) (lamI : Int) (lamF : Nat) : applyReference s lamI lamF =
    setPosFlag (raise (linebaseSent (referencePut s lamI lamF) lamI) 0x0307
      (it s.ftb.lamF ++ itq s.ftb.lamI ++ it lamF ++ itq lamI)) 1 := rfl

theorem linebaseSent_within (s : State) (lamI : Int) : Within (fun s t => { s with out := t.out }) s (linebaseSent s lamI) := by
  have hmodule (t : State) (m : Nat) : Within (fun s t => { s with out := t.out }) t
      (emitAll t ((linebaseWords lamI).map fun w => .ctrl m w)) := rfl
  exact .foldl hmodule _ s

theorem referencePut_within (s : State) (lamI : Int) (lamF : Nat) : Within referenced s (referencePut s lamI lamF) :=
  (shiftLines_within s (linesPast lamI s.ftb.hwm)).andThen (H := referenced) rfl

theorem applyReference_within (s : State) (lamI : Int) (lamF : Nat) : Within referenced s (applyReference s lamI lamF) := by
  rw [applyReference_eq]
  exact (((referencePut_within s lamI lamF).andThen (F := referenced) (linebaseSent_within _ lamI)).andThen (F := referenced)
    (raise_within _ _ _)).andThen (setPosFlag_within _ 1)

/-- A line reference in force once the pacing is brought to its instant (R159, R174). -/
theorem applyReference_paced_within (s : State) (t : Nat) (lamI : Int) (lamF : Nat) :
    Within referenced s (applyReference (advancePacing s t) lamI lamF) :=
  (advancePacing_within s t).andThen (applyReference_within _ lamI lamF)

theorem refAtCount_within (s : State) (before : Int) (t : Nat) : Within referenced s (refAtCount s before t) := by
  unfold refAtCount
  split
  · exact .ite (applyReference_paced_within s t _ _) (.refl s)
  · exact .refl s

/-! Counts of an encoder (R148, R153, R155, R160, R161, R170). -/

/-- `s` with the reversal state and what it reports taken from `t` (R160). -/
def reversedAt (s t : State) : State :=
  { reported s t with ftb := { s.ftb with pmax := t.ftb.pmax, reversed := t.ftb.reversed } }

/-- `s` with the positions of encoders and of the axes that they feed back to taken from `t` (R153, R323). -/
def moved (s t : State) : State := { s with encs := t.encs, mot := { s.mot with axes := t.mot.axes } }

/-- `s` with what a check of the web's windows touches taken from `t` (R155). -/
def webChecked (s t : State) : State :=
  { reported s t with
      webCfg := { s.webCfg with winMaster := t.webCfg.winMaster, winCheck := t.webCfg.winCheck
                                checkFailed := t.webCfg.checkFailed } }

/-- `s` with pulses and what is sent taken from `t` (R170). -/
def pulsed (s t : State) : State := { s with pulses := t.pulses, out := t.out }

/-- `s` with the projected ticks taken from `t` (R161). -/
def projectedTo (s t : State) : State := { s with ftb := { s.ftb with projected := t.ftb.projected } }

/-- `s` with what a count of the master may do to the web taken from `t` (R160, R161, R165, R167). -/
def webCounted (s t : State) : State :=
  { reported s t with
      pages := { s.pages with list := t.pages.list }
      ftb := { s.ftb with
        lamI := t.ftb.lamI, lamF := t.ftb.lamF, pmax := t.ftb.pmax, reversed := t.ftb.reversed, speed := t.ftb.speed
        intervals := t.ftb.intervals, lastEdge := t.ftb.lastEdge, lastDir := t.ftb.lastDir, projected := t.ftb.projected }
      cues := t.cues }

/-- `s` with what a count of an encoder may touch taken from `t`. -/
def counted (s t : State) : State :=
  { reported s t with
      pwr := { s.pwr with stale := t.pwr.stale }, web := t.web
      pages := { s.pages with list := t.pages.list, lastEnd := t.pages.lastEnd, fireEnd := t.pages.fireEnd }
      tables := { s.tables with
        curves := t.tables.curves, entries := t.tables.entries, curveUpds := t.tables.curveUpds
        masks := t.tables.masks, maskUpds := t.tables.maskUpds, poisoned := t.tables.poisoned }
      slices := { s.slices with recs := t.slices.recs, handed := t.slices.handed }
      map := { s.map with gens := t.map.gens }
      csc := { s.csc with
        nf := t.csc.nf, nfBase := t.csc.nfBase, bf := t.csc.bf, rho := t.csc.rho, heldRho := t.csc.heldRho
        fixedTo := t.csc.fixedTo, stamped := t.csc.stamped }
      encs := t.encs
      webCfg := { s.webCfg with winMaster := t.webCfg.winMaster, winCheck := t.webCfg.winCheck
                                checkFailed := t.webCfg.checkFailed }
      ftb := { s.ftb with
        lamI := t.ftb.lamI, lamF := t.ftb.lamF, hwm := t.ftb.hwm, g := t.ftb.g, pmax := t.ftb.pmax
        reversed := t.ftb.reversed, gears := t.ftb.gears, lineRef := t.ftb.lineRef, speed := t.ftb.speed
        intervals := t.ftb.intervals, lastEdge := t.ftb.lastEdge, lastDir := t.ftb.lastDir
        projected := t.ftb.projected, heldTicks := t.ftb.heldTicks, rate := t.ftb.rate, paceAt := t.ftb.paceAt
        lam10I := t.ftb.lam10I, lam10F := t.ftb.lam10F }
      cues := t.cues, pulses := t.pulses
      dxl := { s.dxl with
        replay := t.dxl.replay, heldLine := t.dxl.heldLine, released := t.dxl.released, firstLine := t.dxl.firstLine }
      par := { s.par with posFlagClk := t.par.posFlagClk }, mot := { s.mot with axes := t.mot.axes } }

theorem reverseState_within (s : State) (fwd : Bool) : Within reversedAt s (reverseState s fwd) := by
  have hset (p : Int) (r : Bool) : Within reversedAt s { s with ftb := { s.ftb with pmax := p, reversed := r } } := rfl
  have hback : Within reversedAt s { s with ftb := { s.ftb with reversed := true } } := rfl
  exact .ite (.ite ((hset _ _).andThen (raiseIf_within _ _ _ _)) (.refl s))
    (.ite ((hback.andThen (F := reversedAt) (count_within _ _)).andThen (raise_within _ _ _))
      (.ite (count_within s _).widen (.refl s)))

theorem movePos_within (s : State) (ch : Nat) (fwd : Bool) : Within moved s (movePos s ch fwd) := rfl

theorem webCheck_within (s : State) : Within webChecked s (webCheck s) := by
  have hset (b : Bool) : Within webChecked s
      { s with webCfg := { s.webCfg with winMaster := 0, winCheck := 0, checkFailed := b } } := rfl
  have hcounted (b : Bool) : Within webChecked s (if b then count
      { s with webCfg := { s.webCfg with winMaster := 0, winCheck := 0, checkFailed := b } } (cnum 3 32)
      else { s with webCfg := { s.webCfg with winMaster := 0, winCheck := 0, checkFailed := b } }) :=
    .ite ((hset b).andThen (count_within _ _)) (hset b)
  exact .ite ((hcounted _).andThen (raiseIf_within _ _ _ _)) (.refl s)

theorem emitPulse_within (s : State) (k t : Nat) (n : Int) : Within pulsed s (emitPulse s k t n) := by
  unfold emitPulse
  refine .ite (.refl s) ?_
  split
  · exact .refl s
  · exact .after (emit_within _ _)

theorem countPulses_within (s : State) (t : Nat) : Within pulsed s (countPulses s t) := by
  refine .foldl (fun u k => ?_) _ s
  have hset (ps : List Pulse) : Within pulsed u { u with pulses := ps } := rfl
  split
  · exact .refl u
  · exact .ite (.ite ((hset _).andThen (emitPulse_within _ k t _)) (hset _)) (.refl u)

theorem projectTicks_within (s : State) (fwd : Bool) (t : Nat) : Within projectedTo s (projectTicks s fwd t) :=
  .ite rfl (.ite rfl rfl)

theorem webCount_within (s : State) (fwd : Bool) (t : Nat) : Within webCounted s (webCount s fwd t) := by
  have hmoved : Within webCounted s (endMasks { s with ftb := moveLam s.ftb fwd }) := rfl
  exact .ite (reverseState_within s fwd).widen (((hmoved.andThen (F := webCounted) (reverseState_within _ fwd)).andThen
    (F := webCounted) (countSpeed_within _ fwd t)).andThen (projectTicks_within _ fwd t))

theorem masterCount_within (s : State) (fwd : Bool) (t : Nat) : Within counted s (masterCount s fwd t) := by
  have hgear : Within counted s (if fwd then gearAt s (masterPos s) else s) := .ite (gearAt_within s _).widen (.refl s)
  have hmoved := hgear.andThen (F := counted) (movePos_within _ 0 fwd)
  have hwin (u : State) (w : Int) : Within counted u { u with webCfg := { u.webCfg with winMaster := w } } := rfl
  have hweb (w : Int) := (hmoved.andThen (F := counted) (hwin _ w)).andThen (F := counted) (webCount_within _ fwd t)
  have href (w : Int) := ((hweb w).andThen (F := counted) (refAtCount_within _ (masterPos s) t)).andThen (F := counted)
    (countPulses_within _ t)
  exact Within.andThen (G := counted) (.ite (href _) (hweb _)) (webCheck_within _)

/-! Ticks (R145, R160 to R163, R192, R424). -/

/-- `s` with what a tick that leaves the chip may touch taken from `t` (R163, R170, R192). -/
def ticked (s t : State) : State :=
  { s with ftb := { s.ftb with lastTick := t.ftb.lastTick }, pulses := t.pulses, out := t.out, free := t.free }

/-- `s` with what a line that a tick is issued for may touch taken from `t` (R145, R160 to R162, R424). -/
def lineIssued (s t : State) : State :=
  { reported s t with
      anneal := { s.anneal with running := t.anneal.running, windowEnd := t.anneal.windowEnd }
      pages := { s.pages with list := t.pages.list }, slices := { s.slices with recs := t.slices.recs }
      csc := { s.csc with overRun := t.csc.overRun }
      ftb := { s.ftb with hwm := t.ftb.hwm, heldTicks := t.ftb.heldTicks, lastTick := t.ftb.lastTick
                          tickLimitRaised := t.ftb.tickLimitRaised }
      pulses := t.pulses, asy := { s.asy with due := t.asy.due, cutMarks := t.asy.cutMarks }
      par := { s.par with mseqTx := t.par.mseqTx }, free := t.free }

theorem sendTick_within (s : State) (n : Int) : Within (fun s t => { s with out := t.out, free := t.free }) s (sendTick s n) := by
  have hmodule (u : State) (g v : Nat) : Within (fun s t => { s with out := t.out, free := t.free }) u
      (emit (drawFree u).1 (.ctrl g (ctrlWord 0x40 [(50, unsignedOf 6 n), (40, (drawFree u).2 % 1024), (8, v)]))) := rfl
  exact .foldl (fun u g => hmodule u g _) _ s

theorem leaveTick_within (s : State) (n : Int) (t : Nat) : Within ticked s (leaveTick s n t) := by
  have hpulse (u : State) (k : Nat) : Within pulsed u (match u.pulses[k]? with
      | some p => if p.enable && !p.src && decide (n % (p.div : Int) = p.phase) then emitPulse u k t n else u
      | none => u) := by
    split
    · exact .ite (emitPulse_within u k t n) (.refl u)
    · exact .refl u
  have hsent : Within ticked s (sendTick { s with ftb := { s.ftb with lastTick := some t } } n) := .after (sendTick_within _ n)
  exact hsent.andThen (.foldl (F := pulsed) hpulse _ _)

theorem queueLimit_within (s : State) : Within printingEnded s (queueLimit s) := .ite (overspeedEnd_within s 3) (.refl s)

theorem reportHeld_within (s : State) : Within lineIssued s (reportHeld s) := by
  have hset (u : State) (b : Bool) : Within lineIssued u { u with ftb := { u.ftb with tickLimitRaised := b } } := rfl
  have honce := Within.andThen (F := lineIssued) (oncePrinting_within s 0x0308) (hset _ false)
  exact .ite ((hset s true).andThen (raiseIf_within _ _ _ _)) (honce.andThen (raiseIf_within _ _ _ _))

theorem countOverspeed_within (s : State) :
    Within (fun s t => { s with csc := { s.csc with overRun := t.csc.overRun } }) s (countOverspeed s) := rfl

theorem annealWindowOver_within (s : State) : Within lineIssued s (annealWindowOver s) := by
  unfold annealWindowOver
  split
  · exact .ite (.after (count_within _ _)) (.refl s)
  · exact .refl s

theorem issueTick_within (s : State) (line : Int) (t : Nat) : Within lineIssued s (issueTick s line t) := by
  have hline : Within lineIssued s
      (annealWindowOver (countOverspeed { s with ftb := { s.ftb with hwm := wrapS 64 line } })) :=
    (Within.after (F := lineIssued) (countOverspeed_within _)).andThen (annealWindowOver_within _)
  have hset (ls : List Int) (b : Bool) (u : State) : Within lineIssued u
      { u with ftb := { u.ftb with heldTicks := ls, tickLimitRaised := b } } := rfl
  have hcounted (ls : List Int) (b : Bool) := (hline.andThen (F := lineIssued) (hset ls b _)).andThen (F := lineIssued)
    (count_within _ (cnum 3 30))
  have hheld (ls : List Int) (b : Bool) := ((hcounted ls b).andThen (F := lineIssued) (reportHeld_within _)).andThen
    (F := lineIssued) (queueLimit_within _)
  have hleft (ls : List Int) (b : Bool) := (hline.andThen (F := lineIssued) (hset ls b _)).andThen (F := lineIssued)
    (leaveTick_within _ (wrapS 64 line) t)
  exact .ite (hheld _ _) (hleft _ _)

/-- A cue offered to a page resolves it or counts a skip (R51, R52). -/
theorem offerCue_within (s : State) (ch : Nat) (line : Int) : Within resolved s (offerCue s ch line) := by
  unfold offerCue
  split
  · exact .refl s
  · next p _ =>
    exact .ite (.refl s) (.ite (setPage_within s p.id _).widen (((raiseIf_within _ s _ _).andThen (F := resolved)
      (resolvePage_within _ p.id _)).andThen (resolveChain_within _ _)))

end Sys2Proof.Machine
end

section
/-! SUPPORT. The frames of the commands and events of the web. -/
set_option Elab.async false
namespace Sys2Proof.Machine

/-! The commands. -/

/-- `s` with what WEB_CONFIG may touch taken from `t`, its completion included. -/
def webConfigured (s t : State) : State :=
  { completed s t with
      webCfg := t.webCfg
      ftb := { s.ftb with
        lamI := t.ftb.lamI, lamF := t.ftb.lamF, speed := t.ftb.speed, intervals := t.ftb.intervals
        lastEdge := t.ftb.lastEdge, lastDir := t.ftb.lastDir, projected := t.ftb.projected, rate := t.ftb.rate
        rateTarget := t.ftb.rateTarget, paceAt := t.ftb.paceAt }
      cues := t.cues }

/-- `s` with what ENC_CONFIG may touch taken from `t`, its completion included. -/
def encsSet (s t : State) : State := { completed s t with encs := t.encs }

/-- `s` with what GEAR_SET may touch taken from `t`, its completion included. -/
def gearsSet (s t : State) : State :=
  { answered s t with
      ftb := { s.ftb with g := t.ftb.g, gears := t.ftb.gears }, par := { s.par with posFlagClk := t.par.posFlagClk } }

/-- `s` with what LINE_REFERENCE may touch taken from `t`, its completion included. -/
def lineReferenced (s t : State) : State :=
  { answered s t with
      pwr := { s.pwr with stale := t.pwr.stale }, web := t.web
      pages := { s.pages with list := t.pages.list, lastEnd := t.pages.lastEnd, fireEnd := t.pages.fireEnd }
      tables := { s.tables with
        curves := t.tables.curves, entries := t.tables.entries, curveUpds := t.tables.curveUpds
        masks := t.tables.masks, maskUpds := t.tables.maskUpds, poisoned := t.tables.poisoned }
      slices := { s.slices with recs := t.slices.recs, handed := t.slices.handed }
      map := { s.map with gens := t.map.gens }
      csc := { s.csc with
        nf := t.csc.nf, nfBase := t.csc.nfBase, bf := t.csc.bf, rho := t.csc.rho, heldRho := t.csc.heldRho
        fixedTo := t.csc.fixedTo, stamped := t.csc.stamped }
      ftb := { s.ftb with
        lamI := t.ftb.lamI, lamF := t.ftb.lamF, hwm := t.ftb.hwm, pmax := t.ftb.pmax, reversed := t.ftb.reversed
        lineRef := t.ftb.lineRef, speed := t.ftb.speed, intervals := t.ftb.intervals, lastEdge := t.ftb.lastEdge
        lastDir := t.ftb.lastDir, projected := t.ftb.projected, heldTicks := t.ftb.heldTicks, rate := t.ftb.rate
        paceAt := t.ftb.paceAt, lam10I := t.ftb.lam10I, lam10F := t.ftb.lam10F }
      cues := t.cues
      dxl := { s.dxl with
        replay := t.dxl.replay, heldLine := t.dxl.heldLine, released := t.dxl.released, firstLine := t.dxl.firstLine }
      par := { s.par with posFlagClk := t.par.posFlagClk } }

/-- `s` with what PACE_SET may touch taken from `t`, its completion included. -/
def paceTargeted (s t : State) : State :=
  { completed s t with
      ftb := { s.ftb with
        lamI := t.ftb.lamI, lamF := t.ftb.lamF, speed := t.ftb.speed, rate := t.ftb.rate
        rateTarget := t.ftb.rateTarget, paceAt := t.ftb.paceAt }
      cues := t.cues, par := { s.par with posFlagClk := t.par.posFlagClk } }

/-- `s` with what CUE_CONFIG and CUE_READ may touch taken from `t`, their completion included. -/
def cuesChanged (s t : State) : State := { completed s t with cues := t.cues }

/-- `s` with what PULSE_CONFIG may touch taken from `t`, its completion included. -/
def pulseConfigured (s t : State) : State :=
  { answered s t with pulses := t.pulses, asy := { s.asy with cams := t.asy.cams } }

/-- `s` with what FIRE_TRIM may touch taken from `t`, its completion included. -/
def trimmed (s t : State) : State := { answered s t with job := t.job, web := { s.web with trims := t.web.trims } }

theorem webConfig_changesOnly (e : Entry) (s : State) : ChangesOnly [.webConfig e] s (webConfigured s) := by
  have hset (u : State) (c : WebCfg) : Within webConfigured u { u with webCfg := c } := rfl
  have hstopped (u : State) (n : Nat) : Within webConfigured u
      { u with ftb := { u.ftb with projected := [], rate := 0, rateTarget := 0, paceAt := n } } := rfl
  have hcfg (n : Nat) (c : WebCfg) := (advancePacing_within s n).andThen (F := webConfigured) (hset _ c)
  have hmode (n : Nat) (c : WebCfg) := ((hcfg n c).andThen (F := webConfigured) (standstill_within _)).andThen
    (F := webConfigured) (hstopped _ n)
  exact changesOnly_of_within (command_within fun _ => .checked (.ite (.okWith (hcfg _ _) _) (.okWith (hmode _ _) _)) _)

theorem encConfig_changesOnly (e : Entry) (s : State) : ChangesOnly [.encConfig e] s (encsSet s) := by
  have hset (es : List Enc) : Within encsSet s { s with encs := es } := rfl
  exact changesOnly_of_within (command_within fun _ => .checked (.okWith (hset _) _) _)

theorem gearSet_changesOnly (e : Entry) (s : State) : ChangesOnly [.gearSet e] s (gearsSet s) := by
  have hpending (gs : List Gear) : Within gearsSet s { s with ftb := { s.ftb with gears := gs } } := rfl
  have hforce (gs : List Gear) (xs : List (Int × Nat × Bool)) : Within gearsSet s
      (xs.foldl (fun t x => applyGear t x.2.1) { s with ftb := { s.ftb with gears := gs } }) :=
    (hpending gs).andThen (.foldl (F := geared) (fun t (x : Int × Nat × Bool) => applyGear_within t x.2.1) xs _)
  exact changesOnly_of_within (command_within fun _ => .checked (.checked (.okWith
    (.ite (hforce _ _) ((hforce _ _).andThen (setPosFlag_within _ 2))) _) _) _)

theorem lineReference_changesOnly (e : Entry) (s : State) : ChangesOnly [.lineReference e] s (lineReferenced s) := by
  have hkept (r : LineRef) : Within lineReferenced s { s with ftb := { s.ftb with lineRef := some r } } := rfl
  exact changesOnly_of_within (command_within fun _ => .checked
    (.ite (.okWith (applyReference_paced_within s _ _ _).widen _) (.okWith (hkept _) _)) _)

theorem paceSet_changesOnly (e : Entry) (s : State) : ChangesOnly [.paceSet e] s (paceTargeted s) := by
  have hset (u : State) (r : Int) (n : Nat) : Within paceTargeted u
      { u with ftb := { u.ftb with rateTarget := r, paceAt := n } } := rfl
  have htaken (n : Nat) (r : Int) := (((advancePacing_within s n).andThen (F := paceTargeted) (hset _ r n)).andThen
    (F := paceTargeted) (advancePacing_within _ n)).andThen (F := paceTargeted) (setPosFlag_within _ 3)
  exact changesOnly_of_within (command_within fun _ => .checked (.okWith (.ite (.refl s) (htaken _ _)) _) _)

theorem cueConfig_cueRead_changesOnly (e : Entry) (s : State) :
    ChangesOnly [.cueConfig e, .cueRead e] s (cuesChanged s) := by
  have hset (u : State) (cs : List CueCh) : Within cuesChanged u { u with cues := cs } := rfl
  have hwritten (a : Nat) (ds : List Dword) : Within completed s (hostPutDws s a ds) := rfl
  have hconfig : OutcomeWithin cuesChanged s (exec (.cueConfig e) s) :=
    command_within (F := cuesChanged) fun _ => .checked (.okWith (hset s _) _) _
  have hread : OutcomeWithin cuesChanged s (exec (.cueRead e) s) :=
    command_within (F := cuesChanged) fun _ => .checked (.okWith ((hwritten _ _).andThen (hset _ _)) _) _
  intro c hc
  rcases List.mem_pair.mp hc with rfl | rfl
  · exact changesOnly_of_within hconfig _ List.mem_cons_self
  · exact changesOnly_of_within hread _ List.mem_cons_self

theorem pulseConfig_changesOnly (e : Entry) (s : State) : ChangesOnly [.pulseConfig e] s (pulseConfigured s) := by
  have hset (ps : List Pulse) : Within pulseConfigured s { s with pulses := ps } := rfl
  have hcams (ps : List Pulse) (ks : List Nat) : Within pulseConfigured s (ks.foldl unalignCamera { s with pulses := ps }) :=
    (hset ps).andThen (.foldl unalignCamera_within ks _)
  exact changesOnly_of_within (command_within fun _ => .checked (.okWith (hcams _ _) _) _)

theorem fireTrim_changesOnly (e : Entry) (s : State) : ChangesOnly [.fireTrim e] s (trimmed s) := by
  have hset (ts : Timed) : Within trimmed s { s with web := { s.web with trims := ts } } := rfl
  have hsent (ts : Timed) (qs : List Nat) (m : Nat) (n : Int) : Within trimmed s
      (qs.foldl (fun u q => sendRowsFrom u m q n) { s with web := { s.web with trims := ts } }) :=
    (hset ts).andThen (.foldl (F := phased) (fun u q => sendRowsFrom_within u m q n) qs _)
  exact changesOnly_of_within (command_within fun _ => .checked
    (.ite (.okWith (hset _) _) (.okWith (hsent _ _ _ _) _)) _)

theorem webStatus_changesOnly (e : Entry) (s : State) : ChangesOnly [.webStatus e] s (completed s) :=
  changesOnly_of_within (command_within fun _ => .checked (.okWith (.refl s) _) _)

/-! The events. -/

theorem encCount_changesOnly (ch : Nat) (a b : Bool) (edge : Edge) (s : State) :
    ChangesOnly [.encCount ch a b edge] s (counted s) := by
  refine changesOnly_of_within (show OutcomeWithin counted s (execEncCount ch a b edge s) from ?_)
  have hlevels (es : List Enc) : Within counted s { s with encs := es } := rfl
  have hcheck (u : State) (w : Int) : Within counted u { u with webCfg := { u.webCfg with winCheck := w } } := rfl
  have hmoved (es : List Enc) (fwd : Bool) := (hlevels es).andThen (F := counted) (movePos_within _ ch fwd)
  unfold execEncCount
  split
  · exact .refl s
  · refine .ite (.refl s) (.ite (hlevels _) (.ite ((hlevels _).andThen (count_within _ _)) (.ite
      ((hlevels _).andThen (masterCount_within _ _ _)) ?_)))
    exact Within.ite ((hmoved _ _).andThen (hcheck _ _)) (hmoved _ _)

/-- `s` with what LINE_TICK may touch taken from `t`. -/
def lineTicked (s t : State) : State :=
  { reported s t with
      anneal := { s.anneal with running := t.anneal.running, windowEnd := t.anneal.windowEnd }
      pages := { s.pages with list := t.pages.list }, slices := { s.slices with recs := t.slices.recs }
      csc := { s.csc with overRun := t.csc.overRun }
      ftb := { s.ftb with hwm := t.ftb.hwm, projected := t.ftb.projected, heldTicks := t.ftb.heldTicks
                          lastTick := t.ftb.lastTick, tickLimitRaised := t.ftb.tickLimitRaised }
      pulses := t.pulses, asy := { s.asy with due := t.asy.due, cutMarks := t.asy.cutMarks }
      par := { s.par with mseqTx := t.par.mseqTx }, free := t.free }

/-- `s` with what HELD_TICK_ISSUE may touch taken from `t`. -/
def heldIssued (s t : State) : State :=
  { reported s t with
      pages := { s.pages with list := t.pages.list }, slices := { s.slices with recs := t.slices.recs }
      ftb := { s.ftb with heldTicks := t.ftb.heldTicks, lastTick := t.ftb.lastTick }, pulses := t.pulses
      asy := { s.asy with due := t.asy.due, cutMarks := t.asy.cutMarks }
      par := { s.par with mseqTx := t.par.mseqTx }, free := t.free }

/-- `s` with what PACING_TICK may touch taken from `t`. -/
def pacingTicked (s t : State) : State :=
  { reported s t with
      anneal := { s.anneal with running := t.anneal.running, windowEnd := t.anneal.windowEnd }
      pages := { s.pages with list := t.pages.list }, slices := { s.slices with recs := t.slices.recs }
      csc := { s.csc with overRun := t.csc.overRun }
      ftb := { s.ftb with
        lamI := t.ftb.lamI, lamF := t.ftb.lamF, hwm := t.ftb.hwm, speed := t.ftb.speed, heldTicks := t.ftb.heldTicks
        lastTick := t.ftb.lastTick, tickLimitRaised := t.ftb.tickLimitRaised, rate := t.ftb.rate, paceAt := t.ftb.paceAt }
      cues := t.cues
      pulses := t.pulses, asy := { s.asy with due := t.asy.due, cutMarks := t.asy.cutMarks }
      par := { s.par with mseqTx := t.par.mseqTx }, free := t.free }

/-- `s` with what WEB_STILL may touch taken from `t`. -/
def stilled (s t : State) : State :=
  { reported s t with
      ftb := { s.ftb with speed := t.ftb.speed, intervals := t.ftb.intervals, lastEdge := t.ftb.lastEdge
                          lastDir := t.ftb.lastDir } }

/-- `s` with what RATE_READING may touch taken from `t`. -/
def rateRead (s t : State) : State :=
  { reported s t with
      pages := { s.pages with list := t.pages.list }
      ftb := { s.ftb with speed := t.ftb.speed, rho10 := t.ftb.rho10, lam10I := t.ftb.lam10I, lam10F := t.ftb.lam10F } }

/-- `s` with what CUE_CAPTURE may touch taken from `t`. -/
def cueCaptured (s t : State) : State :=
  { reported s t with
      pages := { s.pages with list := t.pages.list, lastEnd := t.pages.lastEnd }, cues := t.cues
      par := { s.par with mseqTx := t.par.mseqTx } }

theorem lineTick_changesOnly (t : Nat) (s : State) : ChangesOnly [.lineTick t] s (lineTicked s) := by
  refine changesOnly_of_within (show OutcomeWithin lineTicked s (execLineTick t s) from ?_)
  unfold execLineTick
  split
  · exact .refl s
  · exact .ite (Within.after (issueTick_within _ _ _)) (Within.refl s)

theorem heldTickIssue_changesOnly (t : Nat) (s : State) : ChangesOnly [.heldTickIssue t] s (heldIssued s) := by
  refine changesOnly_of_within (show OutcomeWithin heldIssued s (execHeldTickIssue t s) from ?_)
  have hlimit : Within heldIssued s (queueLimit s) := (queueLimit_within s).widen
  have htaken (u : State) (ls : List Int) : Within heldIssued u { u with ftb := { u.ftb with heldTicks := ls } } := rfl
  have hleft (ls : List Int) (n : Int) (t : Nat) := (hlimit.andThen (F := heldIssued) (htaken _ ls)).andThen (F := heldIssued)
    (leaveTick_within _ n t)
  unfold execHeldTickIssue
  dsimp only
  split
  · exact .ite (hleft _ _ _) hlimit
  · exact hlimit

theorem pacingTick_changesOnly (t : Nat) (s : State) : ChangesOnly [.pacingTick t] s (pacingTicked s) := by
  have hrate : Within pacingTicked s (reportRate (advancePacing s t)) :=
    (advancePacing_within s t).andThen (reportRate_within _)
  have hissued (n : Int) (at_ : Nat) := hrate.andThen (F := pacingTicked) (issueTick_within _ n at_)
  exact changesOnly_of_within (show OutcomeWithin pacingTicked s (execPacingTick t s) from
    .ite (.ite (hissued _ _) hrate) (Within.refl s))

theorem webStill_changesOnly (t : Nat) (s : State) : ChangesOnly [.webStill t] s (stilled s) := by
  refine changesOnly_of_within (show OutcomeWithin stilled s (execWebStill t s) from ?_)
  unfold execWebStill
  split
  · exact .ite ((standstill_within s).andThen (F := stilled) (raiseIf_within _ _ _ _)) (Within.refl s)
  · exact .refl s

theorem rateReading_changesOnly (t : Nat) (s : State) : ChangesOnly [.rateReading t] s (rateRead s) := by
  have hread (r : Int) (i : Int) (f : Nat) : Within rateRead s
      { s with ftb := { s.ftb with rho10 := r, lam10I := i, lam10F := f } } := rfl
  have hguard (r : Int) (i : Int) (f : Nat) := ((hread r i f).andThen (F := rateRead) (decay_within _ t)).andThen (F := rateRead)
    (refillGuard_within _)
  exact changesOnly_of_within (show OutcomeWithin rateRead s (execRateReading t s) from
    .ite (Within.refl s) (hguard _ _ _))

theorem cueCapture_changesOnly (ch : Nat) (rising : Bool) (edge : Edge) (s : State) :
    ChangesOnly [.cueCapture ch rising edge] s (cueCaptured s) := by
  refine changesOnly_of_within (show OutcomeWithin cueCaptured s (execCueCapture ch rising edge s) from ?_)
  have hset (cs : List CueCh) : Within cueCaptured s { s with cues := cs } := rfl
  have hcounted (b : Bool) (k : Nat) (cs : List CueCh) : Within cueCaptured s
      (if b then count { s with cues := cs } k else { s with cues := cs }) :=
    .ite ((hset cs).andThen (count_within _ k)) (hset cs)
  have hoffered (b c : Bool) (k : Nat) (cs : List CueCh) (ds : List Dword) (line : Int) :=
    ((hcounted b k cs).andThen (F := cueCaptured) (raiseIf_within c _ 0x030A ds)).andThen (F := cueCaptured)
      (offerCue_within _ ch line)
  unfold execCueCapture
  split
  · exact .refl s
  · exact .ite (Within.refl s) (hoffered _ _ _ _ _ _)

/-- Settles O56: each clause is the overlay of its command, put together from those of the operations it calls. -/
theorem frameWeb : Obligations.FrameWeb := fun s =>
  ⟨fun e => webConfig_changesOnly e s, fun e => encConfig_changesOnly e s, fun e => gearSet_changesOnly e s,
    fun e => lineReference_changesOnly e s, fun e => paceSet_changesOnly e s, fun e => cueConfig_cueRead_changesOnly e s,
    fun e => pulseConfig_changesOnly e s, fun e => fireTrim_changesOnly e s, fun e => webStatus_changesOnly e s,
    fun ch a b edge => encCount_changesOnly ch a b edge s, fun t => lineTick_changesOnly t s,
    fun t => heldTickIssue_changesOnly t s, fun t => pacingTick_changesOnly t s, fun t => webStill_changesOnly t s,
    fun t => rateReading_changesOnly t s, fun ch rising edge => cueCapture_changesOnly ch rising edge s⟩

end Sys2Proof.Machine
end

section
/-! SUPPORT. The states that the commands of the web leave (R156 to R174). -/
set_option Elab.async false
namespace Sys2Proof.Machine

/-- A command at its turn whose checks pass does what follows them. -/
theorem command_passes {op : Nat} {e : Entry} {s : State} {r : InFlight} {body : InFlight → State → Reply}
    {cs : List (Bool × Nat)} {reply : State → Reply} (hT : Turn op e s r) (hbody : body r s = checked s cs reply)
    (hc : cs.all (fun c => !c.1) = true) : command [op] e body s = settle s r (reply s) := by
  rw [command_turn hT, hbody, checked_pass hc]

/-- A command that completes in a state of which `P` holds answers so. -/
theorem completes_of_exec {c : Instr} {s u : State} {r : InFlight} {st : Nat} {res : List Dword} {P : State → Prop}
    (hexec : exec c s = .next (finish u r st res)) (hu : P u) :
    Answers c s (fun t => ∃ u : State, t = finish u r st res ∧ P u) :=
  ⟨_, hexec, u, rfl, hu⟩

variable {e : Entry} {s : State} {r : InFlight}

/-! WEB_CONFIG (R156, R174). -/

/-- The state in which WEB_CONFIG's fields are taken. -/
def webTaken (s : State) (e : Entry) : State := { advancePacing s (nowUnits s) with webCfg := webCfgOf s e }

/-- The state in which WEB_CONFIG's fields are taken and the master mode has changed. -/
def modeTaken (s : State) (e : Entry) : State :=
  { standstill (webTaken s e) with
    ftb := { (standstill (webTaken s e)).ftb with projected := [], rate := 0, rateTarget := 0, paceAt := nowUnits s } }

theorem modeTaken_ftb (s : State) (e : Entry) : (modeTaken s e).ftb = { (advancePacing s (nowUnits s)).ftb with
    speed := 0, intervals := [], lastEdge := none, lastDir := none, projected := [], rate := 0, rateTarget := 0
    paceAt := nowUnits s } := rfl

theorem exec_webConfig (hT : Turn 0x0109 e s r) (hform : webFormatOk e = true)
    (hfree : anyActive s = false ∨
      ((webCfgOf s e).pacing = s.webCfg.pacing ∧ (webCfgOf s e).stillTime = s.webCfg.stillTime ∧
       (webCfgOf s e).spdAvg = s.webCfg.spdAvg ∧ (webCfgOf s e).jitterAllow = s.webCfg.jitterAllow)) :
    exec (.webConfig e) s = .next (finish
      (if (webCfgOf s e).pacing = s.webCfg.pacing then webTaken s e else modeTaken s e) r stOk []) := by
  refine congrArg Host.Outcome.next ((command_passes hT rfl ?_).trans ?_)
  · rcases hfree with hidle | ⟨hpacing, hstill, havg, hjitter⟩
    · simp [hform, hidle]
    · simp [hform, hpacing, hstill, havg, hjitter]
  · split <;> rfl

theorem advancePacing_hwm (s : State) (t : Nat) : (advancePacing s t).ftb.hwm = s.ftb.hwm :=
  (advancePacing_within s t).untouched fun u => u.ftb.hwm

/-! GEAR_SET (R158). -/

theorem applyGear_ftb (s : State) (ratio : Nat) : (applyGear s ratio).ftb = { s.ftb with g := ratio } := by
  simp [applyGear]

/-- The ratios that come in force at once, one after another, leave the last of them (R158). -/
theorem foldl_applyGear_ftb (xs : List (Int × Nat × Bool)) (s : State) :
    (xs.foldl (fun t x => applyGear t x.2.1) s).ftb =
      { s.ftb with g := xs.getLast?.elim s.ftb.g fun x => x.2.1 } := by
  induction xs using List.reverseRecOn with
  | nil => rfl
  | append_singleton xs x ih => simp [applyGear_ftb, ih]

/-- The entries of a GEAR_SET's record. -/
def gearsRead (s : State) (e : Entry) : List (Int × Nat × Bool) :=
  (List.range (fld (pw e 0) 0 2 + 1)).map fun i => gearEntry s (pq e 2 + 16 * i)

/-- The entries of a GEAR_SET that wait for a position. -/
def gearsPlaced (s : State) (e : Entry) : List (Int × Nat × Bool) := (gearsRead s e).filter fun x => !x.2.2

/-- The pending list with a GEAR_SET's positioned entries in it. -/
def gearsPending (s : State) (e : Entry) : List Gear :=
  (gearsPlaced s e).foldl (fun l x => insertGear { pos := x.1, ratio := x.2.1 } l)
    (s.ftb.gears.filter fun g => !((gearsPlaced s e).any fun x => x.1 == g.pos))

/-- The IMMEDIATE entries of a GEAR_SET that come in force: none on a servitor (R158). -/
def gearsAtOnce (s : State) (e : Entry) : List (Int × Nat × Bool) :=
  if servitor s then [] else (gearsRead s e).filter fun x => x.2.2

/-- The state in which a GEAR_SET's ratios are pending or in force, before its POSREF flag. -/
def gearsForced (s : State) (e : Entry) : State :=
  (gearsAtOnce s e).foldl (fun t x => applyGear t x.2.1) { s with ftb := { s.ftb with gears := gearsPending s e } }

theorem exec_gearSet (hT : Turn 0x010B e s r) (hrsv : rsvOk e [3, 0, allBits, allBits] = true) (halign : pq e 2 % 16 = 0)
    (hread : hostReadEnd s (pq e 2) (16 * (fld (pw e 0) 0 2 + 1)) = .ok)
    (hok : (List.range (fld (pw e 0) 0 2 + 1)).all (fun i => gearEntryOk s (pq e 2 + 16 * i)) = true)
    (hasc : ascending ((gearsPlaced s e).map fun x => x.1) = true) (hahead : ∀ x ∈ gearsPlaced s e, masterPos s < x.1)
    (hroom : (gearsPending s e).length ≤ 4) (hmode : s.webCfg.pacing = false) :
    exec (.gearSet e) s = .next (finish
      (if (gearsAtOnce s e).isEmpty then gearsForced s e else setPosFlag (gearsForced s e) 2) r stOk []) := by
  refine congrArg Host.Outcome.next ((command_passes hT rfl ?_).trans (congrArg (settle s r) (checked_pass ?_ _)))
  · simp [hrsv, halign, hread]
  · have hbad : ((List.range (fld (pw e 0) 0 2 + 1)).any fun i => !gearEntryOk s (pq e 2 + 16 * i)) = false := by
      simpa [List.any_eq_false, List.all_eq_true] using hok
    have hpassed : ((gearsPlaced s e).any fun x => decide (x.1 ≤ masterPos s)) = false := by
      simpa [List.any_eq_false] using hahead
    have hfull : decide (4 < (gearsPending s e).length) = false := decide_eq_false (by omega)
    show [(((List.range (fld (pw e 0) 0 2 + 1)).any fun i => !gearEntryOk s (pq e 2 + 16 * i)) ||
        !ascending ((gearsPlaced s e).map fun x => x.1), stFormat),
      ((gearsPlaced s e).any fun x => decide (x.1 ≤ masterPos s), stPosPassed),
      (decide (4 < (gearsPending s e).length), stPendingFull), (s.webCfg.pacing, stMode)].all (fun c => !c.1) = true
    rw [hbad, hasc, hpassed, hfull, hmode]
    rfl

/-- The timebase that a GEAR_SET leaves. -/
theorem gearsForced_ftb (s : State) (e : Entry) : (gearsForced s e).ftb = { s.ftb with
    gears := gearsPending s e
    g := (gearsAtOnce s e).getLast?.elim s.ftb.g fun x => x.2.1 } := by
  rw [gearsForced, foldl_applyGear_ftb]

/-! LINE_REFERENCE (R159). -/

/-- The reference that a LINE_REFERENCE of mode 1 or 2 holds. -/
def lineRefOf (e : Entry) : LineRef :=
  { onIndex := fld (pw e 0) 0 2 == 2, pos := pqS e 6, lamI := pqS e 2, lamF := (pw e 4).toNat }

theorem exec_lineReference_now (hT : Turn 0x010C e s r)
    (hrsv : rsvOk e [3, 0, allBits, allBits, allBits, 0, allBits, allBits] = true) (hidle : anyActive s = false)
    (hmode : fld (pw e 0) 0 2 = 0) : exec (.lineReference e) s = .next (finish
      (applyReference (advancePacing s (nowUnits s)) (pqS e 2) (pw e 4).toNat) r stOk []) := by
  refine congrArg Host.Outcome.next ((command_passes hT rfl ?_).trans ?_)
  · simp [hrsv, hidle, hmode]
  · rw [if_pos hmode, settle_okWith]

theorem exec_lineReference_kept (hT : Turn 0x010C e s r)
    (hrsv : rsvOk e [3, 0, allBits, allBits, allBits, 0, allBits, allBits] = true) (hidle : anyActive s = false)
    (hmode : fld (pw e 0) 0 2 = 2 ∨ (fld (pw e 0) 0 2 = 1 ∧ masterPos s < pqS e 6)) :
    exec (.lineReference e) s = .next (finish { s with ftb := { s.ftb with lineRef := some (lineRefOf e) } } r stOk []) := by
  refine congrArg Host.Outcome.next ((command_passes hT rfl ?_).trans ?_)
  · rcases hmode with h2 | ⟨h1, hahead⟩
    · simp [hrsv, hidle, h2]
    · simp [hrsv, hidle, h1, hahead]
  · rw [if_neg (by omega), settle_okWith]
    rfl

/-- The timebase that a line reference in force leaves. -/
theorem applyReference_ftb (s : State) (lamI : Int) (lamF : Nat) : (applyReference s lamI lamF).ftb =
    (referencePut s lamI lamF).ftb := by
  rw [applyReference_eq]
  exact ((raise_within _ _ _).untouched State.ftb).trans ((linebaseSent_within _ lamI).untouched State.ftb)

/-! PACE_SET (R174). -/

/-- The state in which PACE_SET's target rate is put. -/
def paceTargetPut (s : State) (e : Entry) : State :=
  { advancePacing s (nowUnits s) with
    ftb := { (advancePacing s (nowUnits s)).ftb with rateTarget := (pw e 0).toNat, paceAt := nowUnits s } }

theorem exec_paceSet (hT : Turn 0x010D e s r) (hrsv : rsvOk e [allBits] = true) (hrate : (pw e 0).toNat ≤ 819200000)
    (hmode : s.webCfg.pacing = true) : exec (.paceSet e) s = .next (finish
      (if servitor s then s else setPosFlag (advancePacing (paceTargetPut s e) (nowUnits s)) 3) r stOk []) := by
  refine congrArg Host.Outcome.next ((command_passes hT rfl ?_).trans rfl)
  simp [hrsv, hmode, hrate]

/-- The pacing brought to an instant keeps the target rate, the line counter and the master's mode. -/
theorem advancePacing_kept (s : State) (t : Nat) : (advancePacing s t).ftb.rateTarget = s.ftb.rateTarget ∧
    (advancePacing s t).ftb.hwm = s.ftb.hwm ∧ (advancePacing s t).webCfg = s.webCfg :=
  ⟨(advancePacing_within s t).untouched fun u => u.ftb.rateTarget, advancePacing_hwm s t,
    (advancePacing_within s t).untouched State.webCfg⟩

/-! CUE_CONFIG, CUE_READ and ENC_CONFIG (R152, R168, R169). -/

/-- The state in which ENC_CONFIG's fields are taken. -/
def encSet (s : State) (e : Entry) : State :=
  { s with encs := modAt (fun x =>
    { x with filt := fld (pw e 0) 12 8, indexZero := bitOf (pw e 0) 3, indexQual := bitOf (pw e 0) 2
             invert := bitOf (pw e 0) 1, enable := bitOf (pw e 0) 0 }) s.encs (fld (pw e 0) 28 4) }

theorem exec_encConfig (hT : Turn 0x010A e s r) (hrsv : rsvOk e [0xF00FF00F] = true) (hch : fld (pw e 0) 28 4 < 12) :
    exec (.encConfig e) s = .next (finish (encSet s e) r stOk []) := by
  refine congrArg Host.Outcome.next ((command_passes hT rfl (check_passes ?_)).trans rfl)
  exact inForm hrsv (by omega)

/-- The state in which CUE_CONFIG's fields are taken. -/
def cueSet (s : State) (e : Entry) : State :=
  { s with cues := modAt (fun c =>
    { c with edge := fld (pw e 0) 28 2, event := bitOf (pw e 0) 27, filt := fld (pw e 0) 16 8
             maskLines := fld (pw e 0) 0 16 }) s.cues (fld (pw e 0) 30 2) }

theorem exec_cueConfig (hT : Turn 0x010E e s r) (hrsv : rsvOk e [0xF8FFFFFF] = true) :
    exec (.cueConfig e) s = .next (finish (cueSet s e) r stOk []) := by
  refine congrArg Host.Outcome.next ((command_passes hT rfl (check_passes ?_)).trans rfl)
  simp [hrsv]

/-- The captures that wait on the channel a CUE_READ names. -/
def cuesWaiting (s : State) (e : Entry) : List Cue := (s.cues.getD (fld (pw e 0) 0 2) CueCh.reset).queue

/-- The state in which a CUE_READ's captures are written, and gone from the queue. -/
def cuesTaken (s : State) (e : Entry) : State :=
  { s with
    host := (hostPutDws s (pq e 2) (((cuesWaiting s e).take (pw e 1).toNat).flatMap cueDws)).host
    cues := modAt (fun c => { c with queue := c.queue.drop (pw e 1).toNat }) s.cues (fld (pw e 0) 0 2) }

theorem exec_cueRead (hT : Turn 0x010F e s r) (hrsv : rsvOk e [3, allBits, allBits, allBits] = true)
    (hlo : 1 ≤ (pw e 1).toNat) (hhi : (pw e 1).toNat ≤ 16) : exec (.cueRead e) s = .next (finish (cuesTaken s e) r stOk
      (it ((cuesWaiting s e).take (pw e 1).toNat).length)) := by
  refine congrArg Host.Outcome.next ((command_passes hT rfl (check_passes ?_)).trans rfl)
  exact inForm hrsv (by omega)

/-! PULSE_CONFIG and FIRE_TRIM (R171, R172). -/

/-- The state in which PULSE_CONFIG's fields are taken. -/
def pulseSet (s : State) (e : Entry) : State :=
  { s with pulses := modAt (fun p =>
      { p with enable := bitOf (pw e 0) 29, pol := bitOf (pw e 0) 28, src := bitOf (pw e 0) 27, div := fld (pw e 0) 0 16 + 1
               phase := fld (pw e 1) 16 16, width := fld (pw e 1) 8 8, delay := fld (pw e 1) 0 8
               countMax := some (masterPos s), count := 0 }) s.pulses (fld (pw e 0) 30 2) }

/-- The cameras that trigger on an output: their alignment is void once it is configured (R234). -/
def camerasOf (s : State) (k : Nat) : List Nat :=
  match s.asy.setup with
  | some a => (List.range 4).filter fun c => (a.cams.map CamCfg.pulse)[c]? == some k
  | none => []

theorem exec_pulseConfig (hT : Turn 0x0110 e s r) (hrsv : rsvOk e [0xF800FFFF, allBits] = true) (hwidth : 2 ≤ fld (pw e 1) 8 8)
    (hphase : bitOf (pw e 0) 27 = true ∨ fld (pw e 1) 16 16 ≤ fld (pw e 0) 0 16) :
    exec (.pulseConfig e) s = .next (finish
      ((camerasOf s (fld (pw e 0) 30 2)).foldl unalignCamera (pulseSet s e)) r stOk []) := by
  refine congrArg Host.Outcome.next ((command_passes hT rfl (check_passes ?_)).trans rfl)
  rcases hphase with hsrc | hle
  · simp [hrsv, hsrc, Nat.not_lt.mpr hwidth]
  · simp [hrsv, hle, Nat.not_lt.mpr hwidth]

theorem foldl_unalignCamera_pulses (ks : List Nat) (s : State) : (ks.foldl unalignCamera s).pulses = s.pulses :=
  (Within.foldl unalignCamera_within ks s).untouched State.pulses

/-- The state in which FIRE_TRIM's trim is in force, no job open. -/
def trimPut (s : State) (e : Entry) : State :=
  { s with web := { s.web with trims :=
    { base := mapSet 0 s.web.trims.base (fld (pw e 0) 26 6) (signed 8 (fld (pw e 0) 0 8))
      changes := s.web.trims.changes.filter fun c => c.1 != fld (pw e 0) 26 6 } } }

/-- The state in which FIRE_TRIM's trim waits for its web line. -/
def trimTimed (s : State) (e : Entry) : State :=
  { s with web := { s.web with
    trims := timedPut s.web.trims (fld (pw e 0) 26 6) (pqS e 2) (signed 8 (fld (pw e 0) 0 8)) } }

theorem exec_fireTrim_noJob (hT : Turn 0x0111 e s r) (hrsv : rsvOk e [0xFC0000FF, 0, allBits, allBits] = true)
    (hmod : fld (pw e 0) 26 6 ≤ 39) (hjob : s.job = none) :
    exec (.fireTrim e) s = .next (finish (trimPut s e) r stOk []) := by
  refine congrArg Host.Outcome.next ((command_passes hT rfl ?_).trans ?_)
  · simp [hrsv, hmod, hjob]
  · rw [if_pos (by simp [hjob]), settle_okWith]
    rfl

theorem exec_fireTrim_job (hT : Turn 0x0111 e s r) (hrsv : rsvOk e [0xFC0000FF, 0, allBits, allBits] = true)
    (hmod : fld (pw e 0) 26 6 ≤ 39) (hjob : s.job ≠ none)
    (hroom : phasesFull s ((pimsInUse s (fld (pw e 0) 26 6)).map fun q => (fld (pw e 0) 26 6, q)) (pqS e 2) = false) :
    exec (.fireTrim e) s = .next (finish ((pimsInUse s (fld (pw e 0) 26 6)).foldl
      (fun u q => sendRowsFrom u (fld (pw e 0) 26 6) q (pqS e 2)) (trimTimed s e)) r stOk []) := by
  refine congrArg Host.Outcome.next ((command_passes hT rfl ?_).trans ?_)
  · simp [hrsv, hmod, hroom]
  · rw [if_neg (by simpa using hjob), settle_okWith]
    rfl

theorem foldl_sendRowsFrom_web (s : State) (m : Nat) (n : Int) (qs : List Nat) :
    (qs.foldl (fun u q => sendRowsFrom u m q n) s).web = s.web :=
  (Within.foldl (F := phased) (fun u q => sendRowsFrom_within u m q n) qs s).untouched State.web

end Sys2Proof.Machine
end

section
/-! SUPPORT. The commands of the web complete with their effect (R152 to R174). -/
set_option Elab.async false
namespace Sys2Proof.Machine

theorem fld_lt {n : Nat} (w : BitVec n) (lo len : Nat) : fld w lo len < 2 ^ len := Nat.mod_lt _ (Nat.two_pow_pos len)

section

variable {e : Entry} {s : State} {r : InFlight}

theorem webConfig_answers (hT : Turn 0x0109 e s r) (hform : webFormatOk e = true)
    (hfree : anyActive s = false ∨
      ((webCfgOf s e).pacing = s.webCfg.pacing ∧ (webCfgOf s e).stillTime = s.webCfg.stillTime ∧
       (webCfgOf s e).spdAvg = s.webCfg.spdAvg ∧ (webCfgOf s e).jitterAllow = s.webCfg.jitterAllow)) :
    Answers (.webConfig e) s fun t => ∃ u : State, t = finish u r stOk [] ∧
      (u.webCfg = webCfgOf s e ∧ u.ftb.hwm = s.ftb.hwm ∧
        (bitOf (pw e 0) 31 ≠ s.webCfg.pacing → u.ftb.speed = 0 ∧ u.ftb.projected = [] ∧ u.ftb.rateTarget = 0)) := by
  refine completes_of_exec (exec_webConfig hT hform hfree) ?_
  split
  · next hsame => exact ⟨rfl, advancePacing_hwm s _, fun hchanged => absurd hsame hchanged⟩
  · rw [modeTaken_ftb]
    exact ⟨rfl, advancePacing_hwm s _, fun _ => ⟨rfl, rfl, rfl⟩⟩

theorem encConfig_answers (hT : Turn 0x010A e s r) (hrsv : rsvOk e [0xF00FF00F] = true)
    (hch : fld (pw e 0) 28 4 < s.encs.length) (hlen : s.encs.length = 12) :
    Answers (.encConfig e) s fun t => ∃ u : State, t = finish u r stOk [] ∧ ∀ k, k < 12 → u.encs.getD k Enc.reset =
      if k = fld (pw e 0) 28 4 then
        { s.encs.getD k Enc.reset with
          filt := fld (pw e 0) 12 8, indexZero := bitOf (pw e 0) 3, indexQual := bitOf (pw e 0) 2,
          invert := bitOf (pw e 0) 1, enable := bitOf (pw e 0) 0 }
      else s.encs.getD k Enc.reset := by
  refine completes_of_exec (exec_encConfig hT hrsv (hlen ▸ hch)) fun k _ => ?_
  rw [encSet, modAt_getD _ _ _ _ _ hch]
  simp only [eq_comm]

theorem cueConfig_answers (hT : Turn 0x010E e s r) (hrsv : rsvOk e [0xF8FFFFFF] = true) (hlen : s.cues.length = 4) :
    Answers (.cueConfig e) s fun t => ∃ u : State, t = finish u r stOk [] ∧ ∀ k, k < 4 → u.cues.getD k CueCh.reset =
      if k = fld (pw e 0) 30 2 then
        { s.cues.getD k CueCh.reset with
          edge := fld (pw e 0) 28 2, event := bitOf (pw e 0) 27, filt := fld (pw e 0) 16 8, maskLines := fld (pw e 0) 0 16 }
      else s.cues.getD k CueCh.reset := by
  have hch : fld (pw e 0) 30 2 < s.cues.length := by
    rw [hlen]
    exact fld_lt (pw e 0) 30 2
  refine completes_of_exec (exec_cueConfig hT hrsv) fun k _ => ?_
  rw [cueSet, modAt_getD _ _ _ _ _ hch]
  simp only [eq_comm]

/-- GEAR_SET's positioned entries are pending, and the last of those in force at once is the ratio (R158). -/
theorem gearSet_leaves (s : State) (e : Entry) :
    let u := if (gearsAtOnce s e).isEmpty then gearsForced s e else setPosFlag (gearsForced s e) 2
    u.ftb.gears = gearsPending s e ∧ u.ftb.lamI = s.ftb.lamI ∧
      (servitor s = true ∨ (gearsRead s e).all (fun x => !x.2.2) = true → u.ftb.g = s.ftb.g) ∧
      (servitor s = false → ∀ x, ((gearsRead s e).filter fun y => y.2.2).getLast? = some x → u.ftb.g = x.2.1) := by
  intro u
  have hflag : u.ftb = (gearsForced s e).ftb := by
    unfold u
    split <;> rfl
  have hftb := hflag.trans (gearsForced_ftb s e)
  rw [hftb]
  refine ⟨rfl, rfl, fun hnone => ?_, fun hgaffer x hlast => ?_⟩
  · have hempty : gearsAtOnce s e = [] := by
      rcases hnone with hserv | hplaced
      · simp [gearsAtOnce, hserv]
      · simpa [gearsAtOnce, List.filter_eq_nil_iff, List.all_eq_true] using fun _ => hplaced
    rw [hempty]
    rfl
  · have hall : gearsAtOnce s e = (gearsRead s e).filter fun y => y.2.2 := by simp [gearsAtOnce, hgaffer]
    rw [hall, hlast]
    rfl

theorem lineReference_answers (hT : Turn 0x010C e s r)
    (hrsv : rsvOk e [3, 0, allBits, allBits, allBits, 0, allBits, allBits] = true) (hidle : anyActive s = false)
    (hmode : fld (pw e 0) 0 2 = 0) :
    Answers (.lineReference e) s fun t => ∃ u : State, t = finish u r stOk [] ∧
      (u.ftb.lamI = pqS e 2 ∧ u.ftb.lamF = (pw e 4).toNat ∧ lineCounter u = pqS e 2 ∧ u.ftb.reversed = false ∧
        u.ftb.speed = 0 ∧ u.ftb.lineRef = none) := by
  refine completes_of_exec (exec_lineReference_now hT hrsv hidle hmode) ?_
  rw [lineCounter, applyReference_ftb]
  exact ⟨rfl, rfl, rfl, rfl, rfl, rfl⟩

theorem paceSet_answers (hT : Turn 0x010D e s r) (hrsv : rsvOk e [allBits] = true) (hrate : (pw e 0).toNat ≤ 819200000)
    (hmode : s.webCfg.pacing = true) (hgaffer : servitor s = false) :
    Answers (.paceSet e) s fun t => ∃ u : State, t = finish u r stOk [] ∧
      (u.ftb.rateTarget = (pw e 0).toNat ∧ u.ftb.hwm = s.ftb.hwm ∧ u.webCfg = s.webCfg) := by
  refine completes_of_exec (exec_paceSet hT hrsv hrate hmode) ?_
  obtain ⟨-, hhwm, hcfg⟩ := advancePacing_kept s (nowUnits s)
  obtain ⟨htarget, hhwm', hcfg'⟩ := advancePacing_kept (paceTargetPut s e) (nowUnits s)
  rw [if_neg (by simp [hgaffer])]
  exact ⟨htarget, hhwm'.trans hhwm, hcfg'.trans hcfg⟩

theorem cueRead_answers (hT : Turn 0x010F e s r) (hrsv : rsvOk e [3, allBits, allBits, allBits] = true)
    (hlo : 1 ≤ (pw e 1).toNat) (hhi : (pw e 1).toNat ≤ 16) (hlen : s.cues.length = 4) :
    Answers (.cueRead e) s fun t => ∃ u : State,
      t = finish u r stOk [BitVec.ofNat 32 ((cuesWaiting s e).take (pw e 1).toNat).length] ∧
      (u.cues.getD (fld (pw e 0) 0 2) CueCh.reset).queue = (cuesWaiting s e).drop (pw e 1).toNat ∧
      u.host = (hostPutDws s (pq e 2) (((cuesWaiting s e).take (pw e 1).toNat).flatMap cueDws)).host := by
  have hch : fld (pw e 0) 0 2 < s.cues.length := by
    rw [hlen]
    exact fld_lt (pw e 0) 0 2
  have hexec := exec_cueRead hT hrsv hlo hhi
  rw [it_natCast] at hexec
  refine completes_of_exec hexec ⟨?_, rfl⟩
  rw [cuesTaken, modAt_getD_self _ _ _ _ hch]
  rfl

theorem pulseConfig_answers (hT : Turn 0x0110 e s r) (hrsv : rsvOk e [0xF800FFFF, allBits] = true)
    (hwidth : 2 ≤ fld (pw e 1) 8 8) (hphase : bitOf (pw e 0) 27 = true ∨ fld (pw e 1) 16 16 ≤ fld (pw e 0) 0 16)
    (hlen : s.pulses.length = 4) :
    Answers (.pulseConfig e) s fun t => ∃ u : State, t = finish u r stOk [] ∧
      (let p := u.pulses.getD (fld (pw e 0) 30 2) Pulse.reset
       p.enable = bitOf (pw e 0) 29 ∧ p.pol = bitOf (pw e 0) 28 ∧ p.src = bitOf (pw e 0) 27 ∧
       p.div = fld (pw e 0) 0 16 + 1 ∧ p.phase = fld (pw e 1) 16 16 ∧ p.width = fld (pw e 1) 8 8 ∧
       p.delay = fld (pw e 1) 0 8 ∧ p.count = 0) := by
  have hk : fld (pw e 0) 30 2 < s.pulses.length := by
    rw [hlen]
    exact fld_lt (pw e 0) 30 2
  refine completes_of_exec (exec_pulseConfig hT hrsv hwidth hphase) ?_
  rw [foldl_unalignCamera_pulses, pulseSet, modAt_getD_self _ _ _ _ hk]
  exact ⟨rfl, rfl, rfl, rfl, rfl, rfl, rfl, rfl⟩

/-- WEB_STATUS changes nothing; its record begins with the line position now (R404). -/
theorem exec_webStatus (hT : Turn 0x0114 e s r) (hrsv : rsvOk e [] = true) :
    ∃ res : List Dword, exec (.webStatus e) s = .next (finish s r stOk res) ∧
      res.take 2 = dwordsOf (unsignedOf 64 (lamNow s (nowUnits s) / 2 ^ 32)) := by
  refine ⟨_, congrArg Host.Outcome.next ((command_passes hT rfl (check_passes ?_)).trans rfl), rfl⟩
  simp [hrsv]

end

/-- Settles O11: each command at its turn passes its checks, and its effect is read off the state that it leaves. -/
theorem webConfiguration : Obligations.WebConfiguration := by
  intro e s r done
  refine ⟨webConfig_answers, encConfig_answers, ?_, fun hT hrsv hidle => ⟨lineReference_answers hT hrsv hidle, ?_⟩,
    fun hT hrsv hrate hmode => ⟨fun hserv => ?_, paceSet_answers hT hrsv hrate hmode⟩, cueConfig_answers, cueRead_answers,
    pulseConfig_answers, fun hT hrsv hmod => ⟨fun hjob => ?_, fun hjob hroom => ?_⟩, exec_webStatus⟩
  · intro n es pos gears hT hrsv halign hread hok hasc hahead hroom hmode
    exact completes_of_exec (exec_gearSet hT hrsv halign hread hok hasc hahead hroom hmode) (gearSet_leaves s e)
  · exact exec_lineReference_kept hT hrsv hidle
  · rw [exec_paceSet hT hrsv hrate hmode, if_pos hserv]
  · exact completes_of_exec (exec_fireTrim_noJob hT hrsv hmod hjob) ⟨rfl, rfl⟩
  · refine completes_of_exec (exec_fireTrim_job hT hrsv hmod hjob hroom) ?_
    rw [foldl_sendRowsFrom_web]
    rfl

end Sys2Proof.Machine
end

section
/-! SUPPORT. What the events of the web leave: positions and captures of the encoders, the ticks, the estimate, the cues
(R150 to R174). -/
set_option Elab.async false
namespace Sys2Proof.Machine

section

variable {s : State}

/-! Encoders (R150, R151, R153). -/

/-- A place of a list that is there, changed. -/
theorem modAt_getD_of_some {α : Type} {l : List α} {i : Nat} {x : α} (h : l[i]? = some x) (f : α → α) (d : α) :
    (modAt f l i).getD i d = f x := by
  obtain ⟨hi, hx⟩ := List.getElem?_eq_some_iff.mp h
  simp [modAt, hi, hx]

theorem modAt_getElem?_of_some {α : Type} {l : List α} {i : Nat} {x : α} (h : l[i]? = some x) (f : α → α) :
    (modAt f l i)[i]? = some (f x) := by
  simp [modAt, h]

/-- A channel whose position has moved by one count. -/
def movedEnc (fwd : Bool) (e : Enc) : Enc :=
  { e with pos := wrapS 64 (e.pos + if fwd then 1 else -1), total := wrapS 64 (e.total + if fwd then 1 else -1) }

/-- A channel whose inputs were seen at levels `a` and `b`. -/
def seenEnc (a b : Bool) (e : Enc) : Enc := { e with a := a, b := b, i := false }

/-- The state in which a channel's inputs were seen at levels `a` and `b`. -/
def levelsSeen (s : State) (ch : Nat) (a b : Bool) : State := { s with encs := modAt (seenEnc a b) s.encs ch }

/-- How far the inputs have gone round the four Gray codes. -/
def grayStep (e : Enc) (a b : Bool) : Nat := (grayIndex a b + 4 - grayIndex e.a e.b) % 4

/-- A count of channel 0 changes no position but that channel's. -/
theorem masterCount_encs (s : State) (fwd : Bool) (t : Nat) :
    (masterCount s fwd t).encs = modAt (movedEnc fwd) s.encs 0 := by
  have hgear : (gearAt s (masterPos s)).encs = s.encs := (gearAt_within s _).untouched State.encs
  have hweb (u : State) : (webCount u fwd t).encs = u.encs := (webCount_within u fwd t).untouched State.encs
  have hpast (u : State) : (countPulses (refAtCount u (masterPos s) t) t).encs = u.encs :=
    ((countPulses_within _ t).untouched State.encs).trans ((refAtCount_within u _ t).untouched State.encs)
  have hcheck (u : State) : (webCheck u).encs = u.encs := (webCheck_within u).untouched State.encs
  cases fwd with
  | true => exact (hcheck _).trans ((hpast _).trans ((hweb _).trans (congrArg (modAt (movedEnc true) · 0) hgear)))
  | false => exact (hcheck _).trans (hweb _)

/-- An input that has not held its level long enough is not seen (R150). -/
theorem encCount_unheld {ch : Nat} {e : Enc} {t held : Nat} (a b : Bool) (hch : s.encs[ch]? = some e) (hheld : held ≤ e.filt) :
    exec (.encCount ch a b ⟨t, held⟩) s = .next s := by
  show execEncCount ch a b ⟨t, held⟩ s = .next s
  unfold execEncCount
  rw [hch]
  exact if_pos (by simp [filtered, hheld])

theorem indexRise_unheld {ch : Nat} {e : Enc} {t held : Nat} (hch : s.encs[ch]? = some e) (hheld : held ≤ e.filt) :
    exec (.indexRise ch ⟨t, held⟩) s = .next s := by
  show execIndexRise ch ⟨t, held⟩ s = .next s
  unfold execIndexRise
  rw [hch]
  exact if_pos (by simp [filtered, hheld])

/-- What a legal transition leads to: the count of the master, or the move of another channel, channel 1 in the web's check. -/
def legalCounted (s : State) (ch : Nat) (fwd : Bool) (t : Nat) : State :=
  if ch = 0 then masterCount s fwd t
  else if ch = 1 then
    { movePos s ch fwd with webCfg := { (movePos s ch fwd).webCfg with
      winCheck := (movePos s ch fwd).webCfg.winCheck + (if fwd then 1 else -1) } }
  else movePos s ch fwd

theorem legalCounted_encs (s : State) (ch : Nat) (fwd : Bool) (t : Nat) :
    (legalCounted s ch fwd t).encs = modAt (movedEnc fwd) s.encs ch := by
  unfold legalCounted
  split
  · next h => rw [masterCount_encs, h]
  · split <;> rfl

/-- An input seen on an enabled channel, by how far the inputs went round (R150). -/
theorem exec_encCount {ch : Nat} {e : Enc} {t held : Nat} (a b : Bool) (hawake : awake s = true) (hch : s.encs[ch]? = some e)
    (hen : e.enable = true) (hheld : e.filt < held) : exec (.encCount ch a b ⟨t, held⟩) s = .next
      (if grayStep e a b = 0 then levelsSeen s ch a b
       else if grayStep e a b = 2 then count (levelsSeen s ch a b) (cnum 3 ch)
       else legalCounted (levelsSeen s ch a b) ch ((grayStep e a b == 1) != e.invert) t) := by
  show execEncCount ch a b ⟨t, held⟩ s = _
  unfold execEncCount
  rw [hch]
  refine (if_neg (by simp [hawake, filtered, hheld])).trans ?_
  by_cases h0 : grayStep e a b = 0
  · rw [if_pos h0]
    exact if_pos (.inr h0)
  · rw [if_neg h0]
    refine (if_neg (by simpa [hen, grayStep] using h0)).trans ?_
    by_cases h2 : grayStep e a b = 2
    · rw [if_pos h2]
      exact if_pos h2
    · rw [if_neg h2]
      refine (if_neg h2).trans ?_
      unfold legalCounted
      split
      · next hmaster => subst hmaster; rfl
      · split <;> rfl

/-- A legal transition moves the position by one count, down where INVERT and the direction say so (R150, R153). -/
theorem encCount_legal {ch : Nat} {e : Enc} {t held : Nat} (a b : Bool) (hawake : awake s = true) (hch : s.encs[ch]? = some e)
    (hen : e.enable = true) (hheld : e.filt < held) (hstep : grayStep e a b = 1 ∨ grayStep e a b = 3) :
    Answers (.encCount ch a b ⟨t, held⟩) s fun u =>
      (u.encs.getD ch Enc.reset).pos = wrapS 64 (if (grayStep e a b == 1) = e.invert then e.pos - 1 else e.pos + 1) ∧
      (u.encs.getD ch Enc.reset).a = a ∧ (u.encs.getD ch Enc.reset).b = b := by
  have hexec := exec_encCount a b hawake hch hen hheld (t := t)
  rw [if_neg (by omega : ¬ grayStep e a b = 0), if_neg (by omega : ¬ grayStep e a b = 2)] at hexec
  refine ⟨_, hexec, ?_⟩
  beta_reduce
  rw [legalCounted_encs, levelsSeen, modAt_getD_of_some (modAt_getElem?_of_some hch (seenEnc a b))]
  refine ⟨?_, rfl, rfl⟩
  cases hdir : (grayStep e a b == 1) <;> cases hinv : e.invert <;> simp [movedEnc, seenEnc, sub_eq_add_neg]

/-- An illegal transition counts and moves nothing (R150). -/
theorem encCount_illegal {ch : Nat} {e : Enc} {t held : Nat} (a b : Bool) (hawake : awake s = true)
    (hch : s.encs[ch]? = some e) (hen : e.enable = true) (hheld : e.filt < held) (hstep : grayStep e a b = 2) :
    Answers (.encCount ch a b ⟨t, held⟩) s fun u =>
      (u.encs.getD ch Enc.reset).pos = e.pos ∧ u.ftb = s.ftb ∧ u.mot = s.mot := by
  have hexec := exec_encCount a b hawake hch hen hheld (t := t)
  have hcount := count_within (levelsSeen s ch a b) (cnum 3 ch)
  rw [if_neg (by omega : ¬ grayStep e a b = 0), if_pos hstep] at hexec
  refine ⟨_, hexec, ?_, hcount.untouched State.ftb, hcount.untouched State.mot⟩
  rw [hcount.untouched State.encs, levelsSeen, modAt_getD_of_some hch]
  rfl

theorem homeIndex_within (s : State) (ch : Nat) :
    Within (fun s t => { s with mot := { s.mot with axes := t.mot.axes } }) s (homeIndex s ch) := by
  refine .ite (.refl s) (.foldl (fun t i => ?_) _ s)
  dsimp only
  split
  · exact .ite rfl (.refl t)
  · exact .refl t

/-- A channel whose index has captured the position `pos`, and set it to 0 where `zero`. -/
def capturedEnc (pos : Int) (zero : Bool) (x : Enc) : Enc := { x with index := pos, pos := if zero then 0 else x.pos }

/-- The state in which a channel's index is seen high. -/
def indexSeen (s : State) (ch : Nat) : State := { s with encs := modAt (fun x => { x with i := true }) s.encs ch }

/-- The state once an index is captured and counted, before the axes that home on it. -/
def indexCaptured (s : State) (ch : Nat) (e : Enc) : State :=
  count { indexSeen s ch with
    encs := modAt (capturedEnc e.pos (e.indexZero && decide (2 ≤ ch))) (indexSeen s ch).encs ch } (cnum 3 (12 + ch))

theorem exec_indexRise {ch : Nat} {e : Enc} {t held : Nat} (hawake : awake s = true) (hch : s.encs[ch]? = some e)
    (hen : e.enable = true) (hheld : e.filt < held) (hqual : e.indexQual = true → e.a = true ∧ e.b = true)
    (href : s.ftb.lineRef = none) :
    exec (.indexRise ch ⟨t, held⟩) s = .next (homeIndex (indexCaptured s ch e) ch) := by
  have hcaptured : (indexCaptured s ch e).ftb.lineRef = none :=
    ((count_within _ _).untouched fun u => u.ftb.lineRef).trans href
  have hkept : (homeIndex (indexCaptured s ch e) ch).ftb.lineRef = none :=
    ((homeIndex_within _ ch).untouched fun u => u.ftb.lineRef).trans hcaptured
  have hseen : ¬ ((!e.enable) = true ∨ (e.indexQual = true ∧ ¬ (e.a = true ∧ e.b = true))) := by
    rintro (hoff | ⟨hq, hno⟩)
    · simp [hen] at hoff
    · exact hno (hqual hq)
  show execIndexRise ch ⟨t, held⟩ s = _
  unfold execIndexRise
  rw [hch]
  refine (if_neg (by simp [hawake, filtered, hheld])).trans ((if_neg hseen).trans ?_)
  dsimp only
  split
  · next r hr => exact absurd (hkept.symm.trans hr) nofun
  · rfl

/-- An index rise that is qualified captures the position, and sets it to 0 on channels 2 to 11 with INDEX_ZERO (R151). -/
theorem indexRise_captures {ch : Nat} {e : Enc} {t held : Nat} (hawake : awake s = true) (hch : s.encs[ch]? = some e)
    (hen : e.enable = true) (hheld : e.filt < held) (hqual : e.indexQual = true → e.a = true ∧ e.b = true)
    (href : s.ftb.lineRef = none) :
    Answers (.indexRise ch ⟨t, held⟩) s fun u => (u.encs.getD ch Enc.reset).index = e.pos ∧
      (u.encs.getD ch Enc.reset).pos = if e.indexZero = true ∧ 2 ≤ ch then 0 else e.pos := by
  refine ⟨_, exec_indexRise hawake hch hen hheld hqual href, ?_⟩
  have hencs : (homeIndex (indexCaptured s ch e) ch).encs =
      modAt (capturedEnc e.pos (e.indexZero && decide (2 ≤ ch))) (indexSeen s ch).encs ch :=
    ((homeIndex_within _ ch).untouched State.encs).trans ((count_within _ _).untouched State.encs)
  beta_reduce
  rw [hencs, indexSeen, modAt_getD_of_some (modAt_getElem?_of_some hch _)]
  simp [capturedEnc]

/-! Ticks (R153, R161 to R163). -/

/-- What left the chip at `t` leaves the timebase but for the instant of the last tick. -/
theorem leaveTick_ftb (s : State) (n : Int) (t : Nat) : (leaveTick s n t).ftb = { s.ftb with lastTick := some t } := by
  have hpulse (u : State) (k : Nat) : (match u.pulses[k]? with
      | some p => if p.enable && !p.src && decide (n % (p.div : Int) = p.phase) then emitPulse u k t n else u
      | none => u).ftb = u.ftb := by
    split
    · split
      · exact (emitPulse_within u k t n).untouched State.ftb
      · rfl
    · rfl
  exact (foldl_keeps State.ftb _ hpulse _ _).trans ((sendTick_within _ n).untouched State.ftb)

theorem annealWindowOver_ftb (s : State) : (annealWindowOver s).ftb = s.ftb := by
  unfold annealWindowOver
  split
  · split
    · exact (count_within _ _).untouched State.ftb
    · rfl
  · rfl

/-- Reporting a held tick leaves the timebase but for the mark that it was reported (R162). -/
theorem reportHeld_ftb (s : State) : ∃ b, (reportHeld s).ftb = { s.ftb with tickLimitRaised := b } := by
  unfold reportHeld
  dsimp only
  split
  · exact ⟨true, (raiseIf_within _ _ _ _).untouched State.ftb⟩
  · refine ⟨false, ((raiseIf_within _ _ _ _).untouched State.ftb).trans ?_⟩
    rw [(oncePrinting_within s 0x0308).untouched State.ftb]

/-- The state in which the line counter has taken the line of a tick, its overspeed and the anneal's window seen to. -/
def lineTaken (s : State) (line : Int) : State :=
  annealWindowOver (countOverspeed { s with ftb := { s.ftb with hwm := wrapS 64 line } })

theorem lineTaken_ftb (s : State) (line : Int) : (lineTaken s line).ftb = { s.ftb with hwm := wrapS 64 line } :=
  annealWindowOver_ftb _

/-- A tick at `t` is closer than 1.25 us to the last one, or others are held (R161, R162). -/
def mustHold (s : State) (t : Nat) : Prop :=
  s.ftb.heldTicks ≠ [] ∨ ∃ l, s.ftb.lastTick = some l ∧ t < l + tickSpacing

/-- The state in which a tick for line `n` has joined the held ones and is counted. -/
def tickQueued (s : State) (n : Int) : State :=
  count { s with ftb := { s.ftb with heldTicks := s.ftb.heldTicks ++ [n] } } (cnum 3 30)

/-- The state in which the report of held ticks is armed anew once no page prints (R162). -/
def tickFree (s : State) : State :=
  { s with ftb := { s.ftb with tickLimitRaised := s.ftb.tickLimitRaised && (printingPages s).isEmpty } }

theorem issueTick_of_mustHold {t : Nat} (line : Int) (h : mustHold s t) :
    issueTick s line t = queueLimit (reportHeld (tickQueued (lineTaken s line) (wrapS 64 line))) := by
  refine if_pos (Bool.or_eq_true_iff.mpr ?_)
  rcases h with hheld | ⟨l, hlast, hclose⟩
  · right
    simpa using hheld
  · left
    rw [hlast]
    exact decide_eq_true hclose

theorem issueTick_of_not_mustHold {t : Nat} (line : Int) (h : ¬ mustHold s t) :
    issueTick s line t = leaveTick (tickFree (lineTaken s line)) (wrapS 64 line) t := by
  obtain ⟨hnone, hfar⟩ := not_or.mp h
  refine if_neg fun hc => ?_
  rcases Bool.or_eq_true_iff.mp hc with hclose | hheld
  · split at hclose
    · next l hlast => exact hfar ⟨l, hlast, of_decide_eq_true hclose⟩
    · cases hclose
  · exact hnone (by simpa using hheld)

/-- A tick that must be held joins the queue; the last tick is the one before it. -/
theorem issueTick_held {t : Nat} (line : Int) (h : mustHold s t) : ∃ b, (issueTick s line t).ftb =
    { s.ftb with hwm := wrapS 64 line, heldTicks := s.ftb.heldTicks ++ [wrapS 64 line], tickLimitRaised := b } := by
  obtain ⟨b, hreport⟩ := reportHeld_ftb (tickQueued (lineTaken s line) (wrapS 64 line))
  refine ⟨b, ?_⟩
  rw [issueTick_of_mustHold line h, (queueLimit_within _).untouched State.ftb, hreport, tickQueued,
    (count_within _ _).untouched State.ftb, lineTaken_ftb]

/-- A tick that need not be held leaves the chip at its instant. -/
theorem issueTick_left {t : Nat} (line : Int) (h : ¬ mustHold s t) : ∃ b, (issueTick s line t).ftb =
    { s.ftb with hwm := wrapS 64 line, lastTick := some t, tickLimitRaised := b } := by
  refine ⟨s.ftb.tickLimitRaised && (printingPages (lineTaken s line)).isEmpty, ?_⟩
  rw [issueTick_of_not_mustHold line h, leaveTick_ftb, tickFree, lineTaken_ftb]

/-- The line counter takes the line of a tick that is issued, whether it is held or leaves. -/
theorem issueTick_line (s : State) (line : Int) (t : Nat) :
    lineCounter (issueTick s line t) = wrapS 64 line ∧ (issueTick s line t).ftb.lamI = s.ftb.lamI ∧
      (issueTick s line t).ftb.projected = s.ftb.projected := by
  by_cases h : mustHold s t
  · obtain ⟨b, hftb⟩ := issueTick_held line h
    rw [lineCounter, hftb]
    exact ⟨rfl, rfl, rfl⟩
  · obtain ⟨b, hftb⟩ := issueTick_left line h
    rw [lineCounter, hftb]
    exact ⟨rfl, rfl, rfl⟩

theorem lineTick_answers {t at_ : Nat} {n : Int} {rest : List (Int × Nat)} (hawake : awake s = true)
    (hproj : s.ftb.projected = (n, at_) :: rest) (hdue : at_ ≤ t) :
    Answers (.lineTick t) s fun u => lineCounter u = wrapS 64 n ∧ u.ftb.projected = rest ∧
      (s.ftb.heldTicks = [] → (∀ l, s.ftb.lastTick = some l → l + 32000 ≤ at_) →
        u.ftb.lastTick = some at_ ∧ u.ftb.heldTicks = []) ∧
      (s.ftb.heldTicks ≠ [] ∨ (∃ l, s.ftb.lastTick = some l ∧ at_ < l + 32000) →
        u.ftb.heldTicks = s.ftb.heldTicks ++ [wrapS 64 n] ∧ u.ftb.lastTick = s.ftb.lastTick) := by
  have hexec : exec (.lineTick t) s = .next (issueTick { s with ftb := { s.ftb with projected := rest } } n at_) := by
    show execLineTick t s = _
    unfold execLineTick
    rw [hproj]
    exact if_pos ⟨hawake, hdue⟩
  obtain ⟨hline, -, hrest⟩ := issueTick_line { s with ftb := { s.ftb with projected := rest } } n at_
  refine ⟨_, hexec, hline, hrest, fun hnone hfar => ?_, fun hhold => ?_⟩
  · have hfree : ¬ mustHold { s with ftb := { s.ftb with projected := rest } } at_ := by
      rintro (hheld | ⟨l, hlast, hclose⟩)
      · exact hheld hnone
      · exact absurd (hfar l hlast) (Nat.not_le.mpr hclose)
    obtain ⟨b, hftb⟩ := issueTick_left n hfree
    rw [hftb]
    exact ⟨rfl, hnone⟩
  · obtain ⟨b, hftb⟩ := issueTick_held (s := { s with ftb := { s.ftb with projected := rest } }) n hhold
    rw [hftb]
    exact ⟨rfl, rfl⟩

theorem heldTickIssue_answers {t l : Nat} {n : Int} {rest : List Int} (hheld : s.ftb.heldTicks = n :: rest)
    (hlast : s.ftb.lastTick = some l) (hdue : l + 32000 ≤ t) (hfew : rest.length < 64) :
    Answers (.heldTickIssue t) s fun u => u.ftb.heldTicks = rest ∧ u.ftb.lastTick = some (l + 32000) ∧
      lineCounter u = lineCounter s := by
  have hlimit : queueLimit s = s := if_neg (by rw [hheld, List.length_cons]; omega)
  have hexec : exec (.heldTickIssue t) s =
      .next (leaveTick { s with ftb := { s.ftb with heldTicks := rest } } n (l + tickSpacing)) := by
    show execHeldTickIssue t s = _
    unfold execHeldTickIssue
    rw [hlimit]
    dsimp only
    rw [hheld, hlast]
    exact if_pos hdue
  refine ⟨_, hexec, ?_⟩
  beta_reduce
  rw [lineCounter, leaveTick_ftb]
  exact ⟨rfl, rfl, rfl⟩

/-! Pacing and the estimate (R165, R166, R174). -/

theorem advancePacing_lamI {t : Nat} (hmode : s.webCfg.pacing = true) (hat : s.ftb.paceAt ≤ t) :
    (advancePacing s t).ftb.lamI = wrapS 64 ((pacingAt s t).1 / 2 ^ 32) := by
  rw [advancePacing, if_pos ⟨hmode, hat⟩]
  rfl

theorem pacingTick_answers {t : Nat} (hawake : awake s = true) (hmode : s.webCfg.pacing = true) (hmay : mayTick s = true)
    (hat : s.ftb.paceAt ≤ t) (hpast : 0 < linesPast (wrapS 64 ((pacingAt s t).1 / 2 ^ 32)) s.ftb.hwm) :
    Answers (.pacingTick t) s fun u => lineCounter u = wrapS 64 (lineCounter s + 1) ∧
      u.ftb.lamI = wrapS 64 ((pacingAt s t).1 / 2 ^ 32) := by
  have hrate := reportRate_within (advancePacing s t)
  have hlam : (reportRate (advancePacing s t)).ftb.lamI = wrapS 64 ((pacingAt s t).1 / 2 ^ 32) :=
    (hrate.untouched fun u => u.ftb.lamI).trans (advancePacing_lamI hmode hat)
  have hhwm : (reportRate (advancePacing s t)).ftb.hwm = s.ftb.hwm :=
    (hrate.untouched fun u => u.ftb.hwm).trans (advancePacing_hwm s t)
  have hmay' : mayTick (reportRate (advancePacing s t)) = true :=
    (hrate.untouched mayTick).trans (((advancePacing_within s t).untouched mayTick).trans hmay)
  have hexec : exec (.pacingTick t) s = .next (issueTick (reportRate (advancePacing s t))
      ((reportRate (advancePacing s t)).ftb.hwm + 1) (if s.anneal.running then 64 * cdiv t 64 else t)) :=
    (if_pos ⟨hawake, hmode⟩).trans (if_pos ⟨hmay', by rw [hlam, hhwm]; exact hpast⟩)
  obtain ⟨hline, hlam', -⟩ := issueTick_line (reportRate (advancePacing s t)) ((reportRate (advancePacing s t)).ftb.hwm + 1)
    (if s.anneal.running then 64 * cdiv t 64 else t)
  refine ⟨_, hexec, ?_, hlam'.trans hlam⟩
  rw [hline, hhwm]
  rfl

theorem webStill_answers {t l : Nat} (hawake : awake s = true) (hmode : s.webCfg.pacing = false)
    (hedge : s.ftb.lastEdge = some l) (hstill : l + s.webCfg.stillTime * msUnits ≤ t) :
    Answers (.webStill t) s fun u => u.ftb.speed = 0 ∧ u.ftb.intervals = [] ∧ u.ftb.lastEdge = none ∧
      u.ftb.lamI = s.ftb.lamI ∧ u.ftb.lamF = s.ftb.lamF := by
  have hexec : exec (.webStill t) s =
      .next (raiseIf (s.ftb.speed != 0) (standstill s) 0x0303 (itq (lineCounter s))) := by
    show execWebStill t s = _
    unfold execWebStill
    rw [hedge]
    exact if_pos ⟨hawake, by simp [hmode], hstill⟩
  refine ⟨_, hexec, ?_⟩
  beta_reduce
  rw [(raiseIf_within _ _ _ _).untouched State.ftb]
  exact ⟨rfl, rfl, rfl, rfl, rfl⟩

/-- The state in which the travel since the last reading is measured (R166). -/
def travelRead (s : State) (t : Nat) : State :=
  { s with ftb := { s.ftb with
    rho10 := rateOf10 (wrapS 96 (lamNow s t - (s.ftb.lam10I * 2 ^ 32 + s.ftb.lam10F)))
    lam10I := wrapS 64 (lamNow s t / 2 ^ 32), lam10F := (lamNow s t % 2 ^ 32).toNat } }

/-- What a reading of the rate measures stays as the estimate decays and the refill guard looks at it. -/
theorem rateReading_answers (t : Nat) (hawake : awake s = true) :
    Answers (.rateReading t) s fun u => u.ftb.lam10I = wrapS 64 (lamNow s t / 2 ^ 32) ∧
      u.ftb.lam10F = (lamNow s t % 2 ^ 32).toNat ∧
      u.ftb.rho10 = Int.tdiv (wrapS 96 (lamNow s t - (s.ftb.lam10I * 2 ^ 32 + s.ftb.lam10F)) * 102400000) (2 ^ 32) := by
  have hexec : exec (.rateReading t) s = .next (refillGuard (decay (travelRead s t) t)) := if_neg (by simp [hawake])
  have hdecay := decay_within (travelRead s t) t
  refine ⟨_, hexec, ?_⟩
  beta_reduce
  rw [(refillGuard_within _).untouched State.ftb]
  exact ⟨hdecay.untouched fun u => u.ftb.lam10I, hdecay.untouched fun u => u.ftb.lam10F,
    hdecay.untouched fun u => u.ftb.rho10⟩

/-! Cues (R167, R169). -/

theorem cueCapture_ignored {ch t held : Nat} {c : CueCh} (rising : Bool) (hch : s.cues[ch]? = some c)
    (hnot : held ≤ c.filt ∨ edgeSelected c.edge rising = false ∨
      (∃ m, c.maskFrom = some m ∧ lamAt s t < m + c.maskLines * 2 ^ 32)) :
    exec (.cueCapture ch rising ⟨t, held⟩) s = .next s := by
  show execCueCapture ch rising ⟨t, held⟩ s = _
  unfold execCueCapture
  rw [hch]
  refine if_pos ?_
  rcases hnot with hshort | hedge | ⟨m, hfrom, hin⟩
  · simp [filtered, hshort]
  · simp [hedge]
  · have hmasked : maskOver c (lamAt s t) = false := by
      rw [maskOver, hfrom]
      exact decide_eq_false (Int.not_le.mpr hin)
    simp [hmasked]

/-- The record of a capture at instant `t` (R169). -/
def cueOf (s : State) (ch : Nat) (c : CueCh) (t : Nat) : Cue :=
  { seq := c.seq, rev := s.ftb.reversed, lost := c.lostNext, ch := ch, secHi := (stampTime s t).1 / 2 ^ 32
    secLo := (stampTime s t).1 % 2 ^ 32, nsec := (stampTime s t).2, frac := (lamAt s t % 2 ^ 32).toNat / 2 ^ 24
    line := wrapS 64 (lamAt s t / 2 ^ 32), master := masterPos s }

/-- A channel that has captured at instant `t`: its mask begins there, the record joins its queue of 16 or is lost. -/
def captured (s : State) (ch : Nat) (c : CueCh) (t : Nat) : CueCh :=
  { c with seq := (c.seq + 1) % 2 ^ 16, maskFrom := if c.maskLines = 0 then none else some (lamAt s t)
           queue := if decide (16 ≤ c.queue.length) then c.queue else c.queue ++ [cueOf s ch c t]
           lostNext := decide (16 ≤ c.queue.length) }

/-- The state once a capture is in its channel, and counted where it is lost. -/
def captureNoted (s : State) (ch : Nat) (c : CueCh) (t : Nat) : State :=
  let s1 := { s with cues := modAt (fun _ => captured s ch c t) s.cues ch }
  if decide (16 ≤ c.queue.length) then count s1 (cnum 3 (24 + ch)) else s1

theorem exec_cueCapture {ch t held : Nat} {rising : Bool} {c : CueCh} (hawake : awake s = true) (hch : s.cues[ch]? = some c)
    (hedge : edgeSelected c.edge rising = true) (hheld : c.filt < held)
    (hpast : ∀ m, c.maskFrom = some m → m + c.maskLines * 2 ^ 32 ≤ lamAt s t) :
    exec (.cueCapture ch rising ⟨t, held⟩) s = .next (offerCue
      (raiseIf c.event (captureNoted s ch c t) 0x030A (cueDws (cueOf s ch c t))) ch (wrapS 64 (lamAt s t / 2 ^ 32))) := by
  have hover : maskOver c (lamAt s t) = true := by
    unfold maskOver
    split
    · next m hfrom => exact decide_eq_true (hpast m hfrom)
    · rfl
  show execCueCapture ch rising ⟨t, held⟩ s = _
  unfold execCueCapture
  rw [hch]
  exact if_neg (by simp [hawake, filtered, hheld, hedge, hover])

theorem captureNoted_cues (s : State) (ch : Nat) (c : CueCh) (t : Nat) :
    (captureNoted s ch c t).cues = modAt (fun _ => captured s ch c t) s.cues ch := by
  unfold captureNoted
  dsimp only
  split
  · exact (count_within _ _).untouched State.cues
  · rfl

theorem cueCapture_answers {ch t held : Nat} {rising : Bool} {c : CueCh} (hawake : awake s = true) (hch : s.cues[ch]? = some c)
    (hedge : edgeSelected c.edge rising = true) (hheld : c.filt < held)
    (hpast : ∀ m, c.maskFrom = some m → m + c.maskLines * 2 ^ 32 ≤ lamAt s t) :
    Answers (.cueCapture ch rising ⟨t, held⟩) s fun u => ∃ c' : CueCh, u.cues[ch]? = some c' ∧
      c'.seq = (c.seq + 1) % 2 ^ 16 ∧
      (c.maskLines = 0 → c'.maskFrom = none) ∧ (c.maskLines ≠ 0 → c'.maskFrom = some (lamAt s t)) ∧
      (c.queue.length < 16 → c'.lostNext = false ∧ ∃ x : Cue, c'.queue = c.queue ++ [x] ∧ x.seq = c.seq ∧ x.ch = ch ∧
        x.line = wrapS 64 (lamAt s t / 2 ^ 32) ∧ x.nsec = (stampTime s t).2 ∧ x.master = masterPos s ∧
        x.rev = s.ftb.reversed ∧ x.lost = c.lostNext) ∧
      (16 ≤ c.queue.length → c'.queue = c.queue ∧ c'.lostNext = true) := by
  refine ⟨_, exec_cueCapture hawake hch hedge hheld hpast, captured s ch c t, ?_, rfl, fun h => if_pos h, fun h => if_neg h,
    fun hroom => ?_, fun hfull => ?_⟩
  · rw [(offerCue_within _ _ _).untouched State.cues, (raiseIf_within _ _ _ _).untouched State.cues, captureNoted_cues,
      modAt_getElem?_of_some hch]
  · have hfits : ¬ 16 ≤ c.queue.length := by omega
    exact ⟨by simpa [captured] using hroom, cueOf s ch c t, if_neg (by simpa using hfits), rfl, rfl, rfl, rfl, rfl, rfl, rfl⟩
  · exact ⟨if_pos (decide_eq_true hfull), decide_eq_true hfull⟩

end

/-- Settles O12: each event, awake and held long enough, leads to a state whose positions, ticks and captures are read off. -/
theorem webEvents : Obligations.WebEvents := by
  intro s hawake
  refine ⟨?_, ?_, ?_, ?_, ?_, ?_, ?_, fun t => rateReading_answers t hawake, ?_, ?_⟩
  · intro ch a b t held e hch hheld
    exact ⟨encCount_unheld a b hch hheld, indexRise_unheld hch hheld⟩
  · intro ch a b t held e hch hen hheld
    exact ⟨encCount_legal a b hawake hch hen hheld, encCount_illegal a b hawake hch hen hheld⟩
  · intro ch t held e hch hen hheld hqual href
    exact indexRise_captures hawake hch hen hheld hqual href
  · intro t at_ n rest hproj hdue
    exact lineTick_answers hawake hproj hdue
  · intro t l n rest hheld hlast hdue hfew
    exact heldTickIssue_answers hheld hlast hdue hfew
  · intro t hmode hmay hat hpast
    exact pacingTick_answers hawake hmode hmay hat hpast
  · intro t l hmode hedge hstill
    exact webStill_answers hawake hmode hedge hstill
  · intro ch t held rising c hch hnot
    exact cueCapture_ignored rising hch hnot
  · intro ch t held rising c hch hedge hheld hpast
    exact cueCapture_answers hawake hch hedge hheld hpast

end Sys2Proof.Machine
end

section
/-! SUPPORT. The overlays of the operations on the head link: lanes, groups, bring-up, join, lanes lost and words from modules (R178
to R230, R446). -/
set_option Elab.async false
namespace Sys2Proof.Machine

/-! Lanes and groups. -/

/-- `s` with the lanes taken from `t`. -/
def lanesTaken (s t : State) : State := { s with dxl := { s.dxl with lanes := t.dxl.lanes } }

/-- `s` with the groups taken from `t`. -/
def groupsTaken (s t : State) : State := { s with dxl := { s.dxl with groups := t.dxl.groups } }

/-- `s` with the lanes and what is reported of them taken from `t` (R209). -/
def lanesReported (s t : State) : State := { reported s t with dxl := { s.dxl with lanes := t.dxl.lanes } }

/-- `s` with the groups and what is reported of them taken from `t`. -/
def groupsReported (s t : State) : State := { reported s t with dxl := { s.dxl with groups := t.dxl.groups } }

/-- `s` with the lanes, the groups and what is reported of them taken from `t` (R210). -/
def linkReported (s t : State) : State :=
  { reported s t with dxl := { s.dxl with lanes := t.dxl.lanes, groups := t.dxl.groups } }

/-- `s` with the groups, the ECHO tokens and what is sent taken from `t` (R194). -/
def echoed (s t : State) : State := { s with dxl := { s.dxl with groups := t.dxl.groups, tokens := t.dxl.tokens }, out := t.out }

theorem setLane_within (s : State) (l : Nat) (f : Lane → Lane) : Within lanesTaken s (setLane s l f) := rfl

theorem setGroup_within (s : State) (g : Nat) (f : Group → Group) : Within groupsTaken s (setGroup s g f) := rfl

theorem emitAll_within (s : State) (xs : List Sent) : Within (fun s t => { s with out := t.out }) s (emitAll s xs) := rfl

theorem sendEcho_within (s : State) (g : Nat) : Within echoed s (sendEcho s g) := rfl

theorem startRead_within (s : State) (g tries : Nat) :
    Within (fun s t => { groupsTaken s t with out := t.out }) s (startRead s g tries) := rfl

theorem onGroupLanes_within (s : State) (g : Nat) (w : Qword) :
    Within (fun s t => { s with out := t.out }) s (onGroupLanes s g w) := emitAll_within s _

theorem searchFailed_within (s : State) (lane : Nat) : Within lanesReported s (searchFailed s lane) :=
  .ite ((setLane_within s lane _).andThen (raise_within _ _ _)) (setLane_within s lane _).widen

theorem restartLanes_within (s : State) (g : Nat) : Within lanesTaken s (restartLanes s g) :=
  .foldl (fun t l => setLane_within t l _) _ s

theorem lanesToRun_within (s : State) (g : Nat) : Within lanesTaken s (lanesToRun s g) :=
  .foldl (fun t l => .ite (setLane_within t l _) (.refl t)) _ s

theorem groupToRun_within (s : State) (g : Nat) : Within linkReported s (groupToRun s g) :=
  (setGroup_within s g _).andThen (lanesToRun_within _ g)

theorem orderFailed_within (s : State) (g : Nat) : Within linkReported s (orderFailed s g) :=
  ((restartLanes_within s g).andThen (F := linkReported) (setGroup_within _ g _)).andThen (raise_within _ _ _)

theorem rejoinLane_within (s : State) (lane logical : Nat) : Within linkReported s (rejoinLane s lane logical) := by
  have hordered := (setLane_within s lane fun y => { y with state := .ordered, searches := 0, logical := some logical })
  exact .ite ((setLane_within s lane _).andThen (setGroup_within _ _ _))
    (.ite (hordered.andThen (orderFailed_within _ _)) hordered.widen)

/-! MODULE_AUTH and a group that leaves RUN (R215, R225, R446). -/

/-- `s` with what the end of a MODULE_AUTH may touch taken from `t`, its completion included (R446). -/
def authEnded (s t : State) : State := { answered s t with sec := { s.sec with authMask := t.sec.authMask } }

/-- `s` with what a group leaving RUN may touch taken from `t` (R120, R225, R446). -/
def runLeft (s t : State) : State :=
  { answered s t with
      sec := { s.sec with authMask := t.sec.authMask }, map := { s.map with holding := t.map.holding }
      dxl := { s.dxl with lanes := t.dxl.lanes, groups := t.dxl.groups }
      asy := { s.asy with cams := t.asy.cams } }

/-- `s` with what the loss of a lane may touch taken from `t` (R212, R215, R225). -/
def laneLost (s t : State) : State :=
  { answered s t with
      sec := { s.sec with authMask := t.sec.authMask }, map := { s.map with holding := t.map.holding }
      dxl := { s.dxl with lanes := t.dxl.lanes, groups := t.dxl.groups, replay := t.dxl.replay, resync := t.dxl.resync }
      asy := { s.asy with cams := t.asy.cams, marks := t.asy.marks, markedLines := t.asy.markedLines
                          cutMarks := t.asy.cutMarks } }

theorem setAuth_within (s : State) (g : Nat) (b : Bool) :
    Within (fun s t => { s with sec := { s.sec with authMask := t.sec.authMask } }) s (setAuth s g b) := rfl

theorem authOutcome_within (s : State) (g st keyId : Nat) : Within authEnded s (authOutcome s g st keyId) :=
  ((setAuth_within s g _).andThen (F := authEnded) (.ite (count_within _ _) (.refl _))).andThen (raise_within _ _ _)

theorem endAuth_within (s : State) (g st : Nat) : Within authEnded s (endAuth s g st) := by
  unfold endAuth
  split
  · exact .refl s
  · exact (authOutcome_within s g st _).andThen (finish_within _ _ _ _)

theorem loseCamera_within (s : State) (k : Nat) : Within camerasUnaligned s (loseCamera s k) :=
  (unalignCamera_within s k).andThen (H := camerasUnaligned) rfl

theorem dropHolding_within (s : State) (g : Nat) :
    Within (fun s t => { s with map := { s.map with holding := t.map.holding } }) s (dropHolding s g) := rfl

theorem leaveRun_within (s : State) (g : Nat) : Within runLeft s (leaveRun s g) := by
  have hstopped := ((endAuth_within s g stModuleAbsent).andThen (F := runLeft) (restartLanes_within _ g)).andThen (F := runLeft)
    (setGroup_within _ g fun x => { x with
      run := false, spare := false, joined := false, step := 0, auth := false, restripe := none, restripeTx := none
      statusIn := false })
  have hdropped := (hstopped.andThen (F := runLeft) (setAuth_within _ g false)).andThen (F := runLeft) (dropHolding_within _ g)
  unfold leaveRun
  exact .ite (hdropped.andThen (F := runLeft) (loseCamera_within _ _)) hdropped

theorem markModule_within (s : State) (m q : Nat) (n : Int) : Within mapMarked s (markModule s m q n) :=
  markArea_mapMarked s _ _ _ _ _

theorem groupLost_within (s : State) (m : Nat) : Within laneLost s (groupLost s m) :=
  (Within.foldl (fun t (r : Rec) => markModule_within t r.m r.q r.n) _ s).andThen (H := laneLost) rfl

theorem groupDown_within (s : State) (g : Nat) : Within laneLost s (groupDown s g) :=
  ((leaveRun_within s g).andThen (F := laneLost) (.ite (groupLost_within _ g) (.refl _))).andThen (raise_within _ _ _)

theorem cameraDown_within (s : State) (k : Nat) : Within laneLost s (cameraDown s k) :=
  (leaveRun_within s _).andThen (raise_within _ _ _)

theorem laneTrips_within (s : State) (lane cause : Nat) (st : LaneState) : Within laneLost s (laneTrips s lane cause st) := by
  have hgroup (f : Group → Group) := (setLane_within s lane (laneTo st)).andThen (F := linkReported)
    (setGroup_within _ (laneGroup lane) f)
  unfold laneTrips
  exact .ite ((setLane_within s lane _).andThen (F := laneLost) (cameraDown_within _ _))
    (.ite ((hgroup _).andThen (F := laneLost) (raise_within _ _ _))
      (.ite ((hgroup _).andThen (F := laneLost) (onGroupLanes_within _ _ _))
        ((setLane_within s lane _).andThen (F := laneLost) (groupDown_within _ _))))

theorem laneFalls_within (s : State) (lane cause : Nat) (st : LaneState) : Within laneLost s (laneFalls s lane cause st) := by
  have hfallen : Within laneLost s (if (groupAt (setLane s lane (laneTo st)) (laneGroup lane)).step ≠ 0 ∧
      (orderedLanes (setLane s lane (laneTo st)) (laneGroup lane)).length < 3
      then setGroup (setLane s lane (laneTo st)) (laneGroup lane) fun x => { x with step := 0 }
      else setLane s lane (laneTo st)) :=
    .ite ((setLane_within s lane _).andThen (setGroup_within _ _ _)) (setLane_within s lane _).widen
  unfold laneFalls
  split
  · exact laneTrips_within s lane cause st
  · exact hfallen
  · exact hfallen
  · exact .refl s

theorem reportRestripe_within (s : State) (g dir llane phys : Nat) :
    Within (fun s t => { reported (echoed s t) t with out := t.out }) s (reportRestripe s g dir llane phys) := by
  have hraised := (Within.ite (c := g < 40) (count_within s (cnum 4 (688 + g))) (.refl s)).andThen (F := reported)
    (raise_within _ 0x0405 (it g ++ it dir ++ it llane ++ it phys))
  exact .ite (hraised.andThen (sendEcho_within _ g)) hraised.widen

/-! A join (R143, R206, R210). -/

/-- `s` with what settling the map of a module that joins, and its join, may touch taken from `t` (R122, R143, R206). -/
def joined (s t : State) : State :=
  { reported s t with
      job := t.job, map := { s.map with acked := t.map.acked, joins := t.map.joins }
      csc := { s.csc with seamReq := t.csc.seamReq, joinSeams := t.csc.joinSeams }
      dxl := { s.dxl with lanes := t.dxl.lanes, groups := t.dxl.groups, resync := t.dxl.resync
                          firstLine := t.dxl.firstLine } }

/-- `s` with the seams asked for taken from `t` (R132, R143). -/
def seamed (s t : State) : State :=
  { s with csc := { s.csc with seamReq := t.csc.seamReq, joinSeams := t.csc.joinSeams } }

/-- `s` with the acknowledgements of generations taken from `t` (R120). -/
def ackTaken (s t : State) : State := { s with map := { s.map with acked := t.map.acked } }

theorem joinSeams_within (s : State) (m : Nat) : Within seamed s (joinSeams s m) := rfl

theorem requestSeam_within (s : State) (k span : Nat) : Within seamed s (requestSeam s k span) := rfl

theorem queueJoin_within (s : State) (j : Nat × List Nat) :
    Within (fun s t => { s with map := { s.map with joins := t.map.joins } }) s (queueJoin s j) := rfl

/-- `s` with what a module that has joined is told and noted by may touch taken from `t` (R122, R143, R210). -/
def joinTold (s t : State) : State :=
  { reported s t with
      job := t.job, map := { s.map with joins := t.map.joins }
      csc := { s.csc with seamReq := t.csc.seamReq, joinSeams := t.csc.joinSeams }
      dxl := { s.dxl with resync := t.dxl.resync, firstLine := t.dxl.firstLine } }

/-- The state in which a module that joins is in RUN and joined (R210). -/
def joinedRun (s : State) (g : Nat) : State :=
  groupToRun (setGroup s g fun y => { y with joined := true, step := 0, recorded := some (touchKey y.touch) }) g

theorem joinedRun_within (s : State) (g : Nat) : Within linkReported s (joinedRun s g) :=
  (setGroup_within s g _).andThen (groupToRun_within _ g)

/-- Past RUN, a join only tells the module and notes it. -/
theorem finishJoin_told (s : State) (g : Nat) : Within joinTold (joinedRun s g) (finishJoin s g) := by
  have hphases (w : Qword) (t : State) : Within joinTold t
      (joinSeams (if s.job.isSome then sendModulePhases (onGroupLanes t g w) g else onGroupLanes t g w) g) :=
    (Within.ite ((onGroupLanes_within t g w).andThen (F := joinTold) (sendModulePhases_within _ g))
      (onGroupLanes_within t g w).widen).andThen (joinSeams_within _ g)
  have hresync (u t : State) (ht : Within joinTold u t) (ks : List Nat) (lines : Sparse Int) : Within joinTold u
      { t with dxl := { t.dxl with resync := ks, firstLine := lines } } := ht.andThen (H := joinTold) rfl
  have hreported (u t : State) (ht : Within joinTold u t) (b : Bool) (j : Nat × List Nat) (pay : List Dword) :
      Within joinTold u (raise (if b then queueJoin t j else t) 0x0407 pay) :=
    (Within.ite (ht.andThen (F := joinTold) (queueJoin_within t j)) ht).andThen (raise_within _ _ _)
  have hceased (u t : State) (ht : Within joinTold u t) : Within joinTold u (if s.pins.ceaseN then sendCease t 0 else t) :=
    .ite (ht.andThen (F := joinTold) (sendCease_within t 0)) ht
  exact hceased _ _ (hreported _ _ (hresync _ _ (hphases _ _) _ _) _ _ _)

theorem finishJoin_within (s : State) (g : Nat) : Within joined s (finishJoin s g) :=
  (joinedRun_within s g).andThen (finishJoin_told s g)

/-- The state once what a module holds is noted: the generation it acknowledges, or none (R120, R206). -/
def heldNoted (s : State) (g : Nat) (held : Option Nat) : State :=
  { s with map := { s.map with acked := match held with
      | some n => if s.map.acked.contains (g, n) then s.map.acked else s.map.acked ++ [(g, n)]
      | none => s.map.acked.filter fun a => a.1 != g } }

/-- The state once what the module lacks has gone out (R206). -/
def mapGoneOut (s : State) (g : Nat) (held : Option Nat) : State :=
  (mapToSend (heldNoted s g held) held).foldl (fun t x => sendGenTo t x.1 x.2 g)
    (setGroup (heldNoted s g held) g fun x => { x with step := 4, unprompted := none })

theorem settleMap_eq (s : State) (g : Nat) (held : Option Nat) : settleMap s g held =
    if (mapToSend (heldNoted s g held) held).isEmpty then finishJoin (mapGoneOut s g held) g else mapGoneOut s g held := by
  cases held <;> rfl

theorem mapGoneOut_sent (s : State) (g : Nat) (held : Option Nat) : Within (fun s t => { s with out := t.out })
    (setGroup (heldNoted s g held) g fun x => { x with step := 4, unprompted := none }) (mapGoneOut s g held) :=
  .foldl (fun t (x : Gen × Bool) => sendGenTo_within t x.1 x.2 g) _ _

theorem heldNoted_within (s : State) (g : Nat) (held : Option Nat) : Within ackTaken s (heldNoted s g held) := rfl

theorem settleMap_within (s : State) (g : Nat) (held : Option Nat) : Within joined s (settleMap s g held) := by
  have hsent : Within joined s (mapGoneOut s g held) := ((heldNoted_within s g held).andThen (F := joined)
    (setGroup_within _ g _)).andThen (mapGoneOut_sent s g held)
  rw [settleMap_eq]
  exact .ite (hsent.andThen (finishJoin_within _ g)) hsent

theorem ackGen_within (s : State) (g n : Nat) : Within joined s (ackGen s g n) := by
  have hacked : Within ackTaken s (if s.map.acked.contains (g, n) then s
      else { s with map := { s.map with acked := s.map.acked ++ [(g, n)] } }) := .ite (.refl s) rfl
  exact .ite (hacked.andThen (finishJoin_within _ g)) hacked.widen

/-- `s` with what a TMDATA may touch taken from `t` (R206, R211, R446). -/
def touchTaken (s t : State) : State :=
  { answered s t with
      sec := { s.sec with authMask := t.sec.authMask }, job := t.job, map := { s.map with acked := t.map.acked, joins := t.map.joins }
      csc := { s.csc with seamReq := t.csc.seamReq, joinSeams := t.csc.joinSeams }
      dxl := { s.dxl with lanes := t.dxl.lanes, groups := t.dxl.groups, resync := t.dxl.resync
                          firstLine := t.dxl.firstLine, tokens := t.dxl.tokens } }

theorem authRead_within (s : State) (g : Nat) : Within touchTaken s (authRead s g) := by
  unfold authRead
  dsimp only
  split
  · exact (setGroup_within s g _).widen
  · exact .ite (startRead_within s g 1).widen ((setGroup_within s g _).andThen (endAuth_within _ g _))

theorem touchRead_within (s : State) (g : Nat) : Within touchTaken s (touchRead s g) := by
  have hbad (u : State) (hu : Within groupsTaken s u) (f : Group → Group) (code : Nat) (pay : List Dword) :
      Within touchTaken s (raise (setGroup u g f) code pay) :=
    (hu.andThen (F := groupsTaken) (setGroup_within u g f)).andThen (raise_within _ _ _)
  have hread := setGroup_within s g fun y => { y with
    touch := { (groupAt s g).fresh with valid := true }, newTouch := y.recorded != some (touchKey (groupAt s g).fresh) }
  exact .ite (.ite (startRead_within s g 1).widen (hbad s (.refl s) _ _ _))
    (.ite (hbad _ hread _ _ _) ((hread.andThen (F := groupsTaken) (setGroup_within _ g _)).andThen (sendEcho_within _ g)))

theorem touchDword_within (s : State) (g off : Nat) (data : Dword) : Within touchTaken s (touchDword s g off data) := by
  have hkept (t : Touch) := setGroup_within s g fun y => { y with fresh := t }
  refine .ite (hkept _).widen (.ite ?_ ((hkept _).andThen (F := touchTaken) (.ite (authRead_within _ g) (touchRead_within _ g))))
  exact ((hkept _).andThen (F := groupsTaken) (setGroup_within _ g _)).andThen (emit_within _ _)

theorem mcrcWord_within (s : State) (g : Nat) (data : Dword) : Within joined s (mcrcWord s g data) := by
  unfold mcrcWord
  split
  · exact .refl s
  · exact settleMap_within s g _

/-! Roles and words from modules (R201 to R217, R264, R265). -/

/-- `s` with what an epoch reported by a module may touch taken from `t` (R264, R265). -/
def epochSeen (s t : State) : State :=
  { reported s t with
      pins := { s.pins with ceaseAck := t.pins.ceaseAck, healthReady := t.pins.healthReady }
      dxl := { s.dxl with groups := t.dxl.groups }
      par := { s.par with state := t.par.state, epoch := t.par.epoch, mustFall := t.par.mustFall } }

theorem sendRole_within (s : State) : Within (fun s t => { s with out := t.out }) s (sendRole s) := emitAll_within s _

theorem depose_within (s : State) (higher : Nat) : Within epochSeen s (depose s higher) :=
  (((count_within s _).andThen (F := epochSeen) (raise_within _ _ _)).andThen (F := epochSeen) (H := epochSeen)
    (by exact rfl)).andThen (sendRole_within _)

theorem seenEpoch_within (s : State) (g : Nat) (e : Dword) : Within epochSeen s (seenEpoch s g e) :=
  .ite ((setGroup_within s g _).andThen (depose_within _ _)) (setGroup_within s g _).widen

/-- `s` with what a RESEND may touch taken from `t` (R201). -/
def resent (s t : State) : State :=
  { reported s t with
      csc := { s.csc with
        seamReq := t.csc.seamReq, joinSeams := t.csc.joinSeams, marks := t.csc.marks, refillMarks := t.csc.refillMarks
        cleanRuns := t.csc.cleanRuns }
      dxl := { s.dxl with replay := t.dxl.replay, resync := t.dxl.resync }
      asy := { s.asy with marks := t.asy.marks, markedLines := t.asy.markedLines, cutMarks := t.asy.cutMarks }
      free := t.free }

theorem recordsLost_within (s : State) (g q : Nat) : Within resent s (recordsLost s g q) := by
  have hmarked (n : Nat) (p : Nat) (x0 x1 a b : Int) : Within resent s (markArea (countN s (cnum 4 (768 + g)) n) p x0 x1 a b) :=
    (countN_within s _ n).andThen (markArea_mapMarked _ _ _ _ _ _)
  have hdropped (t : State) (ht : Within resent s t) (ks : List Nat) (rs : List Rec) : Within resent s
      { t with dxl := { t.dxl with resync := ks, replay := rs } } := ht.andThen (H := resent) rfl
  have htold (t : State) (ht : Within resent s t) (pay : List Dword) (n : Int) : Within resent s
      (outOfStep (raise (requestSeam t (mp g q) 63) 0x040B pay) g q 3 n) :=
    ((ht.andThen (F := resent) (requestSeam_within t _ 63)).andThen (F := resent) (raise_within _ _ pay)).andThen
      (outOfStep_stepMarked _ g q 3 n)
  exact htold _ (hdropped _ (hmarked _ _ _ _ _ _) _ _) _ _

theorem markRows_within (s : State) (m q : Nat) : Within mapMarked s (markRows s m q) :=
  .ite (markArea_mapMarked s _ _ _ _ _) (.refl s)

/-- `s` with what a discarded word may touch taken from `t` (R183, R188, R269). -/
def wordLost (s t : State) : State :=
  { reported s t with csc := { s.csc with
      marks := t.csc.marks, refillMarks := t.csc.refillMarks, cleanRuns := t.csc.cleanRuns } }

theorem partnerWordLost_within (s : State) (lane : Nat) : Within wordLost s (partnerWordLost s lane) :=
  .ite ((count_within s _).andThen (setAllRefillMarks_within _)) (.refl s)

end Sys2Proof.Machine
end

section
/-! SUPPORT. The overlays of the operations of the assay: scans used, windows closed, a slot judged, updates of the curves (R234 to
R251). -/
set_option Elab.async false
namespace Sys2Proof.Machine

/-! Scans (R234 to R247). -/

/-- `s` with the cameras taken from `t`. -/
def camsTaken (s t : State) : State := { s with asy := { s.asy with cams := t.asy.cams } }

/-- `s` with what a window that takes a sample may touch taken from `t` (R241, R242, R250). -/
def windowClosed (s t : State) : State :=
  { reported s t with
      asy := { s.asy with due := t.asy.due, windows := t.asy.windows, stripe := t.asy.stripe, wants := t.asy.wants } }

/-- `s` with what using a scan may touch taken from `t` (R238, R241, R247). -/
def scanUsed (s t : State) : State :=
  { reported s t with
      asy := { s.asy with
        due := t.asy.due, cams := t.asy.cams, windows := t.asy.windows, stripe := t.asy.stripe, wants := t.asy.wants
        drops := t.asy.drops, shown := t.asy.shown } }

theorem setCam_within (s : State) (k : Nat) (f : Camera → Camera) : Within camsTaken s (setCam s k f) := rfl

theorem whiteScan_within (s : State) (a : AsySetup) (r : ScanRead) : Within camsTaken s (whiteScan s a r) := setCam_within s _ _

theorem wantVariant_within (s : State) (a : AsySetup) (k p u : Nat) (e : Int) :
    Within windowClosed s (wantVariant s a k p u e) := by
  have hwants (ws : List (Nat × Nat × Nat × Int)) : Within windowClosed s { s with asy := { s.asy with wants := ws } } := rfl
  exact hwants _

theorem closeWindow_within (s : State) (a : AsySetup) (k p u : Nat) (e : Int) :
    Within windowClosed s (closeWindow s a k p u e) := by
  have hput (ws : List Win) : Within windowClosed s { s with asy := { s.asy with windows := ws } } := rfl
  have hstreak (ws : List Win) (pay : List Dword) : Within windowClosed s
      (raise (addDue (count { s with asy := { s.asy with windows := ws } } (cnum 5 6)) p) 0x0502 pay) :=
    (((hput ws).andThen (F := windowClosed) (count_within _ _)).andThen (F := windowClosed) (addDue_within _ p)).andThen
      (raise_within _ _ pay)
  have hwant (ws : List Win) : Within windowClosed s
      (wantVariant { s with asy := { s.asy with windows := ws } } a k p u e) :=
    (hput ws).andThen (F := windowClosed) (wantVariant_within _ a k p u e)
  unfold closeWindow
  exact .ite (hstreak _ _) (.ite (hwant _) (hput _))

theorem addSample_within (s : State) (a : AsySetup) (r : ScanRead) (p u : Nat) (e : Int) :
    Within windowClosed s (addSample s a r p u e) := by
  unfold addSample
  dsimp only
  split
  · rfl
  · exact .refl s
  · exact .ite (.after (closeWindow_within _ a _ _ _ _)) rfl

theorem pixelSamples_within (a : AsySetup) (r : ScanRead) (s : State) (u : Nat) :
    Within windowClosed s (pixelSamples a r s u) := by
  refine .foldl (fun t p => ?_) _ s
  split
  · exact addSample_within t a r p u _
  · exact .refl t

theorem pixelDrops_within (a : AsySetup) (r : ScanRead) (s : State) (u : Nat) : Within scanUsed s (pixelDrops a r s u) :=
  .ite (.refl s) rfl

theorem useScan_within (s : State) (a : AsySetup) (r : ScanRead) : Within scanUsed s (useScan s a r) := by
  have hshown (t : State) (ht : Within scanUsed s t) (xs : List (Nat × Int)) : Within scanUsed s
      { t with asy := { t.asy with shown := xs } } := ht.andThen (H := scanUsed) rfl
  have hpixels (t : State) (ht : Within scanUsed s t) (us : List Nat) : Within scanUsed s
      (us.foldl (pixelDrops a r) (us.foldl (pixelSamples a r) (whiteScan t a r))) :=
    ((ht.andThen (F := scanUsed) (whiteScan_within t a r)).andThen (F := scanUsed)
      (.foldl (pixelSamples_within a r) us _)).andThen (.foldl (pixelDrops_within a r) us _)
  exact hpixels _ (hshown _ (count_within s _).widen _) _

theorem matchScan_within (s : State) (k trig pix0 : Nat) (totals : List Nat) (pixels : List (List Nat)) :
    Within scanUsed s (matchScan s k trig pix0 totals pixels) := by
  unfold matchScan
  split
  · exact .refl s
  · refine .ite (.refl s) ?_
    dsimp only
    split
    · exact (setCam_within s k _).andThen (count_within _ _)
    · exact (setCam_within s k _).andThen (useScan_within _ _ _)

/-! The census judged (R246 to R248). -/

/-- `s` with what judging a slot may touch taken from `t` (R246 to R248). -/
def slotJudged (s t : State) : State :=
  { reported s t with
      asy := { s.asy with
        due := t.asy.due, windows := t.asy.windows, stripe := t.asy.stripe, wants := t.asy.wants, drops := t.asy.drops
        judged := t.asy.judged, verdicts := t.asy.verdicts, signals := t.asy.signals, rref := t.asy.rref
        goodRuns := t.asy.goodRuns, proposed := t.asy.proposed, stamps := t.asy.stamps } }

theorem goodStep_within (s : State) (o c v : Nat) : Within slotJudged s (goodStep s o c v) := rfl

theorem proposals_within (s : State) (a : AsySetup) (vs : List (Nat × Nat)) : Within slotJudged s (proposals s a vs) := by
  have hruns (code : Nat → Nat) : Within slotJudged s (vs.foldl (fun t v => goodStep t v.1 (code v.1) v.2) s) :=
    .foldl (fun t (v : Nat × Nat) => goodStep_within t v.1 (code v.1) v.2) vs s
  have hput (t : State) (xs : List (Nat × Nat × Nat)) : Within slotJudged t
      { t with asy := { t.asy with proposed := xs } } := rfl
  have hproposed (t : State) (ht : Within slotJudged s t) (xs : List (Nat × Nat × Nat)) (n : Nat) : Within slotJudged s
      (countN { t with asy := { t.asy with proposed := xs } } (cnum 5 11) n) :=
    (ht.andThen (F := slotJudged) (hput t xs)).andThen (countN_within _ _ n)
  exact hproposed _ (hruns _) _ _

theorem recordVerdicts_within (s : State) (p : Nat) (sigs : List (Nat × Int)) (vs : List (Nat × Nat)) :
    Within slotJudged s (recordVerdicts s p sigs vs) := rfl

theorem closeStripe_within (s : State) (a : AsySetup) (p : Nat) : Within windowClosed s (closeStripe s a p) := by
  have hclosed (u : State) (ws : List Win) : Within windowClosed u
      (ws.foldl (fun t w => closeWindow t a w.cam p w.pix (w.sum / (w.count : Int))) u) :=
    .foldl (fun t (w : Win) => closeWindow_within t a w.cam p w.pix _) ws u
  exact .after (hclosed _ _)

theorem judge_within (s : State) (a : AsySetup) (p : Nat) (start band : Int) (len : Nat) :
    Within slotJudged s (judge s a p start band len) := by
  unfold judge
  have hcounted (n3 n2 n : Nat) (sigs : List (Nat × Int)) (vs : List (Nat × Nat)) : Within slotJudged s
      (countN (countN (countN (recordVerdicts s p sigs vs) (cnum 5 8) n3) (cnum 5 9) n2) (cnum 5 10) n) :=
    (((recordVerdicts_within s p sigs vs).andThen (F := slotJudged) (countN_within _ _ n3)).andThen (F := slotJudged)
      (countN_within _ _ n2)).andThen (countN_within _ _ n)
  have hput (t : State) (ws : List Win) (js : List (Nat × Int)) : Within slotJudged t
      { t with asy := { t.asy with windows := ws, judged := js } } := rfl
  have hdone (t : State) (ht : Within slotJudged s t) (ws : List Win) (js : List (Nat × Int)) (pay : List Dword) :
      Within slotJudged s (raise (closeStripe { t with asy := { t.asy with windows := ws, judged := js } } a p) 0x0503 pay) :=
    ((ht.andThen (F := slotJudged) (hput t ws js)).andThen (F := slotJudged) (closeStripe_within _ a p)).andThen
      (raise_within _ _ pay)
  exact hdone _ ((hcounted _ _ _ _ _).andThen (F := slotJudged) (proposals_within _ a _)) _ _ _

/-! Updates of the curves (R249, R251, R268). -/

/-- `s` with what an assay update of the curves may touch taken from `t` (R251, R268). -/
def curvesFormed (s t : State) : State :=
  { reported s t with
      tables := { s.tables with
        curves := t.tables.curves, entries := t.tables.entries, curveUpds := t.tables.curveUpds, curveGen := t.tables.curveGen
        masks := t.tables.masks, maskUpds := t.tables.maskUpds, poisoned := t.tables.poisoned }
      par := { s.par with mseqTx := t.par.mseqTx } }

/-- `s` with what starting the assay may touch taken from `t` (R233, R249). -/
def assayStarted (s t : State) : State :=
  { reported s t with
      tables := { s.tables with
        curves := t.tables.curves, entries := t.tables.entries, curveUpds := t.tables.curveUpds, curveGen := t.tables.curveGen
        masks := t.tables.masks, maskUpds := t.tables.maskUpds, poisoned := t.tables.poisoned }
      par := { s.par with mseqTx := t.par.mseqTx }
      asy := { s.asy with
        setup := t.asy.setup, cams := t.asy.cams, windows := t.asy.windows, stripe := t.asy.stripe, wants := t.asy.wants
        drops := t.asy.drops, variantsDue := t.asy.variantsDue } }

theorem curvesParts_within (s : State) (line : Int) (fuel : Nat) (es : List (Nat × Nat)) :
    Within told s (curvesParts s line fuel es) := by
  induction fuel generalizing s es with
  | zero => exact .refl s
  | succ fuel ih => exact .ite (tellServitor_within s 2 _) ((tellServitor_within s 2 _).andThen (ih _ _))

theorem endCurvePoison_within (s : State) (u : CurveUpd) : Within poisonEnded s (endCurvePoison s u) :=
  .foldl (fun t (c : Nat × List Nat) => endPoison_within t kindCurve c.1 _) _ s

theorem addCurveUpd_formed (s : State) (u : CurveUpd) : Within curvesFormed s (addCurveUpd s u) :=
  (foldDropped_within s).andThen (H := curvesFormed) (.ite rfl rfl)

theorem formCurves_within (s : State) (curves : List (Nat × List Nat)) (entries : List (Nat × Nat)) :
    Within curvesFormed s (formCurves s curves entries) := by
  have hended (u : CurveUpd) := (addCurveUpd_formed s u).andThen (F := curvesFormed) (endCurvePoison_within _ u)
  exact (((hended _).andThen (F := curvesFormed) (count_within _ _)).andThen (F := curvesFormed) (raise_within _ _ _)).andThen
    (curvesParts_within _ _ _ _)

theorem realign_within (s : State) (old : Option AsySetup) (a : AsySetup) : Within camerasUnaligned s (realign s old a) := by
  unfold realign
  split
  · exact .refl s
  · exact .foldl (fun t k => .ite (.refl t) (unalignCamera_within t k)) _ s

theorem awaitVariants_within (s : State) (a : AsySetup) : Within assayStarted s (awaitVariants s a) := by
  unfold awaitVariants
  split
  · dsimp only
    split
    · exact .after (endCurvePoison_within _ _)
    · rfl
  · rfl

theorem startAssay_within (s : State) (a : AsySetup) : Within assayStarted s (startAssay s a) := by
  have haligned : Within assayStarted s (realign { s with asy := { s.asy with
      setup := some a, windows := [], stripe := [], wants := [], drops := [], variantsDue := false } } s.asy.setup a) :=
    .after (realign_within _ _ a)
  exact .ite haligned (.ite (haligned.andThen (awaitVariants_within _ a)) (.ite haligned
    (haligned.andThen (formCurves_within _ _ _))))

end Sys2Proof.Machine
end

section
/-! SUPPORT. The frames of the commands and events of the head link, the modules, the cameras and the assay. -/
set_option Elab.async false
namespace Sys2Proof.Machine

theorem changesOnly_pair {F : State → State → State} {c d : Instr} {s : State} (hc : OutcomeWithin F s (exec c s))
    (hd : OutcomeWithin F s (exec d s)) : ChangesOnly [c, d] s (F s) := by
  intro x hx
  rcases List.mem_pair.mp hx with rfl | rfl
  · exact changesOnly_of_within hc _ List.mem_cons_self
  · exact changesOnly_of_within hd _ List.mem_cons_self

/-! The commands (R180, R219, R232, R243, R252, R255, R395, R446). -/

/-- `s` with what LINK_EQ_LOAD may touch taken from `t`, its completion included (R180). -/
def eqLoaded (s t : State) : State := { completed s t with dxl := { s.dxl with lanes := t.dxl.lanes } }

theorem loadEq_within (s : State) (w : Dword) : Within lanesTaken s (loadEq s w) := setLane_within s _ _

theorem linkEqLoad_changesOnly (e : Entry) (s : State) : ChangesOnly [.linkEqLoad e] s (eqLoaded s) :=
  have hloaded (ws : List Dword) : Within lanesTaken s (ws.foldl loadEq s) := .foldl loadEq_within ws s
  changesOnly_of_within (command_within fun _ => .checked (.withRecord (fun ds => .checked
    (.okWith (hloaded ds).widen _) _) _ _) _)

/-- `s` with what a RESUME touches taken from `t`, the completion of its command included (R219). -/
def resumed (s t : State) : State :=
  { completed s t with
      pins := { s.pins with ceaseAck := t.pins.ceaseAck }
      cease := { s.cease with inForce := t.cease.inForce, waiting := t.cease.waiting } }

theorem resume_within (s : State) : Within resumed s (resume s) := .ite rfl (.refl s)

theorem ceaseClear_changesOnly (e : Entry) (s : State) : ChangesOnly [.ceaseClear e] s (resumed s) :=
  changesOnly_of_within (command_within fun _ => .checked (.okWith (resume_within s) _) _)

theorem linkStatus_changesOnly (e : Entry) (s : State) : ChangesOnly [.linkStatus e] s (completed s) :=
  have hwritten (a : Nat) (ds : List Dword) : Within completed s (hostPutDws s a ds) := rfl
  changesOnly_of_within (command_within fun _ => .checked (.okWith (hwritten _ _) _) _)

/-- `s` with what ASSAY_SETUP may touch taken from `t`, its completion included (R232, R249). -/
def assaySet (s t : State) : State :=
  { answered s t with
      tables := { s.tables with
        curves := t.tables.curves, entries := t.tables.entries, curveUpds := t.tables.curveUpds, curveGen := t.tables.curveGen
        masks := t.tables.masks, maskUpds := t.tables.maskUpds, poisoned := t.tables.poisoned }
      asy := { s.asy with
        setup := t.asy.setup, cams := t.asy.cams, windows := t.asy.windows, stripe := t.asy.stripe, wants := t.asy.wants
        drops := t.asy.drops, variantsDue := t.asy.variantsDue }
      par := { s.par with mseqTx := t.par.mseqTx } }

theorem assaySetup_changesOnly (e : Entry) (s : State) : ChangesOnly [.assaySetup e] s (assaySet s) :=
  changesOnly_of_within (command_within fun _ => .checked (.withRecord (fun _ => .checked
    (.okWith (startAssay_within s _).widen _) _) _ _) _)

/-- `s` with what ASSAY_STOP may touch taken from `t`, its completion included (R255). -/
def assayStopped (s t : State) : State :=
  { completed s t with
      asy := { s.asy with
        setup := t.asy.setup, due := t.asy.due, windows := t.asy.windows, stripe := t.asy.stripe
        wants := t.asy.wants, variantsDue := t.asy.variantsDue } }

theorem assayStop_changesOnly (e : Entry) (s : State) : ChangesOnly [.assayStop e] s (assayStopped s) :=
  changesOnly_of_within (c := .assayStop e) (F := assayStopped) (command_within fun _ => .checked (.okWith (by exact rfl) _) _)

/-- `s` with what ASSAY_LOCK may touch taken from `t`, its completion included (R252). -/
def locksPut (s t : State) : State :=
  { completed s t with
      asy := { s.asy with
        mapLock := t.asy.mapLock, curveLock := t.asy.curveLock, censusHold := t.asy.censusHold, lockTables := t.asy.lockTables }
      par := { s.par with mseqTx := t.par.mseqTx } }

theorem putLocks_within (s : State) (mapL curveL hold : Bool) : Within locksPut s (putLocks s mapL curveL hold) := rfl

theorem assayLock_changesOnly (e : Entry) (s : State) : ChangesOnly [.assayLock e] s (locksPut s) :=
  changesOnly_of_within (command_within fun _ => .checked (.okWith
    (.ite (putLocks_within s _ _ _) ((putLocks_within s _ _ _).andThen (tellServitor_within _ 0xA _))) _) _)

/-- `s` with what CENSUS_REQUEST may touch taken from `t`, its completion included (R243). -/
def censusRequested (s t : State) : State := { completed s t with asy := { s.asy with due := t.asy.due } }

theorem addDue_requested (s : State) (plane : Nat) : Within censusRequested s (addDue s plane) := .ite (.refl s) rfl

theorem censusRequest_changesOnly (e : Entry) (s : State) : ChangesOnly [.censusRequest e] s (censusRequested s) :=
  changesOnly_of_within (command_within fun _ => .checked (.okWith (.foldl addDue_requested _ s) _) _)

/-- `s` with what reading the assay's results may touch taken from `t`, its completion included (R255, R303). -/
def resultsRead (s t : State) : State := { completed s t with mem := { s.mem with queryPoison := t.mem.queryPoison } }

theorem queryDone_within {s u : State} (h : Within completed s u) (op addr bytes : Nat) (result : List Dword) :
    ReplyWithin resultsRead s (queryDone u op addr bytes result) :=
  have hmarked : Within resultsRead u (emit { u with mem := { u.mem with queryPoison := u.mem.queryPoison.erase op } }
      (.epWrite addr bytes)) := rfl
  have hpoison : Within resultsRead s (emit { u with mem := { u.mem with queryPoison := u.mem.queryPoison.erase op } }
      (.epWrite addr bytes)) := h.andThen hmarked
  .ite hpoison (.okWith h.widen _)

theorem assayResults_assayPixels_changesOnly (e : Entry) (s : State) :
    ChangesOnly [.assayResults e, .assayPixels e] s (resultsRead s) := by
  have hbytes (a : Nat) (bs : List Byte) : Within completed s (hostPut s a bs) := rfl
  have hdws (a : Nat) (ds : List Dword) : Within completed s (hostPutDws s a ds) := rfl
  refine changesOnly_pair (F := resultsRead) (command_within (F := resultsRead) fun _ => .checked (queryDone_within (hbytes _ _) _ _ _ _) _)
    (command_within (F := resultsRead) fun _ => .checked ?_ _)
  split
  · exact .okWith (.refl s) _
  · exact queryDone_within (hdws _ _) _ _ _ _

/-- `s` with a CEASE sent by a command taken from `t`, its completion included (R219). -/
def ceaseIssued (s t : State) : State :=
  { completed s t with pins := { s.pins with ceaseAck := t.pins.ceaseAck }, cease := t.cease }

theorem startCease_issued (s : State) (cause : Nat) (gs wait : List Nat) : Within ceaseIssued s (startCease s cause gs wait) := rfl

theorem sendCease_issued (s : State) (cause : Nat) : Within ceaseIssued s (sendCease s cause) :=
  .ite (.ite (startCease_issued s _ _ _) rfl) (startCease_issued s _ _ _)

theorem ceaseIssue_changesOnly (e : Entry) (s : State) : ChangesOnly [.ceaseIssue e] s (ceaseIssued s) :=
  changesOnly_of_within (command_within fun _ => .checked (.okWith (sendCease_issued s 2) _) _)

/-- `s` with what MODULE_AUTH may touch taken from `t`, its completion included (R446). -/
def authStarted (s t : State) : State :=
  { answered s t with sec := { s.sec with authMask := t.sec.authMask }, dxl := { s.dxl with groups := t.dxl.groups } }

theorem moduleAuth_changesOnly (e : Entry) (s : State) : ChangesOnly [.moduleAuth e] s (authStarted s) := by
  have habsent (g st keyId : Nat) : ReplyWithin authStarted s (.done (authOutcome s g st keyId) st []) :=
    (authOutcome_within s g st keyId).widen
  have hstarted (g : Nat) (f : Group → Group) (note : List Nat) : ReplyWithin authStarted s
      (.runs (startRead (setGroup s g f) g 0) note) := (setGroup_within s g f).andThen (startRead_within _ g 0)
  exact changesOnly_of_within (command_within fun _ => .ite (.reject s _) (.ite trivial (.ite (.reject s _)
    (.ite (habsent _ _ _) (hstarted _ _ _)))))

/-! CEASE (R219, R221, R479). -/

/-- `s` with what CEASE_N touches taken from `t` (R219, R479). -/
def ceaseTaken (s t : State) : State :=
  { s with pins := { s.pins with ceaseN := t.pins.ceaseN, ceaseAck := t.pins.ceaseAck }, cease := t.cease, out := t.out }

theorem startCease_taken (s : State) (cause : Nat) (gs wait : List Nat) : Within ceaseTaken s (startCease s cause gs wait) := rfl

theorem sendCease_taken (s : State) (cause : Nat) : Within ceaseTaken s (sendCease s cause) :=
  .ite (.ite (startCease_taken s _ _ _) rfl) (startCease_taken s _ _ _)

theorem ceaseN_changesOnly (s : State) : ChangesOnly [.ceaseN] s (ceaseTaken s) := by
  have hacked (t : State) (b : Bool) : Within ceaseTaken t { t with pins := { t.pins with ceaseAck := b } } := rfl
  have hsent : Within ceaseTaken s (sendCease { s with pins := { s.pins with ceaseN := true } } 0) :=
    .after (sendCease_taken _ 0)
  refine changesOnly_of_within (show OutcomeWithin ceaseTaken s (execCeaseN s) from ?_)
  exact .ite (show Within ceaseTaken s { s with pins := { s.pins with ceaseN := true } } from rfl)
    (Within.ite (hsent.andThen (hacked _ true)) hsent)

/-- `s` with what the release of CEASE_N touches taken from `t` (R219, R479). -/
def ceaseNReleased (s t : State) : State :=
  { s with pins := { s.pins with ceaseN := t.pins.ceaseN, ceaseAck := t.pins.ceaseAck } }

theorem ceaseNRelease_changesOnly (s : State) : ChangesOnly [.ceaseNRelease] s (ceaseNReleased s) := by
  have hpins (n ack : Bool) : Within ceaseNReleased s { s with pins := { s.pins with ceaseN := n, ceaseAck := ack } } := rfl
  exact changesOnly_of_within (show OutcomeWithin ceaseNReleased s (execCeaseNRelease s) from
    Within.ite (hpins false false) (hpins false s.pins.ceaseAck))

theorem ceaseUnconfirmed_changesOnly (s : State) : ChangesOnly [.ceaseUnconfirmed] s (reported s) := by
  refine changesOnly_of_within (show OutcomeWithin reported s (execCeaseUnconfirmed s) from ?_)
  unfold execCeaseUnconfirmed
  exact .ite (Within.foldl (fun t _ => raise_within t _ _) _ s) (Within.refl s)

/-- `s` with what CEASED touches taken from `t` (R221). -/
def ceasedTaken (s t : State) : State :=
  { s with pins := { s.pins with ceaseAck := t.pins.ceaseAck }, cease := { s.cease with waiting := t.cease.waiting } }

theorem ceased_changesOnly (g cseq : Nat) (s : State) : ChangesOnly [.ceased g cseq] s (ceasedTaken s) := by
  have hwaits (ws : List Nat) (ack : Bool) : Within ceasedTaken s
      { s with cease := { s.cease with waiting := ws }, pins := { s.pins with ceaseAck := ack } } := rfl
  exact changesOnly_of_within (show OutcomeWithin ceasedTaken s (execCeased g cseq s) from
    .ite (hwaits _ _) (Within.refl s))

/-! Lanes (R209 to R213, R225). -/

theorem laneDetect_changesOnly (lane : Nat) (s : State) : ChangesOnly [.laneDetect lane] s (lanesTaken s) :=
  changesOnly_of_within (show OutcomeWithin lanesTaken s (execLaneDetect lane s) from
    .ite (setLane_within s lane _) (Within.refl s))

theorem polarityCount_slipTrial_changesOnly (lane ones : Nat) (trial : Trial) (s : State) :
    ChangesOnly [.polarityCount lane ones, .slipTrial lane trial] s (lanesReported s) := by
  have hset (f : Lane → Lane) : Within lanesReported s (setLane s lane f) := (setLane_within s lane f).widen
  refine changesOnly_pair (show OutcomeWithin lanesReported s (execPolarityCount lane ones s) from ?_)
    (show OutcomeWithin lanesReported s (execSlipTrial lane trial s) from ?_)
  · exact .ite (Within.ite (searchFailed_within s lane) (.ite (hset _) (.ite (hset _) (.refl s)))) (Within.refl s)
  · exact .ite (Within.ite (hset _) (.ite (searchFailed_within s lane) (hset _))) (.ite (hset _) (Within.refl s))

theorem groupBringup_within (link : LinkUp) (s : State) : OutcomeWithin linkReported s (execGroupBringup link s) := by
  have hrated : Within groupsTaken s (if link.g < 44 then
      setGroup s link.g fun y => { y with rate := link.rate % 4, rated := true } else s) :=
    .ite (setGroup_within s _ _) (.refl s)
  exact .ite (Within.refl s) (.ite (orderFailed_within s _) (.ite
    ((hrated.andThen (F := groupsTaken) (setGroup_within _ _ _)).andThen (F := linkReported) (startRead_within _ _ 0))
    (hrated.andThen (F := linkReported) (groupToRun_within _ _))))

theorem markLock_groupBringup_changesOnly (lane logical : Nat) (link : LinkUp) (s : State) :
    ChangesOnly [.markLock lane logical, .groupBringup link] s (linkReported s) :=
  changesOnly_pair (show OutcomeWithin linkReported s (execMarkLock lane logical s) from
    .ite (Within.ite (searchFailed_within s lane).widen (rejoinLane_within s lane _)) (Within.refl s))
    (groupBringup_within link s)

theorem spareAbsent_changesOnly (g : Nat) (s : State) : ChangesOnly [.spareAbsent g] s (groupsReported s) :=
  changesOnly_of_within (show OutcomeWithin groupsReported s (execSpareAbsent g s) from
    .ite ((setGroup_within s g _).andThen (F := groupsReported) (raise_within _ _ _)) (Within.refl s))

theorem los_lol_changesOnly (lane : Nat) (markMissing : Bool) (s : State) :
    ChangesOnly [.los lane, .lol lane markMissing] s (laneLost s) := by
  have hfalls (k cause : Nat) (st : LaneState) : Within laneLost s (laneFalls (count s k) lane cause st) :=
    (count_within s k).andThen (laneFalls_within _ lane cause st)
  exact changesOnly_pair (show OutcomeWithin laneLost s (execLos lane s) from .ite (Within.refl s) (hfalls _ _ _))
    (show OutcomeWithin laneLost s (execLol lane markMissing s) from .ite (Within.refl s) (hfalls _ _ _))

/-- `s` with what RESTRIPE_REQ may touch taken from `t` (R213). -/
def restripeAsked (s t : State) : State := { s with dxl := { s.dxl with groups := t.dxl.groups }, out := t.out, free := t.free }

theorem restripeReq_changesOnly (g llane cause : Nat) (s : State) :
    ChangesOnly [.restripeReq g llane cause] s (restripeAsked s) := by
  have hasked (f : Group → Group) (w : Qword) : Within restripeAsked s (onGroupLanes (setGroup (drawFree s).1 g f) g w) := rfl
  exact changesOnly_of_within (show OutcomeWithin restripeAsked s (execRestripeReq g llane cause s) from
    .ite (Within.refl s) (hasked _ _))

theorem restripe_changesOnly (g llane phys sfn slot : Nat) (s : State) :
    ChangesOnly [.restripe g llane phys sfn slot] s (groupsTaken s) :=
  changesOnly_of_within (show OutcomeWithin groupsTaken s (execRestripe g llane phys sfn slot s) from
    .ite (setGroup_within s g _) (Within.refl s))

/-- `s` with what RESTRIPE_SWITCH may touch taken from `t` (R194, R213). -/
def restriped (s t : State) : State :=
  { reported s t with dxl := { s.dxl with lanes := t.dxl.lanes, groups := t.dxl.groups, tokens := t.dxl.tokens } }

theorem restripeSwitch_changesOnly (g : Nat) (upstream : Bool) (s : State) :
    ChangesOnly [.restripeSwitch g upstream] s (restriped s) := by
  have hreported (u : State) (hu : Within lanesTaken s u) (f : Group → Group) (dir ll phys : Nat) :
      Within restriped s (reportRestripe (setGroup u g f) g dir ll phys) :=
    (hu.andThen (F := restriped) (setGroup_within u g f)).andThen (reportRestripe_within _ g dir ll phys)
  refine changesOnly_of_within (show OutcomeWithin restriped s (execRestripeSwitch g upstream s) from ?_)
  unfold execRestripeSwitch
  refine .ite ?_ ?_
  · split
    · exact .ite (Within.refl s) (hreported _ (setLane_within s _ _) _ _ _ _)
    · exact Within.refl s
  · split
    · exact hreported _ ((setLane_within s _ _).andThen (setLane_within _ _ _)) _ _ _ _
    · exact Within.refl s

/-! Words from modules (R194, R201 to R207, R211, R217). -/

theorem mark_changesOnly (g : Nat) (body : MarkBody) (s : State) : ChangesOnly [.mark g body] s (epochSeen s) :=
  changesOnly_of_within (show OutcomeWithin epochSeen s (execMark g body s) from
    .ite ((setGroup_within s g _).andThen (F := epochSeen) (seenEpoch_within _ g _)) (Within.refl s))

/-- `s` with what HELD touches taken from `t` (R201). -/
def heldTaken (s t : State) : State :=
  { s with dxl := { s.dxl with replay := t.dxl.replay, lastHeld := t.dxl.lastHeld, heldLine := t.dxl.heldLine } }

theorem held_changesOnly (g q rseq : Nat) (nLo : Dword) (s : State) : ChangesOnly [.held g q rseq nLo] s (heldTaken s) := by
  have hheld (rs : List Rec) (lh : Sparse Nat) (hl : Sparse Int) : Within heldTaken s
      { s with dxl := { s.dxl with replay := rs, lastHeld := lh, heldLine := hl } } := rfl
  exact changesOnly_of_within (show OutcomeWithin heldTaken s (execHeld g q rseq nLo s) from
    .ite (Within.refl s) (hheld _ _ _))

theorem resend_changesOnly (g q rseq : Nat) (s : State) : ChangesOnly [.resend g q rseq] s (resent s) := by
  have hsent (rs : List Rec) : Within resent s (countN (rs.foldl sendRec s) (cnum 4 (728 + g)) rs.length) :=
    (Within.foldl sendRec_within rs s).andThen (countN_within _ _ _)
  exact changesOnly_of_within (show OutcomeWithin resent s (execResend g q rseq s) from
    .ite (Within.refl s) (.ite (Within.refl s) (.ite (recordsLost_within s g q) (hsent _))))

/-- `s` with what STATUS may touch taken from `t` (R143, R207, R265). -/
def statusTaken (s t : State) : State :=
  { reported s t with
      pins := { s.pins with ceaseAck := t.pins.ceaseAck, healthReady := t.pins.healthReady }
      csc := { s.csc with seamReq := t.csc.seamReq }, dxl := { s.dxl with groups := t.dxl.groups }
      par := { s.par with state := t.par.state, epoch := t.par.epoch, mustFall := t.par.mustFall } }

theorem adjustJoinSeams_within (s : State) (m : Nat) : Within statusTaken s (adjustJoinSeams s m) := rfl

theorem status_changesOnly (g : Nat) (body : BitVec 48) (s : State) : ChangesOnly [.status g body] s (statusTaken s) :=
  changesOnly_of_within (show OutcomeWithin statusTaken s (execStatus g body s) from
    .ite (Within.refl s) (((setGroup_within s g _).andThen (F := statusTaken) (adjustJoinSeams_within _ g)).andThen
      (F := statusTaken) (seenEpoch_within _ g _)))

theorem mapack_mcrcTimeout_changesOnly (g : Nat) (ok unprompted : Bool) (gen : Dword) (s : State) :
    ChangesOnly [.mapack g ok unprompted gen, .mcrcTimeout g] s (joined s) := by
  refine changesOnly_pair (show OutcomeWithin joined s (execMapack g ok unprompted gen s) from ?_)
    (show OutcomeWithin joined s (execMcrcTimeout g s) from .ite (settleMap_within s g none) (Within.refl s))
  unfold execMapack
  refine .ite (Within.refl s) (.ite (.ite (Within.refl s) (.ite (settleMap_within s g none)
    (setGroup_within s g _).widen)) ?_)
  split
  · exact Within.refl s
  · exact .ite (Within.refl s) (Within.ite (ackGen_within s g _) (sendGenTo_within s _ true g).widen)

/-- `s` with the module reports that wait, and what counting touches, taken from `t` (R123, R207). -/
def reportTaken (s t : State) : State := { reported s t with map := { s.map with reports := t.map.reports } }

theorem ehr_changesOnly (g cause : Nat) (addr : Dword) (s : State) : ChangesOnly [.ehr g cause addr] s (reportTaken s) := by
  refine changesOnly_of_within (show OutcomeWithin reportTaken s (execEhr g cause addr s) from ?_)
  unfold execEhr
  split
  · exact .ite (Within.ite (.refl s) rfl) (count_within s _).widen
  · exact (count_within s _).widen

theorem tmdata_changesOnly (g offset : Nat) (data : Dword) (s : State) :
    ChangesOnly [.tmdata g offset data] s (touchTaken s) :=
  changesOnly_of_within (show OutcomeWithin touchTaken s (execTmdata g offset data s) from
    .ite (Within.refl s) (.ite (Within.ite (mcrcWord_within s g data).widen (.refl s))
      (.ite (touchDword_within s g offset data) (Within.refl s))))

/-- `s` with the temperatures that modules report taken from `t` (R207). -/
def tempsTaken (s t : State) : State := { s with dxl := { s.dxl with temps := t.dxl.temps } }

theorem temp_changesOnly (g sensor : Nat) (value : BitVec 16) (s : State) :
    ChangesOnly [.temp g sensor value] s (tempsTaken s) := by
  have htemps (ts : Sparse Nat) : Within tempsTaken s { s with dxl := { s.dxl with temps := ts } } := rfl
  exact changesOnly_of_within (show OutcomeWithin tempsTaken s (execTemp g sensor value s) from
    .ite (htemps _) (Within.refl s))

/-- `s` with what ECHO_RSP may touch taken from `t` (R194). -/
def latencyTaken (s t : State) : State :=
  { reported s t with dxl := { s.dxl with groups := t.dxl.groups }, free := t.free }

theorem sendJoinJobcfg_within (s : State) (g : Nat) :
    Within (fun s t => { s with out := t.out, free := t.free }) s (sendJoinJobcfg s g) := by
  unfold sendJoinJobcfg
  split
  · exact (emit_within s _).widen
  · rfl

theorem echoRsp_changesOnly (g token turn roundTrip : Nat) (s : State) :
    ChangesOnly [.echoRsp g token turn roundTrip] s (latencyTaken s) := by
  have hlatency (f : Group → Group) (x : Sent) : Within latencyTaken s (emit (setGroup s g f) x) :=
    (setGroup_within s g f).andThen (emit_within _ x)
  have hlong (f f' : Group → Group) (x : Sent) (b : Bool) (code : Nat) (pay : List Dword) : Within latencyTaken s
      (raise (if b then emit (setGroup s g f) x else setGroup (emit (setGroup s g f) x) g f') code pay) :=
    (Within.ite (hlatency f x) ((hlatency f x).andThen (F := latencyTaken) (setGroup_within _ g f'))).andThen
      (raise_within _ code pay)
  have hjoining (f : Group → Group) (x : Sent) (ws : List Sent) (f' : Group → Group) : Within latencyTaken s
      (setGroup (emitAll (sendJoinJobcfg (emit (setGroup s g f) x) g) ws) g f') :=
    (((hlatency f x).andThen (F := latencyTaken) (sendJoinJobcfg_within _ g)).andThen (F := latencyTaken)
      (emitAll_within _ ws)).andThen (setGroup_within _ g f')
  exact changesOnly_of_within (show OutcomeWithin latencyTaken s (execEchoRsp g token turn roundTrip s) from
    .ite (Within.refl s) (.ite (hlong _ _ _ _ _ _) (.ite (hlatency _ _) (hjoining _ _ _ _))))

theorem latencyMeasure_changesOnly (g : Nat) (s : State) : ChangesOnly [.latencyMeasure g] s (echoed s) :=
  changesOnly_of_within (show OutcomeWithin echoed s (execLatencyMeasure g s) from
    .ite (sendEcho_within s g) (Within.refl s))

/-- `s` with what FAULT may touch taken from `t` (R132, R202, R217). -/
def faultTaken (s t : State) : State :=
  { reported s t with
      csc := { s.csc with seamReq := t.csc.seamReq, joinSeams := t.csc.joinSeams }
      dxl := { s.dxl with groups := t.dxl.groups }
      asy := { s.asy with marks := t.asy.marks, markedLines := t.asy.markedLines, cutMarks := t.asy.cutMarks } }

theorem fault_changesOnly (g q kind n : Nat) (s : State) : ChangesOnly [.fault g q kind n] s (faultTaken s) := by
  have hrows (k : Nat) : Within faultTaken s (markRows (countN s k n) g q) :=
    (countN_within s k n).andThen (markRows_within _ g q)
  refine changesOnly_of_within (show OutcomeWithin faultTaken s (execFault g q kind n s) from ?_)
  unfold execFault
  refine .ite (Within.refl s) ?_
  split
  · exact ((requestSeam_within s _ 63).andThen (F := faultTaken) (countN_within _ _ n)).andThen (F := faultTaken)
      (raise_within _ _ _)
  · exact hrows _
  · exact hrows _
  · exact (setGroup_within s g _).andThen (F := faultTaken) (raise_within _ _ _)
  · exact (setGroup_within s g _).widen
  · exact Within.refl s

theorem chkFail_stuffingViolation_changesOnly (lane : Nat) (s : State) :
    ChangesOnly [.chkFail lane, .stuffingViolation lane] s (wordLost s) := by
  have hlost (k : Nat) : Within wordLost s (partnerWordLost (count s k) lane) :=
    (count_within s k).andThen (partnerWordLost_within _ lane)
  exact changesOnly_pair (show OutcomeWithin wordLost s (execChkFail lane s) from .ite (hlost _) (Within.refl s))
    (show OutcomeWithin wordLost s (execStuffingViolation lane s) from .ite (hlost _) (Within.refl s))

/-! The assay (R226, R234, R247, R250, R251). -/

/-- `s` with what SCAN may touch taken from `t` (R226, R227). -/
def scanOpened (s t : State) : State :=
  { reported s t with pages := { s.pages with list := t.pages.list }, asy := { s.asy with cams := t.asy.cams } }

/-- The state once a scan still open is an overrun, discarded and reported (R227). -/
def overrunNoted (s : State) (k : Nat) (o : OpenScan) : State :=
  let s0 := setCam (count s (cnum 4 (810 + k))) k fun c => { c with lastTrig := some o.trig }
  raiseIf ((oncePrinting s0 0x040F).1 || (printingPages s0).isEmpty) (oncePrinting s0 0x040F).2 0x040F (it k ++ it o.trig)

theorem overrunNoted_within (s : State) (k : Nat) (o : OpenScan) : Within scanOpened s (overrunNoted s k o) :=
  (((count_within s _).andThen (F := scanOpened) (setCam_within _ k _)).andThen (F := scanOpened)
    (oncePrinting_within _ 0x040F)).andThen (raiseIf_within _ _ _ _)

theorem scan_changesOnly (k trig pix0 npix : Nat) (deep : Bool) (s : State) :
    ChangesOnly [.scan k trig pix0 npix deep] s (scanOpened s) := by
  refine changesOnly_of_within (show OutcomeWithin scanOpened s (execScan k trig pix0 npix deep s) from ?_)
  unfold execScan
  refine .ite (Within.refl s) ?_
  dsimp only
  split
  · next o _ => exact (overrunNoted_within s k o).andThen (F := scanOpened) (setCam_within _ k _)
  · exact (setCam_within s k _).widen

theorem scanend_changesOnly (k trig : Nat) (crc : Dword) (words : List Qword) (s : State) :
    ChangesOnly [.scanend k trig crc words] s (scanUsed s) := by
  refine changesOnly_of_within (show OutcomeWithin scanUsed s (execScanend k trig crc words s) from ?_)
  unfold execScanend
  refine .ite (Within.refl s) ?_
  split
  · exact Within.refl s
  · exact .ite ((setCam_within s k _).andThen (F := scanUsed) (matchScan_within _ k _ _ _ _))
      ((setCam_within s k _).andThen (F := scanUsed) (count_within _ _))

theorem censusDone_changesOnly (plane : Nat) (s : State) : ChangesOnly [.censusDone plane] s (slotJudged s) := by
  refine changesOnly_of_within (show OutcomeWithin slotJudged s (execCensusDone plane s) from ?_)
  unfold execCensusDone
  split
  · exact judge_within s _ plane _ _ _
  · exact Within.refl s

/-- `s` with what ASSAY_MAP may touch taken from `t` (R251). -/
def mapProposed (s t : State) : State :=
  { reported s t with
      map := { s.map with gens := t.map.gens, pending := t.map.pending, reports := t.map.reports }
      asy := { s.asy with proposed := t.asy.proposed }, par := { s.par with mseqTx := t.par.mseqTx } }

theorem assayMap_changesOnly (s : State) : ChangesOnly [.assayMap] s (mapProposed s) := by
  have hformed (g : Gen) (back code : Nat) (pay : List Dword) : Within mapProposed s
      (raise (countN (count (addGen (dropReports { s with asy := { s.asy with proposed := [] } }) g) (cnum 5 13)) (cnum 5 12)
        back) code pay) :=
    (((Within.after (F := mapProposed) (addGen_within _ g)).andThen (F := mapProposed) (count_within _ _)).andThen
      (F := mapProposed) (countN_within _ _ back)).andThen (raise_within _ code pay)
  have hdropped : Within mapProposed s { s with asy := { s.asy with proposed := [] } } := rfl
  exact changesOnly_of_within (show OutcomeWithin mapProposed s (execAssayMap s) from
    .ite (Within.refl s) (.ite hdropped (hformed _ _ _ _)))

/-- `s` with what ASSAY_CURVES may touch taken from `t` (R251). -/
def curvesProposed (s t : State) : State :=
  { reported s t with
      tables := { s.tables with
        curves := t.tables.curves, entries := t.tables.entries, curveUpds := t.tables.curveUpds, curveGen := t.tables.curveGen
        masks := t.tables.masks, maskUpds := t.tables.maskUpds, poisoned := t.tables.poisoned }
      asy := { s.asy with wants := t.asy.wants }, par := { s.par with mseqTx := t.par.mseqTx } }

theorem assayCurves_changesOnly (s : State) : ChangesOnly [.assayCurves] s (curvesProposed s) := by
  have hformed (es : List (Nat × Nat)) : Within curvesProposed s
      (formCurves { s with asy := { s.asy with wants := [] } } [] es) := .after (formCurves_within _ [] es)
  refine changesOnly_of_within (show OutcomeWithin curvesProposed s (execAssayCurves s) from ?_)
  unfold execAssayCurves
  split
  · exact Within.refl s
  · exact .ite (Within.refl s) (hformed _)

/-- Settles O58: each clause is the overlay of its command, put together from those of the operations it calls. -/
theorem frameLinkAndAssay : Obligations.FrameLinkAndAssay := fun s =>
  ⟨fun e => linkEqLoad_changesOnly e s, fun e => ceaseClear_changesOnly e s, fun e => linkStatus_changesOnly e s,
    fun e => assaySetup_changesOnly e s, fun e => assayStop_changesOnly e s, fun e => assayLock_changesOnly e s,
    fun e => censusRequest_changesOnly e s, fun e => assayResults_assayPixels_changesOnly e s,
    fun e => ceaseIssue_changesOnly e s, fun e => moduleAuth_changesOnly e s, ceaseN_changesOnly s, ceaseNRelease_changesOnly s,
    ceaseUnconfirmed_changesOnly s, fun lane => laneDetect_changesOnly lane s,
    fun lane ones trial => polarityCount_slipTrial_changesOnly lane ones trial s,
    fun lane logical link => markLock_groupBringup_changesOnly lane logical link s, fun g => spareAbsent_changesOnly g s,
    fun lane b => los_lol_changesOnly lane b s, fun g ll cause => restripeReq_changesOnly g ll cause s,
    fun g ll phys sfn slot => restripe_changesOnly g ll phys sfn slot s, fun g up => restripeSwitch_changesOnly g up s,
    fun g body => mark_changesOnly g body s, fun g q rseq lo => held_changesOnly g q rseq lo s,
    fun g q rseq => resend_changesOnly g q rseq s, fun g body => status_changesOnly g body s,
    fun g ok un gen => mapack_mcrcTimeout_changesOnly g ok un gen s, fun g cause a => ehr_changesOnly g cause a s,
    fun g off d => tmdata_changesOnly g off d s, fun g i v => temp_changesOnly g i v s,
    fun g token turn trip => echoRsp_changesOnly g token turn trip s, fun g => latencyMeasure_changesOnly g s,
    fun g q kind n => fault_changesOnly g q kind n s, fun g cseq => ceased_changesOnly g cseq s,
    fun k trig pix0 npix deep => scan_changesOnly k trig pix0 npix deep s,
    fun k trig crc ws => scanend_changesOnly k trig crc ws s, fun p => censusDone_changesOnly p s, assayMap_changesOnly s,
    assayCurves_changesOnly s, fun lane => chkFail_stuffingViolation_changesOnly lane s⟩

end Sys2Proof.Machine
end

section
/-! SUPPORT. Reading lanes, groups and cameras after the shared operations: which of them a report, a word sent or a change of
another block leaves as they were (R209, R210). -/
set_option Elab.async false
namespace Sys2Proof.Machine

theorem laneAt_of_some {s : State} {l : Nat} {x : Lane} (h : s.dxl.lanes[l]? = some x) : laneAt s l = x := by
  simp [laneAt, h]

theorem groupAt_of_some {s : State} {g : Nat} {x : Group} (h : s.dxl.groups[g]? = some x) : groupAt s g = x := by
  simp [groupAt, h]

theorem lt_length_of_some {α : Type} {l : List α} {i : Nat} {x : α} (h : l[i]? = some x) : i < l.length :=
  (List.getElem?_eq_some_iff.mp h).1

@[simp] theorem laneAt_raise (s : State) (code : Nat) (pay : List Dword) (l : Nat) : laneAt (raise s code pay) l = laneAt s l := by
  simp [laneAt]

@[simp] theorem groupAt_raise (s : State) (code : Nat) (pay : List Dword) (g : Nat) :
    groupAt (raise s code pay) g = groupAt s g := by
  simp [groupAt]

@[simp] theorem laneAt_count (s : State) (k l : Nat) : laneAt (count s k) l = laneAt s l := by simp [laneAt]

@[simp] theorem groupAt_count (s : State) (k g : Nat) : groupAt (count s k) g = groupAt s g := by simp [groupAt]

@[simp] theorem laneAt_setGroup (s : State) (g : Nat) (f : Group → Group) (l : Nat) : laneAt (setGroup s g f) l = laneAt s l := rfl

@[simp] theorem groupAt_setLane (s : State) (l : Nat) (f : Lane → Lane) (g : Nat) : groupAt (setLane s l f) g = groupAt s g := rfl

@[simp] theorem groupAt_emit (s : State) (x : Sent) (g : Nat) : groupAt (emit s x) g = groupAt s g := rfl

@[simp] theorem laneAt_onGroupLanes (s : State) (g : Nat) (w : Qword) (l : Nat) : laneAt (onGroupLanes s g w) l = laneAt s l := rfl

@[simp] theorem groupAt_onGroupLanes (s : State) (g : Nat) (w : Qword) (k : Nat) :
    groupAt (onGroupLanes s g w) k = groupAt s k := rfl

@[simp] theorem setGroup_lanes (s : State) (g : Nat) (f : Group → Group) : (setGroup s g f).dxl.lanes = s.dxl.lanes := rfl

@[simp] theorem setLane_groups (s : State) (l : Nat) (f : Lane → Lane) : (setLane s l f).dxl.groups = s.dxl.groups := rfl

@[simp] theorem restartLanes_groups (s : State) (g : Nat) : (restartLanes s g).dxl.groups = s.dxl.groups :=
  (restartLanes_within s g).untouched (·.dxl.groups)

@[simp] theorem lanesToRun_groups (s : State) (g : Nat) : (lanesToRun s g).dxl.groups = s.dxl.groups :=
  (lanesToRun_within s g).untouched (·.dxl.groups)

@[simp] theorem endAuth_dxl (s : State) (g st : Nat) : (endAuth s g st).dxl = s.dxl :=
  (endAuth_within s g st).untouched (·.dxl)

@[simp] theorem loseCamera_dxl (s : State) (k : Nat) : (loseCamera s k).dxl = s.dxl :=
  (loseCamera_within s k).untouched (·.dxl)

/-- A group as it leaves RUN (R215, R225, R446). -/
def outOfRun (x : Group) : Group :=
  { x with run := false, spare := false, joined := false, step := 0, auth := false, restripe := none, restripeTx := none
           statusIn := false }

/-- Of the groups, the one that leaves RUN alone changes (R215). -/
theorem leaveRun_groups (s : State) (g : Nat) : (leaveRun s g).dxl.groups = modAt outOfRun s.dxl.groups g := by
  have hstopped : (dropHolding (setAuth (setGroup (restartLanes (endAuth s g stModuleAbsent) g) g outOfRun) g false) g).dxl.groups =
      modAt outOfRun s.dxl.groups g := by
    show modAt outOfRun (restartLanes (endAuth s g stModuleAbsent) g).dxl.groups g = _
    rw [restartLanes_groups, endAuth_dxl]
  unfold leaveRun
  dsimp only
  split
  · rw [loseCamera_dxl]
    exact hstopped
  · exact hstopped

theorem groupAt_leaveRun {s : State} {g : Nat} (h : g < s.dxl.groups.length) :
    groupAt (leaveRun s g) g = outOfRun (groupAt s g) := by
  rw [groupAt, leaveRun_groups]
  exact modAt_getD_self _ _ _ _ h

theorem groupAt_groupLost (s : State) (m g : Nat) : groupAt (groupLost s m) g = groupAt s g := by
  have hmarked (rs : List Rec) : (rs.foldl (fun t r => markModule t r.m r.q r.n) s).dxl.groups = s.dxl.groups :=
    (Within.foldl (fun t (r : Rec) => markModule_within t r.m r.q r.n) rs s).untouched (·.dxl.groups)
  exact congrArg (·.getD g Group.reset) (hmarked _)

end Sys2Proof.Machine
end

section
/-! SUPPORT. What lane events leave: detection, the searches and their failure, the lanes that trip, and discarded words (R183 to
R188, R209 to R215, R225, R269). -/
set_option Elab.async false
namespace Sys2Proof.Machine

section

variable {s : State} {lane : Nat}

/-! Detection and the searches (R209). -/

theorem laneDetect_answers (hlane : lane < 172) (hlen : lane < s.dxl.lanes.length) (hrun : lanesRun s (laneGroup lane) = true)
    (hmay : (laneAt s lane).state = .detect ∨ ((laneAt s lane).state = .down ∧ (laneAt s lane).searches < 3)) :
    Answers (.laneDetect lane) s (fun t => (laneAt t lane).state = .polarity ∧ t.dxl.groups = s.dxl.groups ∧
      ∀ l, l ≠ lane → t.dxl.lanes[l]? = s.dxl.lanes[l]?) := by
  have hgo : (decide (lane < 172) && lanesRun s (laneGroup lane) && ((laneAt s lane).state == .detect ||
      ((laneAt s lane).state == .down && decide ((laneAt s lane).searches < 3)))) = true := by
    simpa [hlane, hrun] using hmay
  refine ⟨_, if_pos hgo, ?_, rfl, fun l hl => List.getElem?_modify_ne _ _ (Ne.symm hl)⟩
  rw [laneAt_setLane_self _ _ _ hlen]
  dsimp only
  split <;> rfl

theorem searchFailed_retries (hlen : lane < s.dxl.lanes.length) (h : (laneAt s lane).searches < 2) :
    (laneAt (searchFailed s lane) lane).state = .detect ∧
    (laneAt (searchFailed s lane) lane).searches = (laneAt s lane).searches + 1 := by
  have hback : searchFailed s lane =
      setLane s lane fun y => { laneTo .detect y with searches := (laneAt s lane).searches + 1 } := if_neg (by omega)
  rw [hback, laneAt_setLane_self _ _ _ hlen]
  exact ⟨rfl, rfl⟩

theorem searchFailed_gives_up (hlen : lane < s.dxl.lanes.length) (h : 2 ≤ (laneAt s lane).searches) :
    (laneAt (searchFailed s lane) lane).state = .down ∧ (laneAt (searchFailed s lane) lane).searches = 3 := by
  have hdown : searchFailed s lane =
      raise (setLane s lane fun y => { laneTo .down y with searches := 3 }) 0x0401 (it lane) := if_pos (by omega)
  rw [hdown, laneAt_raise, laneAt_setLane_self _ _ _ hlen]
  exact ⟨rfl, rfl⟩

/-- A search that fails, however it does: the 66th trial, a count too late, or MARKs past the bound of LOCK. -/
theorem exec_searchFailed {c : Instr}
    (h : (∃ b, c = .slipTrial lane ⟨false, b⟩ ∧ (laneAt s lane).state = .slip ∧ 65 ≤ (laneAt s lane).trials) ∨
      (∃ ones, c = .polarityCount lane ones ∧ (laneAt s lane).state = .polarity ∧
        (laneAt s lane).since + polarityBound < s.time.clk) ∨
      (∃ l, c = .markLock lane l ∧ (laneAt s lane).state = .lock ∧
        (laneAt s lane).since + lockBound s lane < s.time.clk)) :
    exec c s = .next (searchFailed s lane) := by
  obtain ⟨b, rfl, hst, htrials⟩ | ⟨ones, rfl, hst, hlate⟩ | ⟨l, rfl, hst, hlate⟩ := h
  · have hlast : 66 ≤ (laneAt s lane).trials + 1 := by omega
    exact (if_pos hst).trans (congrArg _ ((if_neg (by simp)).trans (if_pos hlast)))
  · exact (if_pos hst).trans (congrArg _ (if_pos hlate))
  · exact (if_pos hst).trans (congrArg _ (if_pos hlate))

/-- A count in time does what the share of ones says. -/
theorem exec_polarityCount (ones : Nat) (hst : (laneAt s lane).state = .polarity)
    (htime : s.time.clk ≤ (laneAt s lane).since + polarityBound) :
    exec (.polarityCount lane ones) s = .next (if 60 * 4096 < 100 * ones
      then setLane s lane fun y => { y with state := .slip, trials := 0 }
      else if 100 * ones < 40 * 4096 then setLane s lane fun y => { y with inverted := true } else s) :=
  (if_pos hst).trans (congrArg _ (if_neg (Nat.not_lt.mpr htime)))

theorem polarityCount_answers (hlen : lane < s.dxl.lanes.length) (ones : Nat) (hst : (laneAt s lane).state = .polarity)
    (htime : s.time.clk ≤ (laneAt s lane).since + polarityBound) :
    (60 * 4096 < 100 * ones → Answers (.polarityCount lane ones) s (fun t =>
      (laneAt t lane).state = .slip ∧ (laneAt t lane).trials = 0)) ∧
    (100 * ones < 40 * 4096 → Answers (.polarityCount lane ones) s (fun t =>
      (laneAt t lane).state = .polarity ∧ (laneAt t lane).inverted = true)) := by
  refine ⟨fun hhigh => answers_of_eq (exec_polarityCount ones hst htime) (if_pos hhigh) ?_, fun hlow =>
    answers_of_eq (exec_polarityCount ones hst htime) ((if_neg (by omega)).trans (if_pos hlow)) ?_⟩
  · rw [laneAt_setLane_self _ _ _ hlen]
    exact ⟨rfl, rfl⟩
  · rw [laneAt_setLane_self _ _ _ hlen]
    exact ⟨hst, rfl⟩

theorem slipTrial_answers (hlen : lane < s.dxl.lanes.length) (train1 : Bool) (hst : (laneAt s lane).state = .slip) :
    Answers (.slipTrial lane ⟨true, train1⟩) s (fun t => (laneAt t lane).state = .lock ∧
      (laneAt t lane).searches = (laneAt s lane).searches ∧ (laneAt t lane).farLocked = train1) ∧
    ((laneAt s lane).trials < 65 → Answers (.slipTrial lane ⟨false, train1⟩) s (fun t =>
      (laneAt t lane).state = .slip ∧ (laneAt t lane).trials = (laneAt s lane).trials + 1)) := by
  refine ⟨answers_of_eq (if_pos hst) (if_pos rfl) ?_, fun hfew =>
    answers_of_eq (if_pos hst) ((if_neg (by simp)).trans (if_neg (by omega))) ?_⟩
  · rw [laneAt_setLane_self _ _ _ hlen]
    exact ⟨rfl, rfl, rfl⟩
  · rw [laneAt_setLane_self _ _ _ hlen]
    exact ⟨hst, rfl⟩

theorem slipTrial_inLock (hlen : lane < s.dxl.lanes.length) (hst : (laneAt s lane).state = .lock) :
    Answers (.slipTrial lane ⟨true, true⟩) s (fun t => (laneAt t lane).state = .lock ∧ (laneAt t lane).farLocked = true) := by
  refine ⟨_, (if_neg (by simp [hst])).trans (if_pos ⟨hst, rfl, rfl⟩), ?_⟩
  dsimp only
  rw [laneAt_setLane_self _ _ _ hlen]
  exact ⟨hst, rfl⟩

/-! MARKs in time (R209, R213). -/

theorem exec_markLock (logical : Nat) (hst : (laneAt s lane).state = .lock)
    (htime : s.time.clk ≤ (laneAt s lane).since + lockBound s lane) :
    exec (.markLock lane logical) s = .next (rejoinLane s lane (logical % 4)) :=
  (if_pos hst).trans (congrArg _ (if_neg (Nat.not_lt.mpr htime)))

/-- A lane whose group is not up, and not being brought up, is ordered (R209). -/
theorem rejoinLane_orders (hlen : lane < s.dxl.lanes.length) (logical : Nat) (hrun : (groupAt s (laneGroup lane)).run = false)
    (hstep : (groupAt s (laneGroup lane)).step = 0) :
    (laneAt (rejoinLane s lane logical) lane).state = .ordered ∧
    (laneAt (rejoinLane s lane logical) lane).logical = some logical ∧
    (laneAt (rejoinLane s lane logical) lane).searches = 0 := by
  have hordered : rejoinLane s lane logical =
      setLane s lane fun y => { y with state := .ordered, searches := 0, logical := some logical } :=
    (if_neg (by simp [groupUp, hrun])).trans (if_neg (by simp [hstep]))
  rw [hordered, laneAt_setLane_self _ _ _ hlen]
  exact ⟨rfl, rfl, rfl⟩

/-- A lane recovered in a group in RUN is its spare (R213). -/
theorem rejoinLane_spare (hlen : lane < s.dxl.lanes.length) (logical : Nat)
    (hlg : laneGroup lane < s.dxl.groups.length) (hrun : (groupAt s (laneGroup lane)).run = true)
    (hkind : laneGroup lane < 40 ∨ laneGroup lane = 44) :
    (laneAt (rejoinLane s lane logical) lane).state = .run ∧ (laneAt (rejoinLane s lane logical) lane).logical = some 3 ∧
    (groupAt (rejoinLane s lane logical) (laneGroup lane)).spare = true := by
  have hspare : rejoinLane s lane logical = setGroup (setLane s lane fun y =>
      { y with state := .run, searches := 0, logical := some 3 }) (laneGroup lane) fun x => { x with spare := true } :=
    if_pos ⟨hrun, by omega⟩
  rw [hspare, laneAt_setGroup, laneAt_setLane_self _ _ _ hlen,
    groupAt_setGroup_self (setLane s lane _) _ _ hlg]
  exact ⟨rfl, rfl, rfl⟩

/-! A lane in RUN that trips (R212, R213, R215, R225). -/

/-- LOS and LOL of a lane in RUN are counted, and the lane trips. -/
theorem exec_laneTrips {c : Instr} {st : LaneState} (hlane : lane < 172) (hst : (laneAt s lane).state = .run)
    (hc : (c = .los lane ∧ st = .down) ∨ ((∃ b, c = .lol lane b) ∧ st = .detect)) :
    ∃ k cause, exec c s = .next (laneTrips (count s k) lane cause st) := by
  have hfalls (k cause : Nat) : laneFalls (count s k) lane cause st = laneTrips (count s k) lane cause st := by
    unfold laneFalls
    rw [laneAt_count, hst]
  obtain ⟨rfl, rfl⟩ | ⟨⟨b, rfl⟩, rfl⟩ := hc
  · exact ⟨_, _, (if_neg (by simp [hst]; omega)).trans (congrArg _ (hfalls _ _))⟩
  · exact ⟨_, _, (if_neg (by simp [hst]; omega)).trans (congrArg _ (hfalls _ _))⟩

theorem laneTrips_spareLost (hlen : lane < s.dxl.lanes.length) (hlg : laneGroup lane < s.dxl.groups.length) (cause : Nat)
    (st : LaneState) (hkind : laneGroup lane < 40 ∨ laneGroup lane = 44)
    (hll : (laneAt s lane).logical = none ∨ (laneAt s lane).logical = some 3) :
    (laneAt (laneTrips s lane cause st) lane).state = st ∧
    (groupAt (laneTrips s lane cause st) (laneGroup lane)).spare = false ∧
    (groupAt (laneTrips s lane cause st) (laneGroup lane)).run = (groupAt s (laneGroup lane)).run := by
  have hspare : (laneAt s lane).logical.getD 3 = 3 := by rcases hll with h | h <;> rw [h] <;> rfl
  have htrips : laneTrips s lane cause st = raise (setGroup (setLane s lane fun y => laneTo st y) (laneGroup lane)
      fun y => { y with spare := false }) 0x0404 (it (laneGroup lane) ++ it lane) := (if_neg (by omega)).trans (if_pos hspare)
  rw [htrips, laneAt_raise, groupAt_raise, laneAt_setGroup, laneAt_setLane_self _ _ _ hlen,
    groupAt_setGroup_self (setLane s lane _) _ _ hlg]
  exact ⟨rfl, rfl, rfl⟩

theorem laneTrips_toSpare (hlen : lane < s.dxl.lanes.length) (hlg : laneGroup lane < s.dxl.groups.length) (cause : Nat)
    (st : LaneState) (hkind : laneGroup lane < 40 ∨ laneGroup lane = 44) {ll : Nat}
    (hll : (laneAt s lane).logical = some ll) (h3 : ll ≠ 3) (hspare : (groupAt s (laneGroup lane)).spare = true) :
    (laneAt (laneTrips s lane cause st) lane).state = st ∧
    (groupAt (laneTrips s lane cause st) (laneGroup lane)).spare = false ∧
    (groupAt (laneTrips s lane cause st) (laneGroup lane)).run = (groupAt s (laneGroup lane)).run ∧
    (groupAt (laneTrips s lane cause st) (laneGroup lane)).restripe = some (ll, 4, 0, 0) := by
  have hlogical : (laneAt s lane).logical.getD 3 = ll := by rw [hll]; rfl
  have htrips : laneTrips s lane cause st = sendRestripeReq (setGroup (setLane s lane fun y => laneTo st y) (laneGroup lane)
      fun y => { y with spare := false, restripe := some ((laneAt s lane).logical.getD 3, 4, 0, 0) }) (laneGroup lane)
      ((laneAt s lane).logical.getD 3) cause :=
    (if_neg (by omega)).trans ((if_neg (by rwa [hlogical])).trans (if_pos hspare))
  rw [htrips, sendRestripeReq, laneAt_onGroupLanes, groupAt_onGroupLanes, laneAt_setGroup, laneAt_setLane_self _ _ _ hlen,
    groupAt_setGroup_self (setLane s lane _) _ _ hlg, hlogical]
  exact ⟨rfl, rfl, rfl, rfl⟩

/-- The lane's group after a lane of it fell has gone out of RUN. -/
theorem groupAt_groupDown {g : Nat} (hlg : g < s.dxl.groups.length) : groupAt (groupDown s g) g = outOfRun (groupAt s g) := by
  unfold groupDown
  dsimp only
  rw [groupAt_raise]
  split
  · rw [groupAt_groupLost, groupAt_leaveRun hlg]
  · exact groupAt_leaveRun hlg

theorem laneTrips_groupDown (hlg : laneGroup lane < s.dxl.groups.length) (cause : Nat) (st : LaneState)
    (hkind : laneGroup lane < 40 ∨ laneGroup lane = 44) {ll : Nat}
    (hll : (laneAt s lane).logical = some ll) (h3 : ll ≠ 3) (hspare : (groupAt s (laneGroup lane)).spare = false) :
    (groupAt (laneTrips s lane cause st) (laneGroup lane)).run = false ∧
    (groupAt (laneTrips s lane cause st) (laneGroup lane)).joined = false := by
  have hlogical : ¬ (laneAt s lane).logical.getD 3 = 3 := by rw [hll]; exact h3
  have htrips : laneTrips s lane cause st = groupDown (setLane s lane fun y => laneTo st y) (laneGroup lane) :=
    (if_neg (by omega)).trans ((if_neg hlogical).trans (if_neg (by simp [hspare])))
  rw [htrips, groupAt_groupDown (s := setLane s lane fun y => laneTo st y) hlg]
  exact ⟨rfl, rfl⟩

theorem laneTrips_camera (hlg : laneGroup lane < s.dxl.groups.length) (cause : Nat) (st : LaneState)
    (h40 : 40 ≤ laneGroup lane) (h44 : laneGroup lane < 44) :
    (groupAt (laneTrips s lane cause st) (laneGroup lane)).run = false := by
  have htrips : laneTrips s lane cause st = cameraDown (setLane s lane fun y => laneTo st y) (laneGroup lane - 40) :=
    if_pos ⟨h40, h44⟩
  have hgroup : 40 + (laneGroup lane - 40) = laneGroup lane := by omega
  rw [htrips, cameraDown, groupAt_raise, hgroup, groupAt_leaveRun (s := setLane s lane fun y => laneTo st y) hlg]
  rfl

/-! Discarded words (R183, R188, R269). -/

/-- Module-plane `k` is marked out of step, with a refill mark (R140). -/
def RefillMarked (k : Nat) (s : State) : Prop := k ∈ s.csc.marks ∧ k ∈ s.csc.refillMarks

theorem setMark_marks (s : State) (k : Nat) : RefillMarked k (setMark s k true) := by
  have hadd (l : List Nat) : k ∈ if l.contains k then l else l ++ [k] := by
    split
    · next h => exact List.contains_iff_mem.mp h
    · exact List.mem_append_right _ (List.mem_singleton.mpr rfl)
  refine ⟨hadd _, ?_⟩
  have hrefill : (setMark s k true).csc.refillMarks = if s.csc.refillMarks.contains k then s.csc.refillMarks
      else s.csc.refillMarks ++ [k] := by
    simp [setMark]
  rw [hrefill]
  exact hadd _

theorem setMark_keeps (s : State) (j : Nat) {k : Nat} (h : RefillMarked k s) : RefillMarked k (setMark s j true) := by
  have hkeep {c : Prop} [Decidable c] {l l' : List Nat} (hl : k ∈ l) (hl' : k ∈ l') : k ∈ if c then l else l' := by
    split
    · exact hl
    · exact hl'
  exact ⟨hkeep h.1 (List.mem_append_left _ h.1), hkeep (List.mem_append_left _ h.2) h.2⟩

theorem foldl_setMark_marks (ks : List Nat) (s : State) {k : Nat} (h : k ∈ ks ∨ RefillMarked k s) :
    RefillMarked k (ks.foldl (fun t j => setMark t j true) s) := by
  induction ks generalizing s with
  | nil => exact h.resolve_left List.not_mem_nil
  | cons j ks ih =>
    refine ih _ ?_
    rcases h with hmem | hmarked
    · rcases List.mem_cons.mp hmem with rfl | hmem
      · exact .inr (setMark_marks s k)
      · exact .inl hmem
    · exact .inr (setMark_keeps s j hmarked)

theorem setAllRefillMarks_marks (s : State) {k : Nat} (hk : k < 160) : RefillMarked k (setAllRefillMarks s) :=
  foldl_setMark_marks _ s (.inl (List.mem_range.mpr hk))

theorem servitor_of_par {s t : State} (h : t.par = s.par) : servitor t = servitor s := by simp [servitor, isGaffer, h]

/-- A discarded word is counted; one lost on a servitor's partner link sets every refill mark (R269). -/
theorem exec_wordLost {c : Instr} (hlane : lane < 172) (hc : c = .chkFail lane ∨ c = .stuffingViolation lane) :
    Answers c s (fun t => t.dxl = s.dxl ∧ t.map = s.map ∧
      (168 ≤ lane → servitor s = true → ∀ k, k < 160 → k ∈ t.csc.marks ∧ k ∈ t.csc.refillMarks) ∧
      (lane < 168 ∨ servitor s = false → t.csc = s.csc)) := by
  have hexec : ∃ k, exec c s = .next (partnerWordLost (count s k) lane) := by
    rcases hc with rfl | rfl
    · exact ⟨_, if_pos hlane⟩
    · exact ⟨_, if_pos hlane⟩
  obtain ⟨k, hexec⟩ := hexec
  have hlost := (count_within s k).andThen (F := wordLost) (partnerWordLost_within _ lane)
  have hserv : servitor (count s k) = servitor s := servitor_of_par (by simp)
  refine ⟨_, hexec, hlost.untouched (·.dxl), hlost.untouched (·.map), fun h168 hs j hj => ?_, fun hkept => ?_⟩
  · rw [partnerWordLost, if_pos ⟨h168, hserv.trans hs⟩]
    exact setAllRefillMarks_marks _ hj
  · rw [partnerWordLost, if_neg]
    · simp
    · rintro ⟨h168, hs⟩
      rcases hkept with h | h
      · omega
      · rw [hserv, h] at hs
        cases hs

end

/-- Settles O20: each event's state is read off by the lemma of its operation; a failed search, however it fails, is
`exec_searchFailed`, and a lane that trips is one of the four cases of `laneTrips`. -/
theorem laneEvents : Obligations.LaneEvents := by
  intro lane s x hlane hx g
  have hlen := lt_length_of_some hx
  obtain rfl := laneAt_of_some hx
  refine ⟨laneDetect_answers hlane hlen, polarityCount_answers hlen, slipTrial_answers hlen, slipTrial_inLock hlen,
    fun c hc => ⟨fun hfew => ⟨_, exec_searchFailed hc, searchFailed_retries hlen hfew⟩,
      fun hmany => ⟨_, exec_searchFailed hc, searchFailed_gives_up hlen hmany⟩⟩, ?_, ?_, fun c hc => exec_wordLost hlane hc⟩
  · intro logical hst htime
    refine ⟨fun hrun hstep => ⟨_, exec_markLock logical hst htime, rejoinLane_orders hlen _ hrun hstep⟩, ?_⟩
    intro y hy hrun hkind
    obtain rfl := groupAt_of_some hy
    exact ⟨_, exec_markLock logical hst htime, rejoinLane_spare hlen _ (lt_length_of_some hy) hrun hkind⟩
  · intro y hy hst c st hc
    have hlg := lt_length_of_some hy
    obtain rfl := groupAt_of_some hy
    obtain ⟨k, cause, hexec⟩ := exec_laneTrips hlane hst hc
    have hlen' : lane < (count s k).dxl.lanes.length := by simpa using hlen
    have hlg' : g < (count s k).dxl.groups.length := by simpa using hlg
    have hl : laneAt (count s k) lane = laneAt s lane := laneAt_count s k lane
    have hg : groupAt (count s k) g = groupAt s g := groupAt_count s k g
    refine ⟨fun hkind hll => ⟨_, hexec, ?_⟩, fun ll hkind hll h3 hspare => ⟨_, hexec, ?_⟩,
      fun ll hkind hll h3 hspare => ⟨_, hexec, ?_⟩, fun h40 h44 => ⟨_, hexec, laneTrips_camera hlg' cause st h40 h44⟩⟩
    · rw [← hg]
      exact laneTrips_spareLost hlen' hlg' cause st hkind (by rwa [hl])
    · rw [← hg]
      exact laneTrips_toSpare hlen' hlg' cause st hkind (by rwa [hl]) h3 (by rwa [hg])
    · exact laneTrips_groupDown hlg' cause st hkind (hl.symm ▸ hll) h3 (hg.symm ▸ hspare)

end Sys2Proof.Machine
end

section
/-! SUPPORT. What has left the chip stays sent: a report only adds to it. -/
set_option Elab.async false
namespace Sys2Proof.Machine

/-- What has left the chip in `s` has left it in `t`. -/
def StaysSent (s t : State) : Prop := s.out ⊆ t.out

namespace StaysSent

variable {s t u : State}

theorem refl (s : State) : StaysSent s s := List.Subset.refl _

theorem trans (h : StaysSent s t) (h' : StaysSent t u) : StaysSent s u := List.Subset.trans h h'

theorem of_eq (h : t.out = s.out) : StaysSent s t := fun _ hx => h.symm ▸ hx

theorem ite {c : Prop} [Decidable c] (ht : StaysSent s t) (hu : StaysSent s u) : StaysSent s (if c then t else u) :=
  iteInduction (fun _ => ht) fun _ => hu

end StaysSent

theorem emit_staysSent (s : State) (x : Sent) : StaysSent s (emit s x) := List.subset_cons_self ..

theorem sendVector_staysSent (s : State) (v : Nat) : StaysSent s (sendVector s v) := by
  unfold sendVector
  exact .ite (.refl s) (.ite (emit_staysSent s _) (.refl s))

theorem logOnly_staysSent (s : State) (code : Nat) (pay : List Dword) : StaysSent s (logOnly s code pay) := by
  have hput (p q : List Dword) (n : Nat) : StaysSent s (putRest (putEntry s code false p) code n q) := .of_eq (by simp)
  have hvector (t : State) (o : Obs) : StaysSent t (sendVector { t with obs := o } 30) :=
    sendVector_staysSent { t with obs := o } 30
  have hsignal (t : State) : StaysSent t (signalLog t) := .ite (.refl t) (hvector t _)
  unfold logOnly
  exact .ite (.refl s) (.ite ((hput _ _ _).trans (hsignal _)) (hput _ _ _))

theorem logEvent_staysSent (s : State) (code : Nat) (pay : List Dword) : StaysSent s (logEvent s code pay) :=
  .ite ((logOnly_staysSent s code pay).trans (logOnly_staysSent _ _ _)) (logOnly_staysSent s code pay)

theorem countLog_staysSent (s : State) (k : Nat) : StaysSent s (countLog s k) := by
  have hbump : StaysSent s (bump s k 1).1 := .refl s
  exact .ite (hbump.trans (logEvent_staysSent _ _ _)) hbump

theorem startCease_staysSent (s : State) (cause : Nat) (gs wait : List Nat) : StaysSent s (startCease s cause gs wait) :=
  List.subset_append_right ..

theorem sendCease_staysSent (s : State) (cause : Nat) : StaysSent s (sendCease s cause) :=
  .ite (.ite (startCease_staysSent s _ _ _) (.refl s)) (startCease_staysSent s _ _ _)

theorem takeTrigger_staysSent (s : State) (source evCode evSeq : Nat) : StaysSent s (takeTrigger s source evCode evSeq) := by
  have hquench (q : Quench) : StaysSent s (countLog { s with quench := q } (cnum 12 0)) :=
    countLog_staysSent { s with quench := q } _
  unfold takeTrigger
  exact .ite (.ite ((hquench _).trans (sendCease_staysSent _ 3)) (hquench _)) (.ite (.refl s) (countLog_staysSent s _))

theorem satTrigger_staysSent (s0 s : State) : StaysSent s (satTrigger s0 s) := .ite (takeTrigger_staysSent s _ _ _) (.refl s)

theorem raise_staysSent (s : State) (code : Nat) (pay : List Dword) : StaysSent s (raise s code pay) := by
  have htriggered : StaysSent s (if eventSelected s code then takeTrigger (logEvent s code pay) 2 code s.obs.seq
      else logEvent s code pay) :=
    .ite ((logEvent_staysSent s code pay).trans (takeTrigger_staysSent _ _ _ _)) (logEvent_staysSent s code pay)
  exact htriggered.trans (satTrigger_staysSent s _)

end Sys2Proof.Machine
end

section
/-! SUPPORT. What group events leave: bring-up, touchmarks, the map of a module that joins, its latency, and re-striping (R178, R194,
R206, R210 to R213, R222). -/
set_option Elab.async false
namespace Sys2Proof.Machine

section

variable {s : State} {g : Nat}

/-! Bring-up (R210). -/

@[simp] theorem groupAt_lanesToRun (s : State) (g k : Nat) : groupAt (lanesToRun s g) k = groupAt s k := by
  simp [groupAt]

/-- A group that runs: with a spare where a fourth lane is ordered (R210). -/
theorem groupAt_groupToRun (hlen : g < s.dxl.groups.length) :
    groupAt (groupToRun s g) g = { groupAt s g with run := true, spare := (orderedLanes s g).length == 4 } := by
  unfold groupToRun
  rw [groupAt_lanesToRun, groupAt_setGroup_self _ _ _ hlen]

/-- A lane to be set to DETECT that is one of `ls`, or stands in DETECT, stands in DETECT once all of `ls` are. -/
theorem foldl_setLane_detects {f : Nat → Lane → Lane} (hf : ∀ i y, (f i y).state = .detect) {l : Nat} (ls : List Nat) (s : State)
    (h : l ∈ ls ∨ ∀ y, s.dxl.lanes[l]? = some y → y.state = .detect) :
    ∀ y, (ls.foldl (fun t i => setLane t i (f i)) s).dxl.lanes[l]? = some y → y.state = .detect := by
  induction ls generalizing s with
  | nil => exact h.resolve_left List.not_mem_nil
  | cons i ls ih =>
    refine ih _ ?_
    by_cases hil : i = l
    · subst hil
      refine .inr fun y hy => ?_
      obtain ⟨x, -, rfl⟩ := Option.map_eq_some_iff.mp ((List.getElem?_modify_eq ..).symm.trans hy)
      exact hf i x
    · refine h.imp (fun hmem => (List.mem_cons.mp hmem).resolve_left (Ne.symm hil)) fun hdetect y hy => ?_
      exact hdetect y ((List.getElem?_modify_ne _ _ hil).symm.trans hy)

/-- Every lane of a group that starts again stands in DETECT (R210, R215). -/
theorem restartLanes_detects (s : State) (g : Nat) {l : Nat} (hl : l ∈ groupLanes g) {y : Lane}
    (hy : (restartLanes s g).dxl.lanes[l]? = some y) : y.state = .detect :=
  foldl_setLane_detects (f := fun l x => { laneTo .detect x with searches := 0, txLogical := l % 4 }) (fun _ _ => rfl)
    _ s (.inl hl) y hy

/-- GROUP_BRINGUP passes its checks: the lanes are enabled, the group is neither up nor being brought up, and has lanes enough. -/
theorem bringup_goes {link : LinkUp} (hlt : link.g < 45) (hrun : lanesRun s link.g = true)
    (hdown : (groupAt s link.g).run = false) (hstep : (groupAt s link.g).step = 0)
    (hneed : (if 40 ≤ link.g ∧ link.g < 44 then 2 else 3) ≤ (orderedLanes s link.g).length) :
    ¬ (decide (44 < link.g) || !lanesRun s link.g || (groupAt s link.g).run || (groupAt s link.g).step != 0 ||
      decide ((orderedLanes s link.g).length < if 40 ≤ link.g ∧ link.g < 44 then 2 else 3)) = true := by
  have hnot : ¬ 44 < link.g := by omega
  simp [hrun, hdown, hstep, hnot, hneed]

/-- The state in which a module group or a camera pair has the rate that its bring-up brings (R178). -/
def rateTaken (s : State) (link : LinkUp) : State :=
  if link.g < 44 then setGroup s link.g fun y => { y with rate := link.rate % 4, rated := true } else s

theorem groupAt_rateTaken (link : LinkUp) (hlen : link.g < s.dxl.groups.length) :
    groupAt (rateTaken s link) link.g =
      if link.g < 44 then { groupAt s link.g with rate := link.rate % 4, rated := true } else groupAt s link.g := by
  unfold rateTaken
  split
  · exact groupAt_setGroup_self s _ _ hlen
  · rfl

theorem rateTaken_within (s : State) (link : LinkUp) : Within groupsTaken s (rateTaken s link) :=
  .ite (setGroup_within s _ _) (.refl s)

theorem rateTaken_length (s : State) (link : LinkUp) : (rateTaken s link).dxl.groups.length = s.dxl.groups.length := by
  unfold rateTaken
  split
  · exact setGroup_length _ _ _
  · rfl

theorem exec_groupBringup {link : LinkUp} (hlt : link.g < 45) (hrun : lanesRun s link.g = true)
    (hdown : (groupAt s link.g).run = false) (hstep : (groupAt s link.g).step = 0)
    (hneed : (if 40 ≤ link.g ∧ link.g < 44 then 2 else 3) ≤ (orderedLanes s link.g).length)
    (hnodup : (claimed s (orderedLanes s link.g)).Nodup) :
    exec (.groupBringup link) s = .next (if link.g < 40
      then startRead (setGroup (rateTaken s link) link.g fun y => { y with step := 1 }) link.g 0
      else groupToRun (rateTaken s link) link.g) :=
  (if_neg (bringup_goes hlt hrun hdown hstep hneed)).trans ((if_neg (not_not.mpr hnodup)).trans (apply_ite _ _ _ _).symm)

theorem groupBringup_answers (hlen : g < s.dxl.groups.length) (hlt : g < 45) (rate : Nat) (hrun : lanesRun s g = true)
    (hdown : (groupAt s g).run = false) (hstep : (groupAt s g).step = 0)
    (hneed : (if 40 ≤ g ∧ g < 44 then 2 else 3) ≤ (orderedLanes s g).length) (hnodup : (claimed s (orderedLanes s g)).Nodup) :
    Answers (.groupBringup ⟨g, rate⟩) s (fun t =>
      (g < 44 → (groupAt t g).rate = rate % 4) ∧
      (g < 40 → (groupAt t g).step = 1 ∧ (groupAt t g).run = false ∧ (groupAt t g).fresh.asked = 33 ∧
        (groupAt t g).fresh.got = 0) ∧
      (40 ≤ g → (groupAt t g).run = true ∧ (groupAt t g).spare = ((orderedLanes s g).length == 4))) := by
  have hexec := exec_groupBringup (link := ⟨g, rate⟩) hlt hrun hdown hstep hneed hnodup
  have hrated := groupAt_rateTaken (s := s) ⟨g, rate⟩ hlen
  have hlen1 : g < (rateTaken s ⟨g, rate⟩).dxl.groups.length := (rateTaken_length s ⟨g, rate⟩).symm ▸ hlen
  have hordered : orderedLanes (rateTaken s ⟨g, rate⟩) g = orderedLanes s g :=
    (rateTaken_within s ⟨g, rate⟩).untouched (orderedLanes · g)
  by_cases h40 : g < 40
  · have h44 : g < 44 := by omega
    refine answers_of_eq hexec (if_pos h40) ?_
    rw [startRead, groupAt_emit, groupAt_setGroup_self _ _ _ ((setGroup_length ..).symm ▸ hlen1),
      groupAt_setGroup_self _ _ _ hlen1, hrated, if_pos h44]
    exact ⟨fun _ => rfl, fun _ => ⟨rfl, hdown, rfl, rfl⟩, fun h => absurd h (by omega)⟩
  · refine answers_of_eq hexec (if_neg h40) ?_
    rw [groupAt_groupToRun hlen1, hrated, hordered]
    refine ⟨fun h44 => ?_, fun h => absurd h h40, fun _ => ⟨rfl, rfl⟩⟩
    rw [if_pos h44]

/-- Two lanes of one number restart every lane of the group (R210). -/
theorem groupBringup_orderFails (hlen : g < s.dxl.groups.length) (hlt : g < 45) (rate : Nat) (hrun : lanesRun s g = true)
    (hdown : (groupAt s g).run = false) (hstep : (groupAt s g).step = 0)
    (hneed : (if 40 ≤ g ∧ g < 44 then 2 else 3) ≤ (orderedLanes s g).length) (hdup : ¬ (claimed s (orderedLanes s g)).Nodup) :
    Answers (.groupBringup ⟨g, rate⟩) s (fun t => (groupAt t g).run = false ∧
      ∀ l ∈ groupLanes g, ∀ y, t.dxl.lanes[l]? = some y → y.state = .detect) := by
  refine ⟨_, (if_neg (bringup_goes (link := ⟨g, rate⟩) hlt hrun hdown hstep hneed)).trans (if_pos hdup), ?_, fun l hl y hy => ?_⟩
  · have hlen' : g < (restartLanes s g).dxl.groups.length := by simpa using hlen
    have hsame : groupAt (restartLanes s g) g = groupAt s g := by simp [groupAt]
    dsimp only
    rw [orderFailed, groupAt_raise, groupAt_setGroup_self _ _ _ hlen', hsame]
    exact hdown
  · have hlanes : (orderFailed s g).dxl.lanes = (restartLanes s g).dxl.lanes := by simp [orderFailed]
    exact restartLanes_detects s g hl (hlanes ▸ hy)

theorem spareAbsent_answers (hlen : g < s.dxl.groups.length) (hkind : g < 40 ∨ g = 44)
    (hup : (groupAt s g).run = true ∨ (groupAt s g).step ≠ 0) (hthree : (orderedLanes s g).length = 3) :
    Answers (.spareAbsent g) s (fun t => (groupAt t g).spare = false ∧ (groupAt t g).run = (groupAt s g).run) := by
  refine ⟨_, if_pos ⟨hkind, hup, hthree⟩, ?_⟩
  dsimp only
  rw [groupAt_raise, groupAt_setGroup_self _ _ _ hlen]
  exact ⟨rfl, rfl⟩

/-! Touchmarks (R211, R222). -/

/-- The read of a touchmark once dword `off` has come (R211). -/
def dwordTaken (t : Touch) (off : Nat) (d : Dword) : Touch :=
  { t with dwords := mapSet 0 t.dwords off d, got := off + 1, total := if off = 1 then fld d 0 16 else t.total }

theorem exec_tmdata {off : Nat} (d : Dword) (h40 : g < 40) (hoff : off ≠ 0xFFFF) (hgot : off = (groupAt s g).fresh.got)
    (hasked : off < (groupAt s g).fresh.asked) (hread : (groupAt s g).step = 1 ∨ (groupAt s g).auth = true) :
    exec (.tmdata g off d) s = .next (touchDword s g off d) :=
  (if_neg (Nat.not_le.mpr h40)).trans ((if_neg hoff).trans (if_pos ⟨hread, hgot, hasked⟩))

theorem tmdata_more (hlen : g < s.dxl.groups.length) {off : Nat} (d : Dword) (h40 : g < 40) (hoff : off ≠ 0xFFFF)
    (hgot : off = (groupAt s g).fresh.got) (hasked : off < (groupAt s g).fresh.asked)
    (hread : (groupAt s g).step = 1 ∨ (groupAt s g).auth = true) (hmore : off + 1 < (groupAt s g).fresh.asked) :
    Answers (.tmdata g off d) s (fun t => (groupAt t g).fresh = dwordTaken (groupAt s g).fresh off d ∧
      (groupAt t g).step = (groupAt s g).step) := by
  refine answers_of_eq (exec_tmdata d h40 hoff hgot hasked hread) (if_pos hmore) ?_
  rw [groupAt_setGroup_self _ _ _ hlen]
  exact ⟨rfl, rfl⟩

theorem groupAt_sendEcho (hlen : g < s.dxl.groups.length) :
    groupAt (sendEcho s g) g = { groupAt s g with echoToken := (s.dxl.tokens + 1) % 2 ^ 16 } :=
  groupAt_setGroup_self { s with dxl := { s.dxl with tokens := _ } } g _ hlen

/-- The last dword of a touchmark in form, read at bring-up, that lists the group's rate: the join goes on with the latency
(R178, R211, R223). -/
theorem touchRead_answers (hlen : g < s.dxl.groups.length) (hok : touchOk (groupAt s g).fresh = true)
    (hrate : bitOf (fdw (groupAt s g).fresh 5) (12 + (groupAt s g).rate) = true) :
    (groupAt (touchRead s g) g).touch = { (groupAt s g).fresh with valid := true } ∧
    (groupAt (touchRead s g) g).step = 2 ∧ (groupAt (touchRead s g) g).echoToken = (s.dxl.tokens + 1) % 2 ^ 16 := by
  let touched (y : Group) : Group := { y with touch := { (groupAt s g).fresh with valid := true },
                                              newTouch := y.recorded != some (touchKey (groupAt s g).fresh) }
  have hlen1 : g < (setGroup s g touched).dxl.groups.length := by simpa using hlen
  have hgroup : groupAt (setGroup s g touched) g = touched (groupAt s g) := groupAt_setGroup_self s g touched hlen
  have hhas : hasRate (setGroup s g touched) g (groupAt s g).rate = true := by
    rw [hasRate, touchDw, hgroup]
    exact hrate
  have hread : touchRead s g = sendEcho (setGroup (setGroup s g touched) g fun y => { y with step := 2 }) g :=
    (if_neg (by simp [hok])).trans (if_neg (by rw [hhas]; decide))
  rw [hread, groupAt_sendEcho (by simpa using hlen), groupAt_setGroup_self _ _ _ hlen1, hgroup]
  exact ⟨rfl, rfl, rfl⟩

theorem tmdata_last (hlen : g < s.dxl.groups.length) {off : Nat} (d : Dword) (h40 : g < 40) (hoff : off ≠ 0xFFFF)
    (hgot : off = (groupAt s g).fresh.got) (hasked : off < (groupAt s g).fresh.asked) (hstep : (groupAt s g).step = 1)
    (hauth : (groupAt s g).auth = false) (hlast : off + 1 = (groupAt s g).fresh.asked)
    (htotal : off + 1 = (dwordTaken (groupAt s g).fresh off d).total) (hok : touchOk (dwordTaken (groupAt s g).fresh off d) = true)
    (hrate : bitOf (fdw (dwordTaken (groupAt s g).fresh off d) 5) (12 + (groupAt s g).rate) = true) :
    Answers (.tmdata g off d) s (fun t => (groupAt t g).touch = { dwordTaken (groupAt s g).fresh off d with valid := true } ∧
      (groupAt t g).step = 2 ∧ (groupAt t g).echoToken = (s.dxl.tokens + 1) % 2 ^ 16) := by
  let kept (y : Group) : Group := { y with fresh := dwordTaken (groupAt s g).fresh off d }
  have hgroup : groupAt (setGroup s g kept) g = kept (groupAt s g) := groupAt_setGroup_self s g kept hlen
  have hnone : ¬ (off + 1 < (dwordTaken (groupAt s g).fresh off d).total ∧
      (dwordTaken (groupAt s g).fresh off d).total ≤ 16384) := by omega
  have hdone : touchDword s g off d = touchRead (setGroup s g kept) g :=
    (if_neg (by omega)).trans ((if_neg hnone).trans (if_neg (by
      show ¬ (groupAt (setGroup s g kept) g).auth = true
      rw [hgroup]
      simp [kept, hauth])))
  refine answers_of_eq (exec_tmdata d h40 hoff hgot hasked (.inl hstep)) hdone ?_
  have hread := touchRead_answers (s := setGroup s g kept) (g := g) (by simpa using hlen)
  rw [hgroup] at hread
  exact hread hok hrate

/-! The map of a module that joins (R206, R210). -/

theorem groupAt_joinedRun (hlen : g < s.dxl.groups.length) :
    (groupAt (joinedRun s g) g).joined = true ∧ (groupAt (joinedRun s g) g).run = true ∧
    (groupAt (joinedRun s g) g).step = 0 ∧ (groupAt (joinedRun s g) g).unprompted = (groupAt s g).unprompted := by
  rw [joinedRun, groupAt_groupToRun (by simpa using hlen), groupAt_setGroup_self _ _ _ hlen]
  exact ⟨rfl, rfl, rfl, rfl⟩

theorem groupAt_finishJoin (s : State) (g k : Nat) : groupAt (finishJoin s g) k = groupAt (joinedRun s g) k :=
  (finishJoin_told s g).untouched (groupAt · k)

theorem finishJoin_acked (s : State) (g : Nat) : (finishJoin s g).map.acked = s.map.acked :=
  ((finishJoin_told s g).untouched (·.map.acked)).trans ((joinedRun_within s g).untouched (·.map.acked))

theorem groupAt_mapGoneOut (hlen : g < s.dxl.groups.length) (held : Option Nat) :
    groupAt (mapGoneOut s g held) g = { groupAt s g with step := 4, unprompted := none } :=
  ((mapGoneOut_sent s g held).untouched (groupAt · g)).trans (groupAt_setGroup_self (heldNoted s g held) g _ hlen)

theorem mapGoneOut_length (s : State) (g : Nat) (held : Option Nat) :
    (mapGoneOut s g held).dxl.groups.length = s.dxl.groups.length :=
  ((mapGoneOut_sent s g held).untouched (·.dxl.groups.length)).trans (setGroup_length _ _ _)

theorem settleMap_acked (s : State) (g : Nat) (held : Option Nat) :
    (settleMap s g held).map.acked = (heldNoted s g held).map.acked := by
  have hsent : (mapGoneOut s g held).map.acked = (heldNoted s g held).map.acked :=
    (mapGoneOut_sent s g held).untouched (·.map.acked)
  rw [settleMap_eq]
  split
  · rw [finishJoin_acked, hsent]
  · exact hsent

theorem settleMap_unprompted (hlen : g < s.dxl.groups.length) (held : Option Nat) :
    (groupAt (settleMap s g held) g).unprompted = none := by
  rw [settleMap_eq]
  split
  · obtain ⟨-, -, -, hkept⟩ := groupAt_joinedRun (s := mapGoneOut s g held) (g := g) (by rwa [mapGoneOut_length])
    rw [groupAt_finishJoin, hkept, groupAt_mapGoneOut hlen]
  · rw [groupAt_mapGoneOut hlen]

/-- With nothing to send the module joins (R206). -/
theorem settleMap_joins (hlen : g < s.dxl.groups.length) {held : Option Nat} (h : mapToSend (heldNoted s g held) held = []) :
    (groupAt (settleMap s g held) g).joined = true ∧ (groupAt (settleMap s g held) g).run = true ∧
    (groupAt (settleMap s g held) g).step = 0 := by
  obtain ⟨hjoined, hrun, hstep, -⟩ := groupAt_joinedRun (s := mapGoneOut s g held) (g := g) (by rwa [mapGoneOut_length])
  rw [settleMap_eq, if_pos (by rw [h]; rfl), groupAt_finishJoin]
  exact ⟨hjoined, hrun, hstep⟩

/-- With something to send the module waits for its acknowledgement (R206). -/
theorem settleMap_waits (hlen : g < s.dxl.groups.length) {held : Option Nat} (h : mapToSend (heldNoted s g held) held ≠ []) :
    (groupAt (settleMap s g held) g).step = 4 := by
  rw [settleMap_eq, if_neg (by simpa using h), groupAt_mapGoneOut hlen]

/-- A module without a map lacks nothing only where no generation is formed (R206). -/
theorem mapToSend_none_eq_nil (s : State) : mapToSend s none = [] ↔ s.map.gens = [] := by
  constructor
  · intro hnil
    by_contra hgens
    obtain ⟨x, hx⟩ := List.exists_mem_of_ne_nil _ hgens
    unfold mapToSend at hnil
    dsimp only at hnil
    split at hnil
    · cases hnil
    · next hsettled =>
      rw [List.map_eq_nil_iff, List.map_eq_nil_iff, List.filter_eq_nil_iff] at hnil
      rw [settledGen, List.getLast?_eq_none_iff, List.filter_eq_nil_iff] at hsettled
      exact hsettled x hx (by simpa using hnil x hx)
  · intro hgens
    simp [mapToSend, settledGen, hgens]

theorem heldNoted_acked_some (s : State) (g n : Nat) : (g, n) ∈ (heldNoted s g (some n)).map.acked := by
  show (g, n) ∈ if s.map.acked.contains (g, n) then s.map.acked else s.map.acked ++ [(g, n)]
  split
  · next h => exact List.contains_iff_mem.mp h
  · exact List.mem_append_right _ (List.mem_singleton.mpr rfl)

theorem heldNoted_acked_none (s : State) (g : Nat) : ∀ a ∈ (heldNoted s g none).map.acked, a.1 ≠ g := fun _ ha =>
  bne_iff_ne.mp (List.mem_filter.mp ha).2

/-- MCRC says whether the module holds the generation it named (R206). -/
theorem mcrc_answers (hlen : g < s.dxl.groups.length) (d : Dword) {n : Nat} (h40 : g < 40) (hstep : (groupAt s g).step = 3)
    (hun : (groupAt s g).unprompted = some n) :
    Answers (.tmdata g 0xFFFF d) s (fun t => (groupAt t g).unprompted = none ∧
      ((∃ y ∈ s.map.gens, y.number = n ∧ crc32d (moduleImage y.codes g) = d.toNat) → (g, n) ∈ t.map.acked)) := by
  have hword : mcrcWord s g d = settleMap s g (if s.map.gens.any fun x => x.number == n &&
      crc32d (moduleImage x.codes g) == d.toNat then some n else none) := by
    unfold mcrcWord
    rw [hun]
  refine answers_of_eq ((if_neg (Nat.not_le.mpr h40)).trans ((if_pos rfl).trans (congrArg _ (if_pos hstep)))) hword ?_
  refine ⟨settleMap_unprompted hlen _, fun ⟨y, hy, hn, hcrc⟩ => ?_⟩
  rw [settleMap_acked, if_pos (List.any_eq_true.mpr ⟨y, hy, by simp [hn, hcrc]⟩)]
  exact heldNoted_acked_some s g n

/-- An unprompted MAPACK of no generation, and MCRC_TIMEOUT, leave the module's map unknown (R206). -/
theorem exec_mapUnknown {c : Instr} {gen : Dword} (h40 : g < 40) (hstep : (groupAt s g).step = 3)
    (hc : (∃ ok, c = .mapack g ok true gen ∧ gen.toNat = 0) ∨ (c = .mcrcTimeout g ∧ (groupAt s g).unprompted ≠ none)) :
    exec c s = .next (settleMap s g none) := by
  obtain ⟨ok, rfl, hzero⟩ | ⟨rfl, hun⟩ := hc
  · exact (if_neg (Nat.not_le.mpr h40)).trans ((if_pos rfl).trans ((if_neg (not_not.mpr hstep)).trans (if_pos hzero)))
  · exact if_pos ⟨h40, hstep, Option.isSome_iff_ne_none.mpr hun⟩

theorem mapUnknown_answers (hlen : g < s.dxl.groups.length) {c : Instr} {gen : Dword} (h40 : g < 40)
    (hstep : (groupAt s g).step = 3)
    (hc : (∃ ok, c = .mapack g ok true gen ∧ gen.toNat = 0) ∨ (c = .mcrcTimeout g ∧ (groupAt s g).unprompted ≠ none)) :
    Answers c s (fun t => (∀ a ∈ t.map.acked, a.1 ≠ g) ∧
      (s.map.gens = [] → (groupAt t g).joined = true ∧ (groupAt t g).run = true ∧ (groupAt t g).step = 0) ∧
      (s.map.gens ≠ [] → (groupAt t g).step = 4)) := by
  refine ⟨_, exec_mapUnknown h40 hstep hc, ?_, fun hnil => settleMap_joins hlen ((mapToSend_none_eq_nil _).mpr hnil),
    fun hgens => settleMap_waits hlen (mt (mapToSend_none_eq_nil _).mp hgens)⟩
  rw [settleMap_acked]
  exact heldNoted_acked_none s g

theorem mapack_unprompted (hlen : g < s.dxl.groups.length) {gen : Dword} (h40 : g < 40) (hstep : (groupAt s g).step = 3)
    (hgen : gen.toNat ≠ 0) (ok : Bool) :
    Answers (.mapack g ok true gen) s (fun t => (groupAt t g).unprompted = some gen.toNat) := by
  refine ⟨_, (if_neg (Nat.not_le.mpr h40)).trans ((if_pos rfl).trans ((if_neg (not_not.mpr hstep)).trans (if_neg hgen))), ?_⟩
  dsimp only
  rw [groupAt_setGroup_self _ _ _ hlen]

/-- An acknowledgement of a generation sent, and an answer that it did not arrive (R206). -/
theorem exec_mapack {gen : Dword} {k : Gen} (h40 : g < 40) (hk : s.map.gens.find? (fun y => y.number == gen.toNat) = some k)
    (hup : (groupAt s g).run = true ∨ (groupAt s g).step = 4) (ok : Bool) :
    exec (.mapack g ok false gen) s = .next (if ok then ackGen s g gen.toNat else sendGenTo s k true g) := by
  have hgo : ¬ (!(groupAt s g).run && (groupAt s g).step != 4) = true := by
    rcases hup with h | h <;> simp [h]
  refine (if_neg (Nat.not_le.mpr h40)).trans ((if_neg (by simp)).trans ?_)
  rw [hk]
  exact if_neg hgo

theorem ackGen_acked (s : State) (g n : Nat) : (g, n) ∈ (ackGen s g n).map.acked := by
  have hacked : (g, n) ∈ (if s.map.acked.contains (g, n) then s
      else { s with map := { s.map with acked := s.map.acked ++ [(g, n)] } }).map.acked := by
    split
    · next h => exact List.contains_iff_mem.mp h
    · exact List.mem_append_right _ (List.mem_singleton.mpr rfl)
  have hjoins (t : State) (c : Prop) [Decidable c] (ht : (g, n) ∈ t.map.acked) :
      (g, n) ∈ (if c then finishJoin t g else t).map.acked := by
    split
    · rwa [finishJoin_acked]
    · exact ht
  exact hjoins _ _ hacked

/-! Latency (R194). -/

/-- The state once a latency has been measured and has gone out in LATENCY (R194). -/
def latencySent (s : State) (g l : Nat) : State :=
  emit (setGroup s g fun y => { y with latency := l }) (.ctrl g (ctrlWord 0x48 [(40, l % 2 ^ 16)]))

theorem groupAt_latencySent (hlen : g < s.dxl.groups.length) (l : Nat) :
    groupAt (latencySent s g l) g = { groupAt s g with latency := l } := groupAt_setGroup_self s g _ hlen

theorem latencySent_sends (s : State) (g l : Nat) : Sent.ctrl g (ctrlWord 0x48 [(40, l % 2 ^ 16)]) ∈ (latencySent s g l).out :=
  List.mem_cons_self

/-- JOBCFG and LINEBASE to a module at bring-up (R194, R196). -/
def joinToldJob (s : State) (g : Nat) : State :=
  emitAll (sendJoinJobcfg s g) ((linebaseWords (lineCounter s)).map fun w => .ctrl g w)

theorem joinToldJob_within (s : State) (g : Nat) :
    Within (fun s t => { s with out := t.out, free := t.free }) s (joinToldJob s g) :=
  (sendJoinJobcfg_within s g).andThen (emitAll_within _ _)

theorem joinToldJob_staysSent (s : State) (g : Nat) : StaysSent s (joinToldJob s g) := by
  have hcfg : StaysSent s (sendJoinJobcfg s g) := by
    unfold sendJoinJobcfg
    split
    · exact emit_staysSent s _
    · exact emit_staysSent (drawFree s).1 _
  exact hcfg.trans (List.subset_append_right ..)

/-- What ECHO_RSP with the token expected does with the latency `l` it gives (R194). -/
def latencyAnswered (s : State) (g l : Nat) : State :=
  if maxLatency < l then
    raise (if (groupAt s g).run then latencySent s g l else setGroup (latencySent s g l) g fun y => { y with step := 9 })
      0x040A (it g ++ it l)
  else if (groupAt s g).run then latencySent s g l
  else setGroup (joinToldJob (latencySent s g l) g) g fun y => { y with step := 3 }

theorem exec_echoRsp (turn trip : Nat) (h40 : g < 40) (hup : (groupAt s g).run = true ∨ (groupAt s g).step = 2) :
    exec (.echoRsp g (groupAt s g).echoToken turn trip) s = .next (latencyAnswered s g ((trip - turn) / 2)) := by
  have hgo : ¬ (40 ≤ g ∨ (groupAt s g).echoToken ≠ (groupAt s g).echoToken ∨
      ¬ ((groupAt s g).run = true ∨ (groupAt s g).step = 2)) := by
    rintro (h | h | h)
    · omega
    · exact h rfl
    · exact h hup
  refine (if_neg hgo).trans ?_
  unfold latencyAnswered
  dsimp only
  split
  · rfl
  · split <;> rfl

theorem latencyAnswered_group (hlen : g < s.dxl.groups.length) (l : Nat) :
    (groupAt (latencyAnswered s g l) g).latency = l ∧ (groupAt (latencyAnswered s g l) g).run = (groupAt s g).run ∧
    ((groupAt s g).run = false → (groupAt (latencyAnswered s g l) g).step = if l ≤ 3200 then 3 else 9) := by
  have hsent := groupAt_latencySent hlen l
  have hlen1 : g < (latencySent s g l).dxl.groups.length := (modAt_length ..).symm ▸ hlen
  have hjob : groupAt (joinToldJob (latencySent s g l) g) g = groupAt (latencySent s g l) g :=
    (joinToldJob_within _ g).untouched (groupAt · g)
  have hlen2 : g < (joinToldJob (latencySent s g l) g).dxl.groups.length :=
    ((joinToldJob_within _ g).untouched (·.dxl.groups.length)).symm ▸ hlen1
  unfold latencyAnswered
  split
  · next hlong =>
    have hstep : ¬ l ≤ 3200 := Nat.not_le.mpr hlong
    rw [groupAt_raise, if_neg hstep]
    split
    · next hrun =>
      rw [hsent]
      exact ⟨rfl, rfl, fun h => absurd (h.symm.trans hrun) (by decide)⟩
    · rw [groupAt_setGroup_self _ _ _ hlen1, hsent]
      exact ⟨rfl, rfl, fun _ => rfl⟩
  · next hshort =>
    have hstep : l ≤ 3200 := Nat.not_lt.mp hshort
    rw [if_pos hstep]
    split
    · next hrun =>
      rw [hsent]
      exact ⟨rfl, rfl, fun h => absurd (h.symm.trans hrun) (by decide)⟩
    · rw [groupAt_setGroup_self _ _ _ hlen2, hjob, hsent]
      exact ⟨rfl, rfl, fun _ => rfl⟩

theorem latencyAnswered_sends (s : State) (g l : Nat) :
    Sent.ctrl g (ctrlWord 0x48 [(40, l % 2 ^ 16)]) ∈ (latencyAnswered s g l).out := by
  have hsent := latencySent_sends s g l
  unfold latencyAnswered
  split
  · refine raise_staysSent _ _ _ ?_
    split
    · exact hsent
    · exact hsent
  · split
    · exact hsent
    · exact joinToldJob_staysSent _ g hsent

theorem latencyMeasure_answers (hlen : g < s.dxl.groups.length) (h40 : g < 40) (hrun : (groupAt s g).run = true) :
    Answers (.latencyMeasure g) s (fun t => t.dxl.tokens = (s.dxl.tokens + 1) % 2 ^ 16 ∧
      (groupAt t g).echoToken = (s.dxl.tokens + 1) % 2 ^ 16) := by
  refine ⟨_, if_pos ⟨h40, hrun⟩, rfl, ?_⟩
  rw [groupAt_sendEcho hlen]

/-! Re-striping (R213, R228). -/

theorem restripeReq_answers (hlen : g < s.dxl.groups.length) {ll cause : Nat} (hkind : g < 40 ∨ g = 44)
    (hrun : (groupAt s g).run = true) (hll : ll < 3) (hlo : 1 ≤ cause) (hhi : cause ≤ 3) :
    Answers (.restripeReq g ll cause) s (fun t => (groupAt t g).restripeTx = some (ll, txLane s g 3 % 4) ∧
      t.free = s.free + 1) := by
  have hgo : ¬ (¬ (g < 40 ∨ g = 44) ∨ (groupAt s g).run = false ∨ 3 ≤ ll ∨ cause = 0 ∨ 3 < cause) := by
    rintro (h | h | h | h | h)
    · exact h hkind
    · exact absurd (h.symm.trans hrun) (by decide)
    all_goals omega
  refine ⟨_, if_neg hgo, ?_, rfl⟩
  rw [groupAt_onGroupLanes]
  exact congrArg Group.restripeTx (groupAt_setGroup_self _ g _ hlen)

theorem restripe_answers (hlen : g < s.dxl.groups.length) {ll phys : Nat} (sfn slot : Nat) (hkind : g < 40 ∨ g = 44)
    (hrun : (groupAt s g).run = true) (hll : ll < 3) (hphys : phys < 4) :
    Answers (.restripe g ll phys sfn slot) s (fun t =>
      (groupAt t g).restripe = some (ll, phys, sfn % 64, slot % 1024)) := by
  refine ⟨_, if_pos ⟨hkind, hrun, hll, hphys⟩, ?_⟩
  dsimp only
  rw [groupAt_setGroup_self _ _ _ hlen]

/-- A re-stripe reported changes neither the lanes nor what its group expects. -/
theorem reportRestripe_kept (hlen : g < s.dxl.groups.length) (dir ll phys l : Nat) :
    laneAt (reportRestripe s g dir ll phys) l = laneAt s l ∧
    (groupAt (reportRestripe s g dir ll phys) g).restripe = (groupAt s g).restripe ∧
    (groupAt (reportRestripe s g dir ll phys) g).restripeTx = (groupAt s g).restripeTx := by
  have hecho (t : State) (h : t.dxl = s.dxl) : laneAt (sendEcho t g) l = laneAt s l ∧
      (groupAt (sendEcho t g) g).restripe = (groupAt s g).restripe ∧
      (groupAt (sendEcho t g) g).restripeTx = (groupAt s g).restripeTx := by
    have hgroup : groupAt t g = groupAt s g := congrArg (·.groups.getD g Group.reset) h
    rw [groupAt_sendEcho (by rwa [h]), hgroup]
    exact ⟨congrArg (·.lanes.getD l (Lane.reset l)) h, rfl, rfl⟩
  unfold reportRestripe
  dsimp only
  split
  · exact hecho _ (by simp)
  · rw [laneAt_raise, groupAt_raise]
    exact ⟨rfl, rfl, rfl⟩

theorem restripeSwitch_up {ll phys a b : Nat} (hlen : g < s.dxl.groups.length)
    (hre : (groupAt s g).restripe = some (ll, phys, a, b)) (hphys : phys < 4)
    (hlane : (groupLanes g).headD 0 + phys < s.dxl.lanes.length) :
    Answers (.restripeSwitch g true) s (fun t => (groupAt t g).restripe = none ∧
      (laneAt t ((groupLanes g).headD 0 + phys)).logical = some ll) := by
  have hexec : exec (.restripeSwitch g true) s = .next (reportRestripe (setGroup (setLane s ((groupLanes g).headD 0 + phys)
      fun y => { y with logical := some ll }) g fun y => { y with restripe := none }) g 1 ll phys) := by
    show execRestripeSwitch g true s = _
    unfold execRestripeSwitch
    dsimp only
    rw [if_pos rfl, hre]
    exact if_neg (Nat.not_le.mpr hphys)
  refine ⟨_, hexec, ?_⟩
  obtain ⟨hl, hr, -⟩ := reportRestripe_kept (s := setGroup (setLane s ((groupLanes g).headD 0 + phys)
      fun y => { y with logical := some ll }) g fun y => { y with restripe := none }) (g := g) (by simpa using hlen) 1 ll phys
      ((groupLanes g).headD 0 + phys)
  rw [hl, hr, laneAt_setGroup, laneAt_setLane_self _ _ _ hlane, groupAt_setGroup_self (setLane s _ _) _ _ hlen]
  exact ⟨rfl, rfl⟩

theorem restripeSwitch_down {ll phys : Nat} (hlen : g < s.dxl.groups.length)
    (hre : (groupAt s g).restripeTx = some (ll, phys)) (hlane : (groupLanes g).headD 0 + phys < s.dxl.lanes.length) :
    Answers (.restripeSwitch g false) s (fun t => (groupAt t g).restripeTx = none ∧
      (laneAt t ((groupLanes g).headD 0 + phys)).txLogical = ll) := by
  let spared : State := setLane s ((groupLanes g).headD 0 + txLane s g ll) fun y => { y with txLogical := 3 }
  let switched : State := setGroup (setLane spared ((groupLanes g).headD 0 + phys) fun y => { y with txLogical := ll }) g
    fun y => { y with restripeTx := none }
  have hexec : exec (.restripeSwitch g false) s = .next (reportRestripe switched g 0 ll phys) := by
    show execRestripeSwitch g false s = _
    unfold execRestripeSwitch
    dsimp only
    rw [if_neg Bool.false_ne_true, hre]
  refine ⟨_, hexec, ?_⟩
  obtain ⟨hl, -, hr⟩ := reportRestripe_kept (s := switched) (g := g) (by simpa [switched, spared] using hlen) 0 ll phys
    ((groupLanes g).headD 0 + phys)
  rw [hl, hr, laneAt_setGroup, laneAt_setLane_self spared _ _ (by simpa [spared] using hlane),
    groupAt_setGroup_self (setLane spared _ _) _ _ hlen]
  exact ⟨rfl, rfl⟩

end

/-- Settles O21: bring-up is read off the group it leaves; a touchmark's last dword is `touchRead_answers`, a map that is settled
`settleMap_joins` and `settleMap_waits`, a latency `latencyAnswered_group`, a switch `reportRestripe_kept`. -/
theorem groupEvents : Obligations.GroupEvents := by
  intro g s x hlt hx
  have hlen := lt_length_of_some hx
  obtain rfl := groupAt_of_some hx
  refine ⟨fun hrun hdown hstep hneed =>
      ⟨fun hnodup rate => groupBringup_answers hlen hlt rate hrun hdown hstep hneed hnodup,
        fun hdup rate => groupBringup_orderFails hlen hlt rate hrun hdown hstep hneed hdup⟩,
    spareAbsent_answers hlen, ?_, fun d n => mcrc_answers hlen d, ?_, ?_, ?_, latencyMeasure_answers hlen, ?_, ?_, ?_, ?_⟩
  · intro off d h40 hoff hgot hasked f
    exact ⟨tmdata_more hlen d h40 hoff hgot hasked, tmdata_last hlen d h40 hoff hgot hasked⟩
  · intro gen h40 hstep
    exact ⟨mapack_unprompted hlen h40 hstep, fun c hc => mapUnknown_answers hlen h40 hstep hc⟩
  · intro gen k h40 hk hup
    exact ⟨⟨_, exec_mapack h40 hk hup true, ackGen_acked s g _⟩, exec_mapack h40 hk hup false⟩
  · intro turn trip h40 hup
    obtain ⟨hlat, hrun, hstep⟩ := latencyAnswered_group hlen ((trip - turn) / 2)
    exact ⟨_, exec_echoRsp turn trip h40 hup, hlat, hrun, latencyAnswered_sends s g _, hstep⟩
  · intro ll cause hkind hrun hll hlo hhi
    exact restripeReq_answers hlen hkind hrun hll hlo hhi
  · intro ll phys sfn slot hkind hrun hll hphys
    exact restripe_answers hlen sfn slot hkind hrun hll hphys
  · intro ll phys a b y hre hphys hy
    exact restripeSwitch_up hlen hre hphys (lt_length_of_some hy)
  · intro ll phys y hre hy
    exact restripeSwitch_down hlen hre (lt_length_of_some hy)

end Sys2Proof.Machine
end

section
/-! SUPPORT. The states that CEASE and the commands of the links leave (R180, R219, R221, R395, R446, R479). -/
set_option Elab.async false
namespace Sys2Proof.Machine

section
variable {s : State}

/-! CEASE_N (R219, R221, R479). -/

theorem mayAck_outOfSave (hsave : s.pwr.state ≠ .save) :
    mayAck s = (hasRun s && (s.par.state != .failed && s.pwr.state != .off)) := by
  unfold mayAck
  rw [if_neg hsave]

theorem ackFollows_of_hasRun (h : hasRun s = true) : ackFollows s = false := by
  unfold ackFollows
  rw [h]
  rfl

theorem ackFollows_of_driven (hrun : hasRun s = false) (hdriven : s.pins.driven = true) (hsave : s.pwr.state ≠ .save) :
    ackFollows s = true := by
  simp [ackFollows, hrun, hdriven, hsave]

theorem exec_ceaseN (hheld : s.pins.resetHeld = false) : exec .ceaseN s = .next
    (if ackFollows s then { sendCease { s with pins := { s.pins with ceaseN := true } } 0 with
        pins := { (sendCease { s with pins := { s.pins with ceaseN := true } } 0).pins with ceaseAck := true } }
      else sendCease { s with pins := { s.pins with ceaseN := true } } 0) :=
  if_neg (Bool.not_eq_true _ ▸ hheld)

/-- Out of SAVE a CEASE goes to every group in RUN and waits for every joined module (R219, R221). -/
theorem sendCease_outOfSave (hsave : s.pwr.state ≠ .save) (cause : Nat) :
    sendCease s cause = startCease s cause (runGroups s) (joinedModules s) := if_neg hsave

theorem startCease_ack (s : State) (cause : Nat) (gs wait : List Nat) :
    (startCease s cause gs wait).pins.ceaseAck = (s.pins.ceaseAck || (wait.isEmpty && mayAck s)) := rfl

theorem ceaseN_answers (hheld : s.pins.resetHeld = false) (hsave : s.pwr.state ≠ .save) :
    Answers .ceaseN s (fun t => t.pins.ceaseN = true ∧
      t.cease.seq = (s.cease.seq + 1) % 256 ∧ t.cease.inForce = true ∧ t.cease.waiting = joinedModules s ∧
      (s.par.state = .failed → hasRun s = true → t.pins.ceaseAck = s.pins.ceaseAck) ∧
      (hasRun s = true → s.par.state ≠ .failed → s.pwr.state ≠ .off → joinedModules s = [] → t.pins.ceaseAck = true) ∧
      (joinedModules s ≠ [] → hasRun s = true → t.pins.ceaseAck = s.pins.ceaseAck) ∧
      (hasRun s = false → s.pins.driven = true → t.pins.ceaseAck = true)) := by
  have hexec := exec_ceaseN hheld
  rw [sendCease_outOfSave (s := { s with pins := { s.pins with ceaseN := true } }) hsave] at hexec
  have hmay : mayAck { s with pins := { s.pins with ceaseN := true } } = mayAck s := rfl
  by_cases hfollows : ackFollows s = true
  · have hrun : hasRun s ≠ true := fun h => by simp [ackFollows_of_hasRun h] at hfollows
    exact answers_of_eq hexec (if_pos hfollows) ⟨rfl, rfl, rfl, rfl, fun _ h => absurd h hrun, fun h => absurd h hrun,
      fun _ h => absurd h hrun, fun _ _ => rfl⟩
  · refine answers_of_eq hexec (if_neg hfollows) ⟨rfl, rfl, rfl, rfl, fun hfailed _ => ?_, fun hrun hup hon hnone => ?_,
      fun hsome _ => ?_, fun hrun hdriven => absurd (ackFollows_of_driven hrun hdriven hsave) hfollows⟩
    · rw [startCease_ack, hmay, mayAck_outOfSave hsave, hfailed]
      simp
    · rw [startCease_ack, hmay, mayAck_outOfSave hsave]
      simp only [Bool.or_eq_true, Bool.and_eq_true, bne_iff_ne, List.isEmpty_iff]
      exact .inr ⟨hnone, hrun, hup, hon⟩
    · have hwait : (joinedModules s).isEmpty = false := by simpa using hsome
      rw [startCease_ack]
      show (s.pins.ceaseAck || ((joinedModules s).isEmpty && _)) = _
      rw [hwait, Bool.false_and, Bool.or_false]

theorem ceaseN_inSave (hheld : s.pins.resetHeld = false) (hrun : hasRun s = true) (hsave : s.pwr.state = .save) :
    exec .ceaseN s = .next (ceaseInSave { s with pins := { s.pins with ceaseN := true } } 0) := by
  rw [exec_ceaseN hheld, ackFollows_of_hasRun hrun]
  exact congrArg _ (if_pos hsave)

theorem ceaseNRelease_answers (s : State) : Answers .ceaseNRelease s (fun t => t.pins.ceaseN = false ∧ t.cease = s.cease ∧
    (hasRun s = false → s.pins.driven = true → s.pwr.state ≠ .save → t.pins.ceaseAck = false)) := by
  by_cases hfollows : ackFollows s = true
  · exact answers_of_eq rfl (if_pos hfollows) ⟨rfl, rfl, fun _ _ _ => rfl⟩
  · exact answers_of_eq rfl (if_neg hfollows) ⟨rfl, rfl, fun hrun hdriven hsave =>
      absurd (ackFollows_of_driven hrun hdriven hsave) hfollows⟩

/-! CEASED (R221). -/

theorem ceased_answers {g : Nat} (h40 : g < 40) (hforce : s.cease.inForce = true) :
    Answers (.ceased g s.cease.seq) s (fun t =>
      t.cease.waiting = s.cease.waiting.filter (fun m => m != g) ∧ t.cease.inForce = true ∧
      ((∀ m ∈ s.cease.waiting, m = g) → mayAck s = true → t.pins.ceaseAck = true)) := by
  refine ⟨_, if_pos ⟨h40, hforce, rfl⟩, rfl, hforce, fun hlast hmay => ?_⟩
  have hwait : s.cease.waiting.filter (fun m => m != g) = [] :=
    List.filter_eq_nil_iff.mpr fun m hm => by simp [hlast m hm]
  show (s.pins.ceaseAck || ((s.cease.waiting.filter fun m => m != g).isEmpty && mayAck s)) = true
  rw [hwait, hmay]
  exact Bool.or_true _

theorem ceaseUnconfirmed_answers (hforce : s.cease.inForce = true) : Answers .ceaseUnconfirmed s (fun t =>
    t.dxl = s.dxl ∧ t.map = s.map ∧ ((∀ m ∈ s.cease.waiting, (groupAt s m).run = true) → t = s)) := by
  refine ⟨_, if_pos hforce, foldl_keeps (·.dxl) _ (fun _ _ => by simp) _ s, foldl_keeps (·.map) _ (fun _ _ => by simp) _ s,
    fun hall => ?_⟩
  have hnone : s.cease.waiting.filter (fun m => !(groupAt s m).run) = [] :=
    List.filter_eq_nil_iff.mpr fun m hm => by simp [hall m hm]
  rw [hnone]
  rfl

variable {e : Entry} {r : InFlight}

/-! CEASE_CLEAR and CEASE_ISSUE (R219, R395). -/

theorem resume_ends (s : State) : (resume s).cease.inForce = false ∧ (resume s).cease.seq = s.cease.seq ∧
    (s.cease.inForce = true → (resume s).pins.ceaseAck = false ∧ (resume s).cease.waiting = []) := by
  unfold resume
  split
  · exact ⟨rfl, rfl, fun _ => ⟨rfl, rfl⟩⟩
  · next hnone => exact ⟨Bool.not_eq_true _ ▸ hnone, rfl, fun h => absurd h hnone⟩

theorem ceaseClear_answers (hT : Turn 0x0113 e s r) (hrsv : rsvOk e [] = true) (hpin : s.pins.ceaseN = false) :
    Answers (.ceaseClear e) s (fun t => ∃ u : State, t = finish u r stOk [] ∧ u.cease.inForce = false ∧
      u.cease.seq = s.cease.seq ∧ (s.cease.inForce = true → u.pins.ceaseAck = false ∧ u.cease.waiting = [])) := by
  have hpass : [(!rsvOk e [], stFormat), (s.pins.ceaseN, stState)].all (fun c => !c.1) = true := by simp [hrsv, hpin]
  exact completes_of_exec (congrArg Host.Outcome.next ((command_passes hT rfl hpass).trans (settle_okWith ..))) (resume_ends s)

/-- A command of the mailbox is at its turn only out of SAVE (R414). -/
theorem outOfSave_of_turn {op : Nat} (hT : Turn op e s r) : s.pwr.state ≠ .save := by
  obtain ⟨-, -, hcommon⟩ := hT
  intro hsave
  unfold commonCheck at hcommon
  dsimp only at hcommon
  rw [if_pos (Or.inl hsave)] at hcommon
  split at hcommon
  · cases hcommon
  · split at hcommon
    · cases hcommon
    · split at hcommon <;> cases hcommon

theorem ceaseIssue_answers (hT : Turn 0x0906 e s r) (hrsv : rsvOk e [] = true) :
    Answers (.ceaseIssue e) s (fun t => ∃ u : State, t = finish u r stOk [] ∧
      u.cease.seq = (s.cease.seq + 1) % 256 ∧ u.cease.inForce = true ∧ u.cease.waiting = joinedModules s) := by
  refine completes_of_exec
    (congrArg Host.Outcome.next ((command_passes hT rfl (by simp [hrsv])).trans (settle_okWith ..))) ?_
  rw [sendCease_outOfSave (outOfSave_of_turn hT)]
  exact ⟨rfl, rfl, rfl⟩

/-! LINK_EQ_LOAD and LINK_STATUS (R180, R395). -/

/-- What the change of one element leaves alone in every element, it leaves alone in the one read. -/
theorem modAt_getD_kept {α β : Type} (p : α → β) {f : α → α} (hp : ∀ x, p (f x) = p x) (l : List α) (k i : Nat) (d : α) :
    p ((modAt f l k).getD i d) = p (l.getD i d) := by
  rw [modAt, List.getD_eq_getElem?_getD, List.getD_eq_getElem?_getD, List.getElem?_modify]
  cases l[i]? with
  | none => rfl
  | some x =>
    show p (if k = i then f x else x) = p x
    split
    · exact hp x
    · rfl

/-- An entry changes no lane's state and leaves the lanes as many. -/
theorem loadEq_kept (s : State) (w : Dword) (l : Nat) :
    (laneAt (loadEq s w) l).state = (laneAt s l).state ∧ (loadEq s w).dxl.lanes.length = s.dxl.lanes.length :=
  ⟨modAt_getD_kept Lane.state (fun y => by split <;> rfl) _ _ _ _, setLane_length s _ _⟩

theorem loadEqs_kept (d : List Dword) (s : State) (l : Nat) :
    (laneAt (d.foldl loadEq s) l).state = (laneAt s l).state ∧ (d.foldl loadEq s).dxl.lanes.length = s.dxl.lanes.length :=
  ⟨foldl_keeps (fun t => (laneAt t l).state) loadEq (fun t w => (loadEq_kept t w l).1) d s,
    foldl_keeps (·.dxl.lanes.length) loadEq (fun t w => (loadEq_kept t w l).2) d s⟩

/-- The last entry of a record stands as it was written. -/
theorem loadEqs_last {d : List Dword} {w : Dword} (hlast : d.getLast? = some w) (hlane : fld w 24 8 < s.dxl.lanes.length) :
    (bitOf w 23 = true → (laneAt (d.foldl loadEq s) (fld w 24 8)).eqRxNew = w) ∧
    (bitOf w 23 = false → (laneAt (d.foldl loadEq s) (fld w 24 8)).eqTxNew = w) := by
  obtain ⟨ys, rfl⟩ := List.getLast?_eq_some_iff.mp hlast
  rw [List.foldl_append]
  show (_ → (laneAt (loadEq (ys.foldl loadEq s) w) _).eqRxNew = w) ∧ (_ → (laneAt (loadEq (ys.foldl loadEq s) w) _).eqTxNew = w)
  have hlane1 : fld w 24 8 < (ys.foldl loadEq s).dxl.lanes.length := (loadEqs_kept ys s 0).2.symm ▸ hlane
  rw [loadEq, laneAt_setLane_self _ _ _ hlane1]
  exact ⟨fun h => by rw [if_pos h], fun h => by rw [if_neg (by simp [h])]⟩

theorem linkEqLoad_answers (hT : Turn 0x0112 e s r) (hrsv : rsvOk e [allBits, 0, allBits, allBits] = true)
    (hread : hostReadEnd s (pq e 2) (4 * (pw e 0).toNat) = .ok)
    (hok : ∀ w ∈ hostDws s (pq e 2) (pw e 0).toNat, eqOk w = true) :
    Answers (.linkEqLoad e) s (fun t => ∃ u : State, t = finish u r stOk [] ∧ u.dxl.groups = s.dxl.groups ∧
      ∀ w, (hostDws s (pq e 2) (pw e 0).toNat).getLast? = some w → ∀ x, s.dxl.lanes[fld w 24 8]? = some x →
        (bitOf w 23 = true → (laneAt u (fld w 24 8)).eqRxNew = w) ∧
        (bitOf w 23 = false → (laneAt u (fld w 24 8)).eqTxNew = w) ∧ (laneAt u (fld w 24 8)).state = x.state) := by
  refine completes_of_exec (u := (hostDws s (pq e 2) (pw e 0).toNat).foldl loadEq s)
    (congrArg Host.Outcome.next ((command_passes hT rfl (by simp [hrsv])).trans ?_))
    ⟨foldl_keeps (·.dxl.groups) loadEq (fun _ _ => rfl) _ s, fun w hlast x hx => ?_⟩
  · rw [withRecord_ok hread, checked_pass (check_passes (by simpa using hok)), settle_okWith]
  · obtain ⟨hrx, htx⟩ := loadEqs_last hlast (lt_length_of_some hx)
    exact ⟨hrx, htx, (loadEqs_kept _ s _).1.trans (congrArg Lane.state (laneAt_of_some hx))⟩

theorem exec_linkStatus (hT : Turn 0x0115 e s r) (hrsv : rsvOk e [allBits, allBits] = true) :
    exec (.linkStatus e) s = .next (finish (hostPutDws s (pq e 0) ((List.range 45).flatMap (groupDws s))) r stOk []) :=
  congrArg Host.Outcome.next ((command_passes hT rfl (by simp [hrsv])).trans (settle_okWith ..))

/-! MODULE_AUTH (R446). -/

/-- MODULE_AUTH past its checks: a module out of RUN is absent; of one in RUN the touchmark is read afresh. -/
theorem exec_moduleAuth (hT : Turn 0x090A e s r) (hrsv : rsvOk e [0x3F, 0xFFFF, allBits, allBits] = true)
    (h40 : fld (pw e 0) 0 6 < 40) (halign : pq e 2 % 8 = 0) (hfree : runningAuth s (fld (pw e 0) 0 6) = none)
    (hread : hostReadEnd s (pq e 2) 96 = .ok) : exec (.moduleAuth e) s = .next (settle s r
      (if (groupAt s (fld (pw e 0) 0 6)).run = false then
        .done (authOutcome s (fld (pw e 0) 0 6) stModuleAbsent (fld (pw e 1) 0 16)) stModuleAbsent []
      else .runs (startRead (setGroup s (fld (pw e 0) 0 6) fun x => { x with auth := true }) (fld (pw e 0) 0 6) 0)
        ((hostBytes s (pq e 2) 96).map BitVec.toNat))) := by
  refine congrArg Host.Outcome.next ((command_turn hT _).trans (congrArg (settle s r) ?_))
  dsimp only
  rw [if_neg (by simp [hrsv, h40, halign]), if_neg (by simp [hfree]), if_neg (not_not.mpr hread)]

theorem moduleAuth_reads (hT : Turn 0x090A e s r) {g : Nat} (hlen : g < s.dxl.groups.length) (note : List Nat)
    (hexec : exec (.moduleAuth e) s = .next (commitRunning (startRead (setGroup s g fun x => { x with auth := true }) g 0) r note)) :
    Answers (.moduleAuth e) s (fun t => (groupAt t g).auth = true ∧ (groupAt t g).fresh.got = 0 ∧
      ∃ y ∈ t.mbx.inFlight, y.entry = e ∧ y.committed = true) := by
  obtain ⟨-, hrec, -⟩ := hT
  obtain ⟨hentry, -, hmem, -⟩ := commitRecord_some hrec
  have hgroup : groupAt (startRead (setGroup s g fun x => { x with auth := true }) g 0) g =
      { groupAt s g with auth := true, fresh := { Touch.none with asked := 33, tries := 0 } } := by
    rw [startRead, groupAt_emit, groupAt_setGroup_self _ _ _ ((setGroup_length ..).symm ▸ hlen), groupAt_setGroup_self _ _ _ hlen]
  refine ⟨_, hexec, congrArg Group.auth hgroup, congrArg (·.fresh.got) hgroup,
    { r with committed := true, note := note }, List.mem_map.mpr ⟨r, hmem, if_pos rfl⟩, hentry, rfl⟩

end

/-- Settles O23: CEASE_N out of SAVE is `ceaseN_answers`; the last of a record's entries stands by `loadEqs_last`. -/
theorem ceaseAndLinkCommands : Obligations.CeaseAndLinkCommands := by
  refine ⟨fun s => ⟨ceaseN_answers, fun hheld => if_pos hheld, ceaseN_inSave, ceaseNRelease_answers s,
    fun g => ceased_answers, ceaseUnconfirmed_answers⟩, fun e s r => ⟨ceaseClear_answers, ceaseIssue_answers,
    linkEqLoad_answers, exec_linkStatus, ?_⟩⟩
  intro g hT hrsv h40 halign hfree hread x hx
  have hexec := exec_moduleAuth hT hrsv h40 halign hfree hread
  have hlen := lt_length_of_some hx
  obtain rfl := groupAt_of_some hx
  constructor
  · intro hdown
    rwa [if_pos hdown] at hexec
  · intro hrun
    rw [if_neg (by simp [g, hrun] at hrun ⊢)] at hexec
    exact moduleAuth_reads hT hlen _ hexec

end Sys2Proof.Machine
end

section
/-! SUPPORT. What the sparse maps that list changes hold: an entry is listed where its key reads its value. -/
set_option Elab.async false
namespace Sys2Proof.Machine

section
variable {α : Type} [DecidableEq α] {d : α}

/-- A map in canonical form lists what reads other than `d`. -/
theorem mem_iff_mapGet {m : Sparse α} (hwf : mapWf d m = true) {k : Nat} {v : α} :
    (k, v) ∈ m ↔ mapGet d m k = v ∧ v ≠ d := by
  obtain ⟨hsorted, hlisted⟩ := mapWf_iff.mp hwf
  have hkeys : (m.map Prod.fst).Nodup := List.pairwise_map.mpr (hsorted.imp Nat.ne_of_lt)
  constructor
  · intro hmem
    refine ⟨?_, hlisted _ hmem⟩
    cases hfind : m.find? (fun e => e.1 == k) with
    | none => exact absurd (List.find?_eq_none.mp hfind _ hmem) (by simp)
    | some x =>
      have hkey : x.1 = k := by simpa using List.find?_some hfind
      have hx : x = (k, v) := List.inj_on_of_nodup_map hkeys (List.mem_of_find?_eq_some hfind) hmem hkey
      rw [mapGet, hfind, hx]
      rfl
  · rintro ⟨hget, hne⟩
    unfold mapGet at hget
    cases hfind : m.find? (fun e => e.1 == k) with
    | none =>
      rw [hfind] at hget
      exact absurd hget.symm hne
    | some x =>
      rw [hfind] at hget
      have hkey : x.1 = k := by simpa using List.find?_some hfind
      have hx : x = (k, v) := Prod.ext hkey hget
      exact hx ▸ List.mem_of_find?_eq_some hfind

/-- A key set to one value only reads it. -/
theorem mapGet_mapSetAll_of_unique (m : Sparse α) {kvs : List (Nat × α)} {k : Nat} {v : α} (hmem : (k, v) ∈ kvs)
    (hone : ∀ e ∈ kvs, e.1 = k → e.2 = v) : mapGet d (mapSetAll d m kvs) k = v := by
  induction kvs using List.reverseRecOn with
  | nil => cases hmem
  | append_singleton xs x ih =>
    have hlast : mapSetAll d m (xs ++ [x]) = mapSet d (mapSetAll d m xs) x.1 x.2 := List.foldl_append ..
    rw [hlast, mapGet_mapSet]
    split
    · next hk => exact hone x (by simp) hk.symm
    · next hk =>
      refine ih ?_ fun e he => hone e (List.mem_append_left _ he)
      rcases List.mem_append.mp hmem with h | h
      · exact h
      · exact absurd (congrArg Prod.fst (List.mem_singleton.mp h)) hk

theorem mapSetAll_append (m : Sparse α) (xs ys : List (Nat × α)) :
    mapSetAll d m (xs ++ ys) = mapSetAll d (mapSetAll d m xs) ys := List.foldl_append ..

end

/-! A delta: changes of which each ejector has one, and reports, which all give one code (R123, R251). -/

/-- What a delta of changes and of reports lists: a report where its ejector has one, else its change. -/
theorem mem_delta {changes : List (Nat × Nat)} {reports : List (Nat × Nat)} {c : Nat} (hc : c < 4)
    (hreports : ∀ e ∈ reports, e.2 = c) (hchanges : ∀ e ∈ changes, e.2 < 4) (hnodup : (changes.map Prod.fst).Nodup) (o v : Nat) :
    (o, v) ∈ mapSetAll 4 [] (changes ++ reports) ↔ (o, v) ∈ reports ∨ ((o, c) ∉ reports ∧ (o, v) ∈ changes) := by
  have hone (x : Nat × Nat) (hx : x ∈ changes) : mapGet 4 (mapSetAll 4 [] changes) x.1 = x.2 :=
    mapGet_mapSetAll_mem [] changes hnodup x hx
  rw [mem_iff_mapGet (mapSetAll_wf _ (mapWf_iff.mpr (by simp))), mapSetAll_append]
  by_cases hreported : (o, c) ∈ reports
  · rw [mapGet_mapSetAll_of_unique _ hreported fun e he _ => hreports e he]
    constructor
    · rintro ⟨rfl, -⟩
      exact .inl hreported
    · rintro (h | ⟨h, -⟩)
      · have hv : v = c := hreports _ h
        exact ⟨hv.symm, by omega⟩
      · exact absurd hreported h
  · have hother : ∀ e ∈ reports, e.1 ≠ o := fun e he ho => hreported (by
      obtain ⟨k, w⟩ := e
      rw [← show k = o from ho, ← show w = c from hreports _ he]
      exact he)
    rw [mapGet_mapSetAll_other _ _ _ hother]
    constructor
    · rintro ⟨hget, hne⟩
      by_cases hmem : ∃ e ∈ changes, e.1 = o
      · obtain ⟨⟨k, w⟩, he, rfl⟩ := hmem
        have hw : w = v := (hone _ he).symm.trans hget
        exact .inr ⟨hreported, hw ▸ he⟩
      · rw [mapGet_mapSetAll_other _ _ _ fun e he ho => hmem ⟨e, he, ho⟩] at hget
        exact absurd hget.symm hne
    · rintro (h | ⟨-, h⟩)
      · exact absurd rfl (hother _ h)
      · have hv := hchanges _ h
        exact ⟨hone _ h, by omega⟩

end Sys2Proof.Machine
end

section
/-! SUPPORT. The states that the assay's events leave (R226, R227, R234 to R236, R247 to R251). -/
set_option Elab.async false
namespace Sys2Proof.Machine

/-! Cameras. -/

theorem camAt_of_some {s : State} {k : Nat} {c : Camera} (h : s.asy.cams[k]? = some c) : camAt s k = c := by
  simp [camAt, h]

/-- What a change of a camera leaves alone in every camera, it leaves alone in the one read. -/
theorem camAt_setCam_kept {β : Type} (p : Camera → β) {f : Camera → Camera} (hp : ∀ c, p (f c) = p c) (s : State) (j k : Nat) :
    p (camAt (setCam s j f) k) = p (camAt s k) := modAt_getD_kept p hp _ _ _ _

@[simp] theorem camAt_count (s : State) (n k : Nat) : camAt (count s n) k = camAt s k := by simp [camAt]

theorem camAt_of_cams {s t : State} (h : t.asy.cams = s.asy.cams) (k : Nat) : camAt t k = camAt s k :=
  congrArg (·.getD k Camera.reset) h

section
variable {s : State} {k : Nat}

/-! SCAN (R226, R227). -/

/-- The state in which a scan opens: one still open has been discarded (R227). -/
def scanReady (s : State) (k : Nat) : State :=
  match (camAt s k).open_ with
  | some o => overrunNoted s k o
  | none => s

theorem overrunNoted_cams (s : State) (k : Nat) (o : OpenScan) :
    (overrunNoted s k o).asy.cams = modAt (fun c => { c with lastTrig := some o.trig }) s.asy.cams k := by
  let discarded : State := setCam (count s (cnum 4 (810 + k))) k fun c => { c with lastTrig := some o.trig }
  have hcams : discarded.asy.cams = modAt (fun c => { c with lastTrig := some o.trig }) s.asy.cams k := by
    simp [discarded, setCam]
  have hnoted : (overrunNoted s k o).asy = (oncePrinting discarded 0x040F).2.asy := (raiseIf_within _ _ _ _).untouched (·.asy)
  rw [hnoted, ← hcams]
  exact (oncePrinting_within discarded 0x040F).untouched (·.asy.cams)

theorem scanReady_kept (s : State) (k : Nat) :
    (scanReady s k).dxl = s.dxl ∧ (scanReady s k).asy.cams.length = s.asy.cams.length := by
  unfold scanReady
  split
  · next o _ =>
    refine ⟨(overrunNoted_within s k o).untouched (·.dxl), ?_⟩
    rw [overrunNoted_cams, modAt_length]
  · exact ⟨rfl, rfl⟩

theorem scan_answers (hk : k < 4) (hlen : k < s.asy.cams.length) (hrun : (groupAt s (40 + k)).run = true)
    (trig pix0 npix : Nat) (deep : Bool) : Answers (.scan k trig pix0 npix deep) s (fun t => t.dxl = s.dxl ∧
      (camAt t k).open_ = some { trig := trig % 2 ^ 16, pix0 := pix0, npix := npix, deep := deep,
                                 totals := s.pulses.map Pulse.total }) := by
  have hgo : ¬ (4 ≤ k ∨ (groupAt s (40 + k)).run = false) := by simp [hk, hrun]
  obtain ⟨hdxl, hcams⟩ := scanReady_kept s k
  refine ⟨setCam (scanReady s k) k _, if_neg hgo, hdxl, ?_⟩
  rw [camAt_setCam_self _ _ _ (hcams.symm ▸ hlen)]

/-! SCANEND (R226, R234 to R236). -/

/-- The state once a scan used is the one its camera shows (R236). -/
def scanShown (s : State) (r : ScanRead) : State :=
  { count s (cnum 5 r.k) with asy := { (count s (cnum 5 r.k)).asy with
      shown := ((count s (cnum 5 r.k)).asy.shown.filter fun x => x.1 != r.k) ++ [(r.k, r.line)] } }

/-- The samples and the drops of a scan leave the cameras and what they show alone. -/
theorem useScan_kept (s : State) (a : AsySetup) (r : ScanRead) :
    (useScan s a r).asy.cams = (whiteScan (scanShown s r) a r).asy.cams ∧ (useScan s a r).asy.shown = (scanShown s r).asy.shown := by
  have hdrops (t : State) (us : List Nat) : (us.foldl (pixelDrops a r) t).asy.cams = t.asy.cams ∧
      (us.foldl (pixelDrops a r) t).asy.shown = t.asy.shown :=
    ⟨foldl_keeps (·.asy.cams) _ (fun b u => by unfold pixelDrops; split <;> rfl) us t,
      foldl_keeps (·.asy.shown) _ (fun b u => by unfold pixelDrops; split <;> rfl) us t⟩
  have hsamples (t : State) (us : List Nat) : Within windowClosed t (us.foldl (pixelSamples a r) t) :=
    .foldl (pixelSamples_within a r) us t
  obtain ⟨hcams, hshown⟩ := hdrops ((scanPixels a r).foldl (pixelSamples a r) (whiteScan (scanShown s r) a r)) (scanPixels a r)
  exact ⟨hcams.trans ((hsamples _ _).untouched (·.asy.cams)), hshown.trans ((hsamples _ _).untouched (·.asy.shown))⟩

theorem useScan_shows (s : State) (a : AsySetup) (r : ScanRead) : (r.k, r.line) ∈ (useScan s a r).asy.shown := by
  rw [(useScan_kept s a r).2]
  exact List.mem_append_right _ (List.mem_singleton.mpr rfl)

/-- Using a scan changes its camera's white alone (R238). -/
theorem camAt_useScan {β : Type} (p : Camera → β) (hp : ∀ c r u, p (whiteStep c r u) = p c) (s : State) (a : AsySetup)
    (r : ScanRead) (k : Nat) : p (camAt (useScan s a r) k) = p (camAt s k) := by
  have hwhite (us : List Nat) (c : Camera) : p (us.foldl (fun x u => whiteStep x r u) c) = p c :=
    List.foldlRecOn us _ (motive := fun x => p x = p c) rfl fun x hx u _ => (hp x r u).trans hx
  calc p (camAt (useScan s a r) k) = p (camAt (whiteScan (scanShown s r) a r) k) := by
        rw [camAt_of_cams (useScan_kept s a r).1]
    _ = p (camAt (scanShown s r) k) := camAt_setCam_kept p (hwhite _) _ _ _
    _ = p (camAt s k) := by rw [camAt_of_cams (s := s) (by simp [scanShown])]

/-- A scan that is whole leaves its camera's open scan and last TRIG alone. -/
theorem camAt_matchScan {β : Type} (p : Camera → β) (hp : ∀ c r u, p (whiteStep c r u) = p c)
    (hal : ∀ (c : Camera) (x : Nat × Nat), p { c with aligned := some x } = p c) (s : State) (j trig pix0 : Nat) (totals : List Nat)
    (pixels : List (List Nat)) (k : Nat) : p (camAt (matchScan s j trig pix0 totals pixels) k) = p (camAt s k) := by
  have haligned (x : Nat × Nat) : p (camAt (setCam s j fun c => { c with aligned := some x }) k) = p (camAt s k) :=
    camAt_setCam_kept p (fun c => hal c x) s j k
  unfold matchScan
  split
  · rfl
  · split
    · rfl
    · dsimp only
      split
      · rw [camAt_count]
        exact haligned _
      · exact (camAt_useScan p hp _ _ _ _).trans (haligned _)

/-- The state once the open scan of camera `k` has closed (R226). -/
def scanClosed (s : State) (k : Nat) (o : OpenScan) : State :=
  setCam s k fun c => { c with open_ := none, lastTrig := some o.trig }

/-- The TRIG of a scan follows the last of its camera (R226). -/
def trigFollows (last : Option Nat) (trig : Nat) : Bool :=
  match last with
  | some l => trig == (l + 1) % 2 ^ 16
  | none => true

theorem exec_scanend {o : OpenScan} (hk : k < 4) (hrun : (groupAt s (40 + k)).run = true) (ho : (camAt s k).open_ = some o)
    (trig : Nat) (crc : Dword) (ws : List Qword) : exec (.scanend k trig crc ws) s = .next
      (if crc32q ws == crc.toNat && trigFollows (camAt s k).lastTrig o.trig && o.trig == trig % 2 ^ 16 then
        matchScan (scanClosed s k o) k o.trig o.pix0 o.totals (scanPixelsOf ws o.deep o.npix)
      else count (scanClosed s k o) (cnum 4 (810 + k))) := by
  have hgo : ¬ (4 ≤ k ∨ (groupAt s (40 + k)).run = false) := by simp [hk, hrun]
  refine (if_neg hgo).trans ?_
  rw [ho]
  exact (apply_ite Host.Outcome.next _ _ _).symm

theorem scanend_closes {o : OpenScan} (hk : k < 4) (hlen : k < s.asy.cams.length) (hrun : (groupAt s (40 + k)).run = true)
    (ho : (camAt s k).open_ = some o) (trig : Nat) (crc : Dword) (ws : List Qword) :
    Answers (.scanend k trig crc ws) s (fun t => (camAt t k).open_ = none ∧ (camAt t k).lastTrig = some o.trig) := by
  have hclosed : camAt (scanClosed s k o) k = { camAt s k with open_ := none, lastTrig := some o.trig } :=
    camAt_setCam_self _ _ _ hlen
  have hopen : ∀ x : Camera, (x.open_, x.lastTrig) = (none, some o.trig) → x.open_ = none ∧ x.lastTrig = some o.trig :=
    fun x h => Prod.mk.inj h
  refine ⟨_, exec_scanend hk hrun ho trig crc ws, hopen _ ?_⟩
  split
  · rw [camAt_matchScan (fun c => (c.open_, c.lastTrig)) (fun _ _ _ => rfl) fun _ _ => rfl]
    rw [hclosed]
  · rw [camAt_count, hclosed]

theorem scanend_aligns {o : OpenScan} (hk : k < 4) (hlen : k < s.asy.cams.length) (hrun : (groupAt s (40 + k)).run = true)
    (ho : (camAt s k).open_ = some o) {a : AsySetup} {crc : Dword} {ws : List Qword} {nt : Int} (hcrc : crc32q ws = crc.toNat)
    (hsetup : s.asy.setup = some a) (hfed : cameraFed s a k = true)
    (hfollows : ∀ l, (camAt s k).lastTrig = some l → o.trig = (l + 1) % 2 ^ 16)
    (hring : (s.pulses.getD (camCfg a k).pulse Pulse.reset).ring[(scanPulse s (camCfg a k) k o.trig
      (o.totals.getD (camCfg a k).pulse 0)).1]? = some nt) (htrig : o.trig < 2 ^ 16) :
    Answers (.scanend k o.trig crc ws) s (fun t =>
      (camAt t k).aligned = some (scanPulse s (camCfg a k) k o.trig (o.totals.getD (camCfg a k).pulse 0)).2 ∧
      (k, shownLine s (camCfg a k) nt) ∈ t.asy.shown) := by
  have hgood : trigFollows (camAt s k).lastTrig o.trig = true := by
    unfold trigFollows
    split
    · next l hl => simp [hfollows l hl]
    · rfl
  have hclosed : camAt (scanClosed s k o) k = { camAt s k with open_ := none, lastTrig := some o.trig } :=
    camAt_setCam_self _ _ _ hlen
  have hpulse : scanPulse (scanClosed s k o) (camCfg a k) k o.trig (o.totals.getD (camCfg a k).pulse 0) =
      scanPulse s (camCfg a k) k o.trig (o.totals.getD (camCfg a k).pulse 0) := by
    unfold scanPulse
    rw [hclosed]
    rfl
  have hmatch (pixels : List (List Nat)) : ∃ r : ScanRead, r.k = k ∧ r.line = shownLine s (camCfg a k) nt ∧
      matchScan (scanClosed s k o) k o.trig o.pix0 o.totals pixels = useScan (setCam (scanClosed s k o) k fun x =>
        { x with aligned := some (scanPulse s (camCfg a k) k o.trig (o.totals.getD (camCfg a k).pulse 0)).2 }) a r := by
    unfold matchScan
    rw [show (scanClosed s k o).asy.setup = some a from hsetup]
    dsimp only
    rw [if_neg (by rw [show cameraFed (scanClosed s k o) a k = true from hfed]; decide), hpulse,
      show (scanClosed s k o).pulses = s.pulses from rfl, hring]
    exact ⟨_, rfl, rfl, rfl⟩
  obtain ⟨r, hrk, hline, heq⟩ := hmatch (scanPixelsOf ws o.deep o.npix)
  refine answers_of_eq (exec_scanend hk hrun ho o.trig crc ws) ((if_pos ?_).trans heq) ⟨?_, ?_⟩
  · rw [Nat.mod_eq_of_lt htrig, hgood, hcrc]
    simp
  · rw [camAt_useScan Camera.aligned fun _ _ _ => rfl, camAt_setCam_self _ _ _ (by rwa [scanClosed, setCam_length])]
  · have hshown := useScan_shows (setCam (scanClosed s k o) k fun x =>
      { x with aligned := some (scanPulse s (camCfg a k) k o.trig (o.totals.getD (camCfg a k).pulse 0)).2 }) a r
    rwa [hrk, hline] at hshown

/-! CENSUS_DONE (R247, R248). -/

/-- A slot judged is the last judged of its plane. -/
theorem judge_judged (s : State) (a : AsySetup) (p : Nat) (start band : Int) (len : Nat) :
    ∃ js : List (Nat × Int), (judge s a p start band len).asy.judged = (js.filter fun x => x.1 != p) ++ [(p, band)] := by
  have hreport (t : State) (pay : List Dword) : (raise (closeStripe t a p) 0x0503 pay).asy.judged = t.asy.judged :=
    ((closeStripe_within t a p).andThen (F := windowClosed) (raise_within _ 0x0503 pay)).untouched (·.asy.judged)
  unfold judge
  dsimp only
  rw [hreport]
  exact ⟨_, rfl⟩

theorem censusDone_answers {p : Nat} {a : AsySetup} {start band : Int} {len : Nat} (hsetup : s.asy.setup = some a)
    (hslot : slotToJudge s p = some (start, band, len)) :
    Answers (.censusDone p) s (fun t => (p, band) ∈ t.asy.judged ∧ (∀ x ∈ t.asy.judged, x.1 = p → x.2 = band) ∧
      t.map = s.map) := by
  have hexec : exec (.censusDone p) s = .next (judge s a p start band len) := by
    show execCensusDone p s = _
    unfold execCensusDone
    rw [hsetup, hslot]
  obtain ⟨js, hjudged⟩ := judge_judged s a p start band len
  refine ⟨_, hexec, ?_, ?_, (judge_within s a p start band len).untouched (·.map)⟩
  · rw [hjudged]
    exact List.mem_append_right _ (List.mem_singleton.mpr rfl)
  · rw [hjudged]
    intro x hx hp
    rcases List.mem_append.mp hx with h | h
    · exact absurd hp (bne_iff_ne.mp (List.mem_filter.mp h).2)
    · exact congrArg Prod.snd (List.mem_singleton.mp h)

/-! ASSAY_MAP (R251). -/

theorem addGen_map (s : State) (g : Gen) :
    (addGen s g).map = { s.map with gens := s.map.gens ++ [g], pending := some g.number } := by
  have hsent (t : State) (ms : List Nat) : Within told t (tellGen (ms.foldl (fun t m => sendGenTo t g g.full m) t) g g.full) :=
    (Within.foldl (fun t m => sendGenTo_within t g g.full m) ms t).andThen (tellGen_within _ g g.full)
  exact (hsent _ _).untouched (·.map)

/-- The proposed changes whose ejector still holds the code expected, as the delta lists them (R251). -/
def changesHeld (s : State) : List (Nat × Nat) :=
  (((s.asy.proposed.filter fun c => mapGet 0 (settledCodes s) c.1 == c.2.1).map fun c => (c.1, c.2.2)).insertionSort
    fun x y => x.1 ≤ y.1)

theorem mem_changesHeld {o v : Nat} :
    (o, v) ∈ changesHeld s ↔ ∃ w, (o, w, v) ∈ s.asy.proposed ∧ mapGet 0 (settledCodes s) o = w := by
  simp [changesHeld, List.mem_insertionSort]

theorem changesHeld_nodup (h : (s.asy.proposed.map Prod.fst).Nodup) : ((changesHeld s).map Prod.fst).Nodup := by
  have hperm := (List.perm_insertionSort (fun x y : Nat × Nat => x.1 ≤ y.1)
    ((s.asy.proposed.filter fun c => mapGet 0 (settledCodes s) c.1 == c.2.1).map fun c => (c.1, c.2.2))).map Prod.fst
  refine hperm.nodup_iff.mpr ?_
  rw [List.map_map]
  exact h.sublist (List.filter_sublist.map Prod.fst)

theorem reportChanges_code {e : Nat × Nat} (he : e ∈ reportChanges s) : e.2 = 3 := by
  obtain ⟨x, -, rfl⟩ := List.mem_map.mp he
  rfl

/-- The state without proposed changes. -/
def proposalsTaken (s : State) : State := { s with asy := { s.asy with proposed := [] } }

/-- The delta generation of ASSAY_MAP (R251). -/
def assayGen (s : State) : Gen :=
  newGen (proposalsTaken s) false (mapSetAll 0 (settledCodes s) (changesHeld s ++ reportChanges s))
    (mapSetAll 4 [] (changesHeld s ++ reportChanges s)) 0

/-- The delta generation counted and reported (R251). -/
def assayGenFormed (s : State) : State :=
  let back := ((changesHeld s).filter fun c => c.2 == 0).length
  raise (countN (count (addGen (dropReports (proposalsTaken s)) (assayGen s)) (cnum 5 13)) (cnum 5 12) back) 0x0505
    (it (assayGen s).number ++ itq ((assayGen s).boundary.getD minI64) ++ it (((changesHeld s).length - back : Nat) : Int) ++ it back)

theorem exec_assayMap (hforms : forms s = true) (hlock : s.asy.mapLock = false) (hpend : s.map.pending = none)
    (hprop : s.asy.proposed ≠ []) (hpoison : unfixedPoison s = []) (hnew : newestGen s ≠ none) :
    exec .assayMap s = .next (if (changesHeld s).isEmpty then proposalsTaken s else assayGenFormed s) := by
  have hgo : ¬ (!forms s || s.asy.mapLock || s.map.pending.isSome || s.asy.proposed.isEmpty || !(unfixedPoison s).isEmpty ||
      (newestGen s).isNone) = true := by
    simp [hforms, hlock, hpend, hprop, hpoison]
    exact hnew
  exact (if_neg hgo).trans (apply_ite Host.Outcome.next _ _ _).symm

theorem assayGenFormed_kept (s : State) : (assayGenFormed s).asy.proposed = [] ∧
    (assayGenFormed s).map = { s.map with gens := s.map.gens ++ [assayGen s], pending := some (assayGen s).number, reports := [] } := by
  have hreported (t : State) (n : Nat) (pay : List Dword) :
      (raise (countN (count t (cnum 5 13)) (cnum 5 12) n) 0x0505 pay).asy = t.asy ∧
      (raise (countN (count t (cnum 5 13)) (cnum 5 12) n) 0x0505 pay).map = t.map := by simp
  obtain ⟨hasy, hmap⟩ := hreported (addGen (dropReports (proposalsTaken s)) (assayGen s)) _ _
  constructor
  · exact (congrArg Asy.proposed hasy).trans ((addGen_within _ _).untouched (·.asy.proposed))
  · exact hmap.trans (addGen_map _ _)

theorem assayMap_forms (hforms : forms s = true) (hlock : s.asy.mapLock = false) (hpend : s.map.pending = none)
    (hprop : s.asy.proposed ≠ []) (hpoison : unfixedPoison s = []) (hnew : newestGen s ≠ none)
    (hheld : ∃ c ∈ s.asy.proposed, mapGet 0 (settledCodes s) c.1 = c.2.1) :
    Answers .assayMap s (fun t => t.asy.proposed = [] ∧ t.map.pending = some (nextGen s) ∧ t.map.reports = [] ∧
      ∃ g : Gen, t.map.gens = s.map.gens ++ [g] ∧ g.number = nextGen s ∧ g.full = false ∧
        ((∀ c ∈ s.asy.proposed, c.2.2 < 4) → (s.asy.proposed.map Prod.fst).Nodup → ∀ o v, (o, v) ∈ g.delta ↔
          (o, v) ∈ reportChanges s ∨ ((o, 3) ∉ reportChanges s ∧
            ∃ w, (o, w, v) ∈ s.asy.proposed ∧ mapGet 0 (settledCodes s) o = w))) := by
  obtain ⟨⟨o, w, v⟩, hc, hcode⟩ := hheld
  have hsome : ¬ (changesHeld s).isEmpty = true := by
    rw [List.isEmpty_iff]
    exact List.ne_nil_of_mem (mem_changesHeld.mpr ⟨w, hc, hcode⟩)
  obtain ⟨hproposed, hmap⟩ := assayGenFormed_kept s
  refine answers_of_eq (exec_assayMap hforms hlock hpend hprop hpoison hnew) (if_neg hsome) ⟨hproposed, ?_, ?_, assayGen s, ?_, rfl,
    rfl, fun hcodes hnodup o v => ?_⟩
  · rw [hmap]
    rfl
  · rw [hmap]
  · rw [hmap]
  · rw [← mem_changesHeld]
    refine mem_delta (by decide) (fun _ => reportChanges_code) (fun e he => ?_) (changesHeld_nodup hnodup) o v
    obtain ⟨w, hw, -⟩ := mem_changesHeld.mp he
    exact hcodes _ hw

theorem assayMap_proposesNothing (hforms : forms s = true) (hlock : s.asy.mapLock = false) (hpend : s.map.pending = none)
    (hprop : s.asy.proposed ≠ []) (hpoison : unfixedPoison s = []) (hnew : newestGen s ≠ none)
    (hnone : ∀ c ∈ s.asy.proposed, mapGet 0 (settledCodes s) c.1 ≠ c.2.1) :
    exec .assayMap s = .next { s with asy := { s.asy with proposed := [] } } := by
  have hempty : (changesHeld s).isEmpty = true := by
    rw [List.isEmpty_iff, List.eq_nil_iff_forall_not_mem]
    rintro ⟨o, v⟩ hmem
    obtain ⟨w, hw, hcode⟩ := mem_changesHeld.mp hmem
    exact hnone _ hw hcode
  rw [exec_assayMap hforms hlock hpend hprop hpoison hnew, if_pos hempty]
  rfl

/-! ASSAY_CURVES (R250, R251). -/

/-- An update of entries alone changes the tables by taking its place among the updates, or at once in the copies. -/
theorem formCurves_tables (s : State) (es : List (Nat × Nat)) : (formCurves s [] es).tables =
    (addCurveUpd s { line := assayLine s [] es, curves := [], entries := es, assay := true, out := false }).tables := by
  have htold (t : State) (u : CurveUpd) : (tellCurves t u).tables = t.tables := (curvesParts_within t _ _ _).untouched (·.tables)
  unfold formCurves
  simp [htold, endCurvePoison]

/-- The state in which no pixel wants another variant. -/
def wantsTaken (s : State) : State := { s with asy := { s.asy with wants := [] } }

theorem assayCurves_answers {a : AsySetup} (hsetup : s.asy.setup = some a) (hforms : forms s = true)
    (hlock : s.asy.curveLock = false) (hwants : s.asy.wants ≠ [])
    (hfree : ∀ u ∈ s.tables.curveUpds, updPending s u = true → u.assay = false)
    (hroom : (s.tables.curveUpds.filter (updPending s)).length < 8) :
    Answers .assayCurves s (fun t => t.asy.wants = [] ∧ t.tables.curveGen = (s.tables.curveGen + 1) % 2 ^ 16 ∧
      (s.job ≠ none → ∃ u : CurveUpd, t.tables.curveUpds = (foldDropped s).tables.curveUpds ++ [u] ∧ u.assay = true ∧
        u.curves = [] ∧ u.entries = mapSetAll 4096 [] (s.asy.wants.flatMap (wantEntries s a)))) := by
  have hgo : ¬ (!forms s || s.asy.curveLock || s.asy.wants.isEmpty || (s.tables.curveUpds.filter (updPending s)).any (·.assay) ||
      decide (8 ≤ (s.tables.curveUpds.filter (updPending s)).length)) = true := by
    simpa [hforms, hlock, hwants, hroom] using hfree
  have hexec : exec .assayCurves s = .next (formCurves (wantsTaken s) []
      (mapSetAll 4096 [] (s.asy.wants.flatMap (wantEntries s a)))) := by
    show execAssayCurves s = _
    unfold execAssayCurves
    rw [hsetup]
    exact if_neg hgo
  refine ⟨_, hexec, (formCurves_within _ _ _).untouched (·.asy.wants), ?_, fun hjob => ?_⟩
  · rw [formCurves_tables, addCurveUpd_curveGen]
    rfl
  · rw [formCurves_tables, addCurveUpd_open (s := wantsTaken s) hjob]
    exact ⟨_, rfl, rfl, rfl, rfl⟩

end

/-- Settles O25: a scan used leaves its camera's alignment by `camAt_useScan`; what the delta of ASSAY_MAP lists is `mem_delta`. -/
theorem assayEvents : Obligations.AssayEvents := by
  refine ⟨fun k s c hk hc hrun => ?_, fun p s a start band len => censusDone_answers, fun s hforms hlock hpend hprop hpoison hnew =>
    ⟨assayMap_forms hforms hlock hpend hprop hpoison hnew, assayMap_proposesNothing hforms hlock hpend hprop hpoison hnew⟩,
    fun s a => assayCurves_answers⟩
  have hlen := lt_length_of_some hc
  obtain rfl := camAt_of_some hc
  exact ⟨scan_answers hk hlen hrun, fun o ho => ⟨scanend_closes hk hlen hrun ho, fun a crc ws nt hcrc hsetup hfed hfollows =>
    scanend_aligns hk hlen hrun ho hcrc hsetup hfed hfollows⟩⟩

end Sys2Proof.Machine
end

section
/-! SUPPORT. What the operations of the pair leave of the chip's role and of its partner link (R259 to R273). -/
set_option Elab.async false
namespace Sys2Proof.Machine

/-- `t` with the role, the epoch, the partner link and the level of ROLE_SEL as they are in `s`. -/
def roleKept (s t : State) : State :=
  { t with
      par := { t.par with
        enabled := s.par.enabled, state := s.par.state, epoch := s.par.epoch, mustFall := s.par.mustFall
        linkRun := s.par.linkRun, partnerRole := s.par.partnerRole }
      pins := { t.pins with roleSel := s.pins.roleSel } }

/-! Messages to the servitor (R268, R282). -/

theorem tellServitor_sends {s : State} (hgaffer : isGaffer s = true) (hlink : s.par.linkRun = true) (kind : Nat) (ws : List Qword) :
    tellServitor s kind ws = sendPartner s kind ws := if_pos (by simp [hgaffer, hlink])

theorem tellParts_within (s : State) (kind fuel : Nat) (ws : List Qword) : Within told s (tellParts s kind fuel ws) := by
  induction fuel generalizing s ws with
  | zero => exact .refl s
  | succ fuel ih => exact .ite (tellServitor_within s kind ws) ((tellServitor_within s kind _).andThen (ih _ _))

theorem tellSettled_within (s : State) : Within told s (tellSettled s) := by
  unfold tellSettled
  split
  · exact tellGen_within s _ true
  · exact .refl s

theorem tellLocks_within (s : State) : Within told s (tellLocks s) := tellServitor_within s _ _

theorem tellRejoin_within (s : State) : Within told s (tellRejoin s) := by
  have hgens (t : State) (gs : List Gen) : Within told t (gs.foldl (fun t g => tellGen t g g.full) t) :=
    .foldl (fun t (g : Gen) => tellGen_within t g g.full) gs t
  have hpages (t : State) (ps : List Page) : Within told t (ps.foldl (fun t p => tellPage t p (if p.n0.isSome then 1 else 0)) t) :=
    .foldl (fun t (p : Page) => tellPage_within t p _) ps t
  have hmap (t : State) (gs : List Gen) := (tellSettled_within t).andThen (F := told) (hgens (tellSettled t) gs)
  have hlocks (t : State) : Within told t (tellLocks (tellBlock t)) := (tellParts_within t 9 _ _).andThen (tellLocks_within _)
  exact (((tellServitor_within s 8 _).andThen (F := told) (hmap _ _)).andThen (F := told) (hlocks _)).andThen (hpages _ _)

/-! A rejoin that ends, and the link's loss (R269, R282). -/

/-- `s` with what the end of a rejoin may touch taken from `t`, the completion of PAIR_REJOIN included (R282). -/
def rejoinEnded (s t : State) : State :=
  { answered s t with par := { s.par with rejoin := t.par.rejoin, rejoinGot := t.par.rejoinGot } }

/-- The state in which no rejoin is under way. -/
def rejoinDropped (s : State) : State := { s with par := { s.par with rejoin := 0, rejoinGot := [] } }

theorem failRejoin_answered (s : State) (step st item : Nat) : Within answered (rejoinDropped s) (failRejoin s step st item) :=
  (raise_within _ _ _).andThen (finishOp_within _ _ _ _)

theorem failRejoin_within (s : State) (step st item : Nat) : Within rejoinEnded s (failRejoin s step st item) :=
  .after (failRejoin_answered s step st item)

/-- The state in which the partner link no longer runs. -/
def linkStopped (s : State) : State :=
  { s with par := { s.par with linkRun := false, mseqRx := none, partnerRole := 0, gafferEpoch := none, ptSeen := 0 } }

theorem partnerLinkLost_within (s : State) : Within rejoinEnded (linkStopped s) (partnerLinkLost s) :=
  .ite ((raiseIf_within _ (linkStopped s) _ _).andThen (failRejoin_within _ _ _ _)) (raiseIf_within _ _ _ _).widen

theorem endPartnerWaits_within (s : State) : Within completed s (endPartnerWaits s) :=
  .foldl (fun t (r : InFlight) => finish_within t r stPartnerDown []) _ s

/-- `s` with what a refused role touches taken from `t` (R262). -/
def roleRefused (s t : State) : State := { reported s t with par := { s.par with refusedRaised := t.par.refusedRaised } }

theorem refuseRole_within (s : State) : Within roleRefused s (refuseRole s) := .ite (.after (raise_within _ _ _)) (.refl s)

/-- A servitor whose state is stale is SYNCING with a rejoin due; its link is as it was (R269). -/
theorem loseStep_par (s : State) : (loseStep s).par.state = .syncing ∧ (loseStep s).par.autoDue = true ∧
    (loseStep s).par.rejoin = 0 ∧ (loseStep s).par.linkRun = s.par.linkRun ∧
    (loseStep s).par.partnerRole = s.par.partnerRole := by
  let stale : State := { endPartnerWaits s with
    par := { (endPartnerWaits s).par with state := .syncing, refusedRaised := false, rejoin := 0 }
    pins := { (endPartnerWaits s).pins with healthReady := false }
    ftb := { (endPartnerWaits s).ftb with referenced := false } }
  have hentered : Within roleRefused stale (enterSyncing s) := (sendRole_within stale).andThen (refuseRole_within _)
  have hended := endPartnerWaits_within s
  exact ⟨hentered.untouched (·.par.state), rfl, hentered.untouched (·.par.rejoin),
    (hentered.untouched (·.par.linkRun)).trans (hended.untouched (·.par.linkRun)),
    (hentered.untouched (·.par.partnerRole)).trans (hended.untouched (·.par.partnerRole))⟩

theorem unshadowRest_within (s : State) : Within admitted s (unshadowRest s) := by
  have hput (t : State) : Within admitted t { t with par := { t.par with pageMsgs := [] } } := rfl
  have hmsgs (ms : List (Dword × Nat × Bool × Nat × Int × Nat)) : Within admitted s (ms.foldl (fun t m => unshadow t m.1
      (if m.2.1 = 1 then some m.2.2.2.2.1 else none) m.2.2.2.2.2 ((List.range 16).filter fun k => m.2.2.2.1.testBit k)) s) :=
    .foldl (fun t (m : Dword × Nat × Bool × Nat × Int × Nat) => unshadow_within t _ _ _ _) ms s
  exact (hmsgs _).andThen (hput _)

/-! Adoption (R262, R264, R273, R276, R357). -/

/-- The state in which the chip has taken the gaffer's role under the next epoch, and nothing has been sent (R262, R264). -/
def roleTaken (s : State) : State :=
  { s with par := { s.par with state := .gaffer, epoch := epochBase s + 1, lastEpoch := epochBase s + 1 }
           map := { s.map with acked := (s.map.gens.flatMap fun g => (List.range 40).map fun m => (m, g.number)) ++ s.map.acked } }

theorem uncertainAxis_within (s : State) (i : Nat) : Within roleKept s (uncertainAxis s i) :=
  .ite (.after (raise_within _ _ _)) (.refl s)

theorem adopt_within {s : State} (h : epochBase s + 1 ≠ 2 ^ 32 - 1) : Within roleKept (roleTaken s) (adopt s) := by
  have hreport (t : State) (k code : Nat) (pay : List Dword) : Within roleKept t (raise (count (sendRole t) k) code pay) :=
    ((sendRole_within t).andThen (F := roleKept) (count_within _ k)).andThen (raise_within _ code pay)
  have hresent (t : State) (rs : List Rec) : Within roleKept t
      (rs.foldl (fun t r => count (sendRec t r) (cnum 4 (728 + r.m))) t) :=
    .foldl (fun t (r : Rec) => (sendRec_within t r).andThen (count_within _ _)) rs t
  have hseams (t : State) (span : Nat → Nat) (ks : List Nat) : Within roleKept t
      (ks.foldl (fun t k => requestSeam t k (span k)) t) := .foldl (fun t k => (requestSeam_within t k _).widen) ks t
  have hcams (t : State) : Within roleKept t ((List.range 4).foldl unalignCamera t) :=
    .foldl (fun t k => (unalignCamera_within t k).widen) _ t
  have haxes (t : State) : Within roleKept t ((List.range 8).foldl uncertainAxis t) := .foldl uncertainAxis_within _ t
  unfold adopt
  dsimp only
  rw [if_neg h]
  exact ((((hreport (roleTaken s) _ _ _).andThen (F := roleKept) (hresent _ _)).andThen (F := roleKept)
    (hseams _ _ _)).andThen (F := roleKept) (hcams _)).andThen (haxes _)

theorem resumeVelocity_within (s : State) (k : Nat) : Within roleKept s (resumeVelocity s k) := .ite rfl (.refl s)

theorem resumeMotion_within (s : State) : Within roleKept s (resumeMotion s) := by
  have hloops (t : State) : Within roleKept t ((List.range 32).foldl resumeVelocity t) := .foldl resumeVelocity_within _ t
  have hput (axes : List Axis) (loops : List Loop) : Within roleKept s { s with mot := { s.mot with axes := axes, loops := loops } } :=
    rfl
  unfold resumeMotion
  exact (hput _ _).andThen (F := roleKept) (hloops _)

theorem pageCommit_within (e : Entry) (s : State) : Within committed s (pageCommit e s) :=
  pageCommit_changesOnly e s _ (List.mem_singleton.mpr rfl) _ rfl

theorem pageAbort_within (e : Entry) (s : State) : Within aborted s (pageAbort e s) :=
  pageAbort_changesOnly e s _ (List.mem_singleton.mpr rfl) _ rfl

theorem decideWaiting_within (s : State) : Within roleKept s (decideWaiting s) :=
  .foldl (fun t (r : InFlight) => .ite (pageCommit_within r.entry t).widen
    (.ite (pageAbort_within r.entry t).widen (.refl t))) _ s

/-- A take-over ends in the role that adoption has taken (R262, R264). -/
theorem takeOver_within {s : State} (h : epochBase s + 1 ≠ 2 ^ 32 - 1) : Within roleKept (roleTaken s) (takeOver s) := by
  have hput (t : State) : Within roleKept t { t with par := { t.par with pageEnds := [] } } := rfl
  have hresolved (t : State) : Within roleKept t (resolveAll t) := (resolveChain_within t _).widen
  have hadopted := adopt_within h
  have hrest := ((hadopted.andThen (F := roleKept) (resumeMotion_within _)).andThen (F := roleKept)
    (decideWaiting_within _)).andThen (F := roleKept) (unshadowRest_within _)
  exact .ite ((hrest.andThen (F := roleKept) (hput _)).andThen (hresolved _)) hadopted

end Sys2Proof.Machine
end

section
/-! SUPPORT. The states that the events of the partner link and of the roles leave (R228, R259 to R270, R279, R282, R354). -/
set_option Elab.async false
namespace Sys2Proof.Machine

section
variable {s : State}

/-! PARTNER_MARK (R259, R264, R265). -/

/-- The state in which the partner's role and epoch are those of its MARK. -/
def markNoted (s : State) (role : Nat) (ep : Dword) : State :=
  { s with par := { s.par with partnerRole := role % 4, partnerEpoch := ep.toNat
                               gafferEpoch := if role = 1 then some ep.toNat else none } }

theorem exec_partnerMark {role : Nat} {ep : Dword} (hen : s.par.enabled = true) (hlink : s.par.linkRun = true)
    (hup : s.par.state ≠ .failed) : exec (.partnerMark role ep) s = .next
      (if isGaffer s ∧ role = 1 ∧ s.par.epoch < ep.toNat then depose (markNoted s role ep) ep.toNat
      else if s.par.state = .shadow ∧ role = 1 then
        { markNoted s role ep with par := { (markNoted s role ep).par with epoch := ep.toNat } }
      else markNoted s role ep) := by
  have hgo : ¬ (!(s.par.enabled && s.par.linkRun) || s.par.state == .failed) = true := by simp [hen, hlink, hup]
  refine (if_neg hgo).trans ?_
  rw [apply_ite Host.Outcome.next, apply_ite Host.Outcome.next]
  rfl

/-- A gaffer deposed shadows the gaffer of the higher epoch until ROLE_SEL has fallen (R264, R265). -/
theorem depose_par (s : State) (higher : Nat) :
    (depose s higher).par = { s.par with state := .shadow, mustFall := true, epoch := deposedTo s higher } := by
  have hreported : (raise (count s (cnum 6 1)) 0x0604 (it s.par.epoch ++ it higher)).par = s.par := by simp
  show { (raise (count s (cnum 6 1)) 0x0604 (it s.par.epoch ++ it higher)).par with
    state := .shadow, mustFall := true, epoch := deposedTo s higher } = _
  rw [hreported]

theorem partnerMark_answers (role : Nat) (ep : Dword) (hen : s.par.enabled = true) (hlink : s.par.linkRun = true)
    (hup : s.par.state ≠ .failed) : Answers (.partnerMark role ep) s (fun t => t.par.partnerRole = role % 4 ∧
      t.par.partnerEpoch = ep.toNat ∧ (s.par.state = .shadow → role = 1 → t.par.epoch = ep.toNat) ∧
      (s.par.state = .gaffer → role = 1 → s.par.epoch < ep.toNat → t.par.state = .shadow ∧ t.par.mustFall = true ∧
        t.par.epoch = ep.toNat)) := by
  have hexec := exec_partnerMark (role := role) (ep := ep) hen hlink hup
  have hgaffer : isGaffer s = true ↔ s.par.state = .gaffer := beq_iff_eq
  by_cases hdepose : isGaffer s ∧ role = 1 ∧ s.par.epoch < ep.toNat
  · obtain ⟨hg, hrole, habove⟩ := hdepose
    have hto : deposedTo (markNoted s role ep) ep.toNat = ep.toNat := by
      have hmark : (markNoted s role ep).par.gafferEpoch = some ep.toNat := if_pos hrole
      unfold deposedTo
      rw [hmark]
      exact if_pos habove
    refine answers_of_eq hexec (if_pos ⟨hg, hrole, habove⟩) ?_
    rw [depose_par, hto]
    exact ⟨rfl, rfl, fun _ _ => rfl, fun _ _ _ => ⟨rfl, rfl, rfl⟩⟩
  · have hnot : s.par.state = .gaffer → role = 1 → ¬ s.par.epoch < ep.toNat := fun hg hrole habove =>
      hdepose ⟨hgaffer.mpr hg, hrole, habove⟩
    by_cases hshadow : s.par.state = .shadow ∧ role = 1
    · exact answers_of_eq hexec ((if_neg hdepose).trans (if_pos hshadow)) ⟨rfl, rfl, fun _ _ => rfl,
        fun hg hrole habove => absurd habove (hnot hg hrole)⟩
    · exact answers_of_eq hexec ((if_neg hdepose).trans (if_neg hshadow)) ⟨rfl, rfl,
        fun hs hrole => absurd ⟨hs, hrole⟩ hshadow, fun hg hrole habove => absurd habove (hnot hg hrole)⟩

/-! PARTNER_DOWN and PARTNER_UP (R228, R269). -/

/-- The state once the partner link is lost, its group out of RUN. -/
def partnerLost (s : State) : State := partnerLinkLost (if (groupAt s 44).run then leaveRun s 44 else s)

theorem partnerLost_par (s : State) : (partnerLost s).par.linkRun = false ∧ (partnerLost s).par.partnerRole = 0 ∧
    (partnerLost s).par.state = s.par.state ∧ servitor (partnerLost s) = servitor s := by
  have hleft : Within runLeft s (if (groupAt s 44).run then leaveRun s 44 else s) := .ite (leaveRun_within s 44) (.refl s)
  have hlost := partnerLinkLost_within (if (groupAt s 44).run then leaveRun s 44 else s)
  exact ⟨hlost.untouched (·.par.linkRun), hlost.untouched (·.par.partnerRole),
    (hlost.untouched (·.par.state)).trans (hleft.untouched (·.par.state)), (hlost.untouched servitor).trans (hleft.untouched servitor)⟩

theorem partnerDown_answers (hlink : s.par.linkRun = true) : Answers .partnerDown s (fun t => t.par.linkRun = false ∧
    t.par.partnerRole = 0 ∧
    (servitor s = true → s.par.state ≠ .failed → t.par.state = .syncing ∧ t.par.autoDue = true ∧ t.par.rejoin = 0) ∧
    (servitor s = false → t.par.state = s.par.state)) := by
  obtain ⟨hrun, hrole, hstate, hserv⟩ := partnerLost_par s
  have hexec : exec .partnerDown s = .next (if !servitor (partnerLost s) || (partnerLost s).par.state == .failed then partnerLost s
      else loseStep (if (partnerLost s).par.state = .shadow then unshadowRest (endPartnerWaits (partnerLost s))
        else partnerLost s)) :=
    (if_neg (by simp [hlink])).trans (apply_ite Host.Outcome.next _ _ _).symm
  rw [hserv, hstate] at hexec
  by_cases hstays : (!servitor s || s.par.state == .failed) = true
  · refine answers_of_eq hexec (if_pos hstays) ⟨hrun, hrole, fun hs hup => ?_, fun _ => hstate⟩
    simp [hs, hup] at hstays
  · have hended : Within admitted (endPartnerWaits (partnerLost s)) (unshadowRest (endPartnerWaits (partnerLost s))) :=
      unshadowRest_within _
    have hkept : Within roleKept (partnerLost s) (if s.par.state = .shadow then unshadowRest (endPartnerWaits (partnerLost s))
        else partnerLost s) := .ite ((endPartnerWaits_within _).andThen hended) (.refl _)
    obtain ⟨hsyncing, hdue, hrejoin, hlink1, hrole1⟩ := loseStep_par (if s.par.state = .shadow then
      unshadowRest (endPartnerWaits (partnerLost s)) else partnerLost s)
    refine answers_of_eq hexec (if_neg hstays) ⟨hlink1.trans ((hkept.untouched (·.par.linkRun)).trans hrun),
      hrole1.trans ((hkept.untouched (·.par.partnerRole)).trans hrole), fun _ _ => ⟨hsyncing, hdue, hrejoin⟩, fun hs => ?_⟩
    simp [hs] at hstays

theorem partnerUp_answers (hen : s.par.enabled = true) (hup : s.par.state ≠ .failed) (hrun : (groupAt s 44).run = true)
    (hlink : s.par.linkRun = false) :
    Answers .partnerUp s (fun t => t.par.linkRun = true ∧ t.par.mseqRx = none ∧ t.mot.told = []) := by
  refine ⟨_, if_pos ⟨hen, hup, hrun, by simp [hlink]⟩, ?_⟩
  simp

/-! ROLE_SEL (R262, R264, R265, R279). -/

/-- The state in which ROLE_SEL is high. -/
def roleSelHigh (s : State) : State := { s with pins := { s.pins with roleSel := true } }

theorem exec_roleSelRise (hboot : bootRunning s = true) (hsleep : s.pwr.state ≠ .sleep) (hoff : s.pwr.state ≠ .off)
    (hshadow : s.par.state = .shadow) :
    exec .roleSelRise s = .next (if s.par.mustFall then roleSelHigh s else takeOver (roleSelHigh s)) := by
  have hgo : ¬ (!bootRunning s || s.pwr.state == .sleep || s.pwr.state == .off) = true := by simp [hboot, hsleep, hoff]
  refine (if_neg hgo).trans ?_
  rw [hshadow]
  rfl

theorem roleSelRise_answers (hboot : bootRunning s = true) (hsleep : s.pwr.state ≠ .sleep) (hoff : s.pwr.state ≠ .off)
    (hshadow : s.par.state = .shadow) :
    (s.par.mustFall = false → epochBase s + 1 ≠ 2 ^ 32 - 1 → Answers .roleSelRise s (fun t =>
      t.par.state = .gaffer ∧ t.par.epoch = epochBase s + 1 ∧ t.pins.roleSel = true)) ∧
    (s.par.mustFall = true → Answers .roleSelRise s (fun t => t.par = s.par ∧ t.pins.roleSel = true)) := by
  have hexec := exec_roleSelRise hboot hsleep hoff hshadow
  constructor
  · intro hfree hepoch
    have htaken := takeOver_within (s := roleSelHigh s) hepoch
    exact answers_of_eq hexec (if_neg (by simp [hfree])) ⟨htaken.untouched (·.par.state), htaken.untouched (·.par.epoch),
      htaken.untouched (·.pins.roleSel)⟩
  · intro hbarred
    exact answers_of_eq hexec (if_pos hbarred) ⟨rfl, rfl⟩

/-- The state in which ROLE_SEL is low, which frees the chip to adopt again (R265). -/
def roleSelLow (s : State) : State :=
  { s with pins := { s.pins with roleSel := false }, par := { s.par with mustFall := false, refusedRaised := false } }

theorem roleSelFall_answers (s : State) : Answers .roleSelFall s (fun t => t.pins.roleSel = false ∧ t.par.mustFall = false ∧
    (isGaffer s = true → bootRunning s = true → t.par.state = .shadow) ∧
    (isGaffer s = false → t.par.state = s.par.state)) := by
  have hexec : exec .roleSelFall s = .next (if isGaffer s ∧ bootRunning s then
      enterShadow (raise (roleSelLow s) 0x0602 (it s.par.epoch)) else roleSelLow s) := (apply_ite Host.Outcome.next _ _ _).symm
  by_cases hfalls : isGaffer s ∧ bootRunning s
  · have hreport : Within reported (roleSelLow s) (raise (roleSelLow s) 0x0602 (it s.par.epoch)) := raise_within _ _ _
    exact answers_of_eq hexec (if_pos hfalls) ⟨hreport.untouched (·.pins.roleSel), hreport.untouched (·.par.mustFall),
      fun _ _ => rfl, fun h => absurd (h.symm.trans hfalls.1) (by decide)⟩
  · exact answers_of_eq hexec (if_neg hfalls) ⟨rfl, rfl, fun hg hb => absurd ⟨hg, hb⟩ hfalls, fun _ => rfl⟩

/-! SENTINEL_LAPSE (R261, R411). -/

/-- A chip that fails drops its partner link and HEALTH (R261). -/
theorem failChip_fails (s : State) : (failChip s).par.state = .failed ∧ (failChip s).par.linkRun = false ∧
    (failChip s).pins.healthHigh = false := by
  unfold failChip
  generalize (List.range 40 ++ [44]).foldl leaveRun s = u
  exact ⟨rfl, (partnerLinkLost_within u).untouched (·.par.linkRun), rfl⟩

theorem sentinelLapse_answers (x : Sentinel) (hup : s.par.state ≠ .failed) (hon : s.pwr.state ≠ .off)
    (hheld : s.pins.resetHeld = false) (hwatch : x = .supply → supplyWatched s = true) :
    Answers (.sentinelLapse x) s (fun t => t.par.state = .failed ∧ t.par.linkRun = false ∧ t.pins.healthHigh = false) := by
  have hlapse : lapse s = failChip (endPartnerWaits s) := if_neg (by simp [hup, hon, hheld])
  have hexec : exec (.sentinelLapse x) s = .next (lapse s) := by
    cases x with
    | supply => exact congrArg Host.Outcome.next (if_pos (hwatch rfl))
    | _ => rfl
  exact answers_of_eq hexec hlapse (failChip_fails _)

theorem sentinelLapse_unwatched (h : supplyWatched s = false) : exec (.sentinelLapse .supply) s = .next s :=
  congrArg Host.Outcome.next (if_neg (by simp [h]))

theorem refTimeout_answers (hstep : s.par.rejoin = 4) (href : s.ftb.referenced = false) :
    Answers .refTimeout s (fun t => t.par.rejoin = 0 ∧ t.par.state = s.par.state) := by
  have hended := failRejoin_answered s 4 stRefTimeout 0
  exact ⟨_, if_pos ⟨hstep, by simp [href]⟩, hended.untouched (·.par.rejoin), hended.untouched (·.par.state)⟩

/-! Time exchanges (R267, R268, R270). -/

theorem speaks_link (h : speaks s = true) : isGaffer s = true ∧ s.par.linkRun = true := by
  simp only [speaks, Bool.and_eq_true] at h
  obtain ⟨⟨⟨hgaffer, -⟩, hlink⟩, -⟩ := h
  exact ⟨hgaffer, hlink⟩

/-- The gaffer's answer to a PTSYNC (R268, R270). -/
def tsyncSent (s : State) (tok : Nat) : State :=
  tellServitor s 7 (BitVec.ofNat 64 (tok % 2 ^ 16 * 2 ^ 48) ::
    (timeWords s.time.sec s.time.nsec ++ timeWords s.time.sec s.time.nsec))

theorem tsyncSent_par (hspeaks : speaks s = true) (tok : Nat) :
    (tsyncSent s tok).par = { s.par with mseqTx := (s.par.mseqTx + 1) % 2 ^ 24 } := by
  obtain ⟨hgaffer, hlink⟩ := speaks_link hspeaks
  rw [tsyncSent, tellServitor_sends hgaffer hlink]
  rfl

theorem ptsync_answers (tok : Nat) (hspeaks : speaks s = true) :
    (s.par.partnerRole ≠ 0 → Answers (.ptsync tok) s (fun t => t.par.ptSeen = 0 ∧
      t.par.mseqTx = (s.par.mseqTx + 1) % 2 ^ 24)) ∧
    (s.par.partnerRole = 0 → s.par.ptSeen < 15 → Answers (.ptsync tok) s (fun t => t.par.ptSeen = s.par.ptSeen + 1 ∧
      t.par.mseqTx = (s.par.mseqTx + 1) % 2 ^ 24)) ∧
    (s.par.partnerRole = 0 → 15 ≤ s.par.ptSeen → Answers (.ptsync tok) s (fun t => t.par.ptSeen = 0)) := by
  have hpar := tsyncSent_par hspeaks tok
  have hseen : (tsyncSent s tok).par.ptSeen = s.par.ptSeen := by rw [hpar]
  have hmseq : (tsyncSent s tok).par.mseqTx = (s.par.mseqTx + 1) % 2 ^ 24 := by rw [hpar]
  refine ⟨fun hrole => ?_, fun hrole hfew => ?_, fun hrole hmany => ?_⟩
  · exact ⟨_, (if_pos hspeaks).trans (if_pos hrole), rfl, hmseq⟩
  · have hmore : (tsyncSent s tok).par.ptSeen + 1 < 16 := by omega
    exact ⟨_, (if_pos hspeaks).trans ((if_neg (not_not.mpr hrole)).trans (if_pos hmore)), congrArg (· + 1) hseen, hmseq⟩
  · have hlast : ¬ (tsyncSent s tok).par.ptSeen + 1 < 16 := by omega
    exact ⟨_, (if_pos hspeaks).trans ((if_neg (not_not.mpr hrole)).trans (if_neg hlast)),
      (tellRejoin_within _).untouched (·.par.ptSeen)⟩

theorem ptsyncSend_answers (h : listens s = true) : Answers .ptsyncSend s (fun t =>
    t.par.ptToken = (s.par.ptToken + 1) % 2 ^ 16 ∧ ((s.par.ptToken + 1) % 2 ^ 16, nowNs s) ∈ t.par.ptSent) := by
  refine answers_of_eq rfl (if_pos h) ⟨rfl, ?_⟩
  show _ ∈ (s.par.ptSent ++ [((s.par.ptToken + 1) % 2 ^ 16, nowNs s)]).drop (s.par.ptSent.length + 1 - 64)
  rw [List.drop_append_of_le_length (by omega)]
  exact List.mem_append_right _ (List.mem_singleton.mpr rfl)

/-! The gaffer's sends (R268, R354). -/

theorem posrefSend_answers (hspeaks : speaks s = true) : Answers .posrefSend s (fun t =>
    t.par.mseqTx = (s.par.mseqTx + 1) % 2 ^ 24 ∧ t.par.state = s.par.state ∧ lineCounter t = lineCounter s) := by
  obtain ⟨hgaffer, hlink⟩ := speaks_link hspeaks
  have hpaced := advancePacing_within s (nowUnits s)
  have hmseq : (advancePacing s (nowUnits s)).par.mseqTx = s.par.mseqTx := hpaced.untouched (·.par.mseqTx)
  have hsends := tellServitor_sends ((hpaced.untouched isGaffer).trans hgaffer) ((hpaced.untouched (·.par.linkRun)).trans hlink) 5
    (posrefWords (advancePacing s (nowUnits s)))
  refine answers_of_eq (if_pos hspeaks) hsends ⟨?_, hpaced.untouched (·.par.state), advancePacing_hwm s (nowUnits s)⟩
  show ((advancePacing s (nowUnits s)).par.mseqTx + 1) % 2 ^ 24 = _
  rw [hmseq]

theorem locksSend_answers (hspeaks : speaks s = true) : Answers .locksSend s (fun t =>
    t.par.mseqTx = (s.par.mseqTx + 1) % 2 ^ 24 ∧ t.par.state = s.par.state ∧ lineCounter t = lineCounter s) := by
  obtain ⟨hgaffer, hlink⟩ := speaks_link hspeaks
  exact answers_of_eq rfl ((if_pos hspeaks).trans (tellServitor_sends hgaffer hlink _ _)) ⟨rfl, rfl, rfl⟩

theorem motionSend_answers (hgaffer : isGaffer s = true) (hen : s.par.enabled = true) (hlink : s.par.linkRun = true) :
    Answers .motionSend s (fun t => t.par.mseqTx = (s.par.mseqTx + 1) % 2 ^ 24 ∧ t.mot.axes = s.mot.axes ∧
      t.mot.loops = s.mot.loops) :=
  ⟨_, if_pos (by simp [hgaffer, hen, hlink]), rfl, rfl, rfl⟩

end

/-- Settles O26: a take-over ends in the role that adoption took (`takeOver_within`); a link lost is `partnerLost_par`. -/
theorem pairLinkAndRoles : Obligations.PairLinkAndRoles := by
  intro s
  refine ⟨partnerMark_answers, partnerDown_answers, partnerUp_answers, roleSelRise_answers, roleSelFall_answers s,
    sentinelLapse_answers, sentinelLapse_unwatched, refTimeout_answers, ptsync_answers, ptsyncSend_answers, ?_, motionSend_answers⟩
  rintro c (rfl | rfl) hspeaks
  · exact posrefSend_answers hspeaks
  · exact locksSend_answers hspeaks

end Sys2Proof.Machine
end

section
/-! SUPPORT. The states that the commands of the assay leave (R232, R233, R237, R243, R249, R252, R255, R303, R404). -/
set_option Elab.async false
namespace Sys2Proof.Machine

section
variable {e : Entry} {s : State} {r : InFlight}

/-! ASSAY_SETUP (R232, R233, R237, R249). -/

/-- `s` with the setup `a` in force and the statistics empty (R233). -/
def setupPut (s : State) (a : AsySetup) : State :=
  { s with asy := { s.asy with setup := some a, windows := [], stripe := [], wants := [], drops := [], variantsDue := false } }

/-- The assay's state but for the cameras' alignment and the note that a servitor's variants are to come (R234, R271). -/
def assayBook (s : State) : Asy := { s.asy with cams := [], variantsDue := false }

theorem awaitVariants_book (s : State) (a : AsySetup) : assayBook (awaitVariants s a) = assayBook s := by
  unfold awaitVariants
  split
  · dsimp only
    split
    · exact (endCurvePoison_within _ _).untouched assayBook
    · rfl
  · rfl

/-- What follows a setup put in force, its cameras aligned anew and the update of its curves, leaves the rest of the assay's state
as it is. -/
theorem startAssay_book (s : State) (a : AsySetup) : assayBook (startAssay s a) = assayBook (setupPut s a) := by
  have haligned : assayBook (realign (setupPut s a) s.asy.setup a) = assayBook (setupPut s a) :=
    (realign_within _ _ a).untouched assayBook
  refine Eq.trans ?_ haligned
  unfold startAssay
  dsimp only
  split
  · rfl
  · split
    · exact awaitVariants_book _ a
    · split
      · rfl
      · exact (formCurves_within _ _ _).untouched assayBook

theorem assaySetup_answers (hT : Turn 0x0301 e s r) (hrsv : rsvOk e [0, 0, allBits, allBits] = true) (halign : pq e 2 % 64 = 0)
    (hjob : s.job ≠ none) (hread : hostReadEnd s (pq e 2) 256 = .ok) (hok : setupOk s (hostDws s (pq e 2) 64) = true)
    (hsees : setupSees s (setupOf (hostDws s (pq e 2) 64)) = true)
    (hroom : forms s = false ∨ autoPlanes (setupOf (hostDws s (pq e 2) 64)) = [] ∨ s.asy.curveLock = true ∨
      (s.tables.curveUpds.filter (updPending s)).length < 8) :
    Answers (.assaySetup e) s (fun t => ∃ u : State, t = finish u r stOk [] ∧
      u.asy.setup = some (setupOf (hostDws s (pq e 2) 64)) ∧ u.asy.windows = [] ∧ u.asy.stripe = [] ∧ u.asy.wants = [] ∧
      u.asy.due = s.asy.due ∧ u.job = s.job) := by
  have hfree : (forms s && !(autoPlanes (setupOf (hostDws s (pq e 2) 64))).isEmpty && !s.asy.curveLock &&
      decide (8 ≤ (s.tables.curveUpds.filter (updPending s)).length)) = false := by
    rcases hroom with h | h | h | h
    · simp [h]
    · simp [h]
    · simp [h]
    · simp [Nat.not_le.mpr h]
  refine completes_of_exec (u := startAssay s (setupOf (hostDws s (pq e 2) 64)))
    (congrArg Host.Outcome.next ((command_passes hT rfl (by simp [hrsv, halign, Option.isSome_iff_ne_none, hjob])).trans ?_)) ?_
  · rw [withRecord_ok hread, checked_pass (by simp only [hok, hsees, hfree]; rfl), settle_okWith]
  · have hbook := startAssay_book s (setupOf (hostDws s (pq e 2) 64))
    exact ⟨congrArg Asy.setup hbook, congrArg Asy.windows hbook, congrArg Asy.stripe hbook, congrArg Asy.wants hbook,
      (congrArg Asy.due hbook :), (startAssay_within s _).untouched State.job⟩

/-! ASSAY_STOP and ASSAY_LOCK (R252, R255). -/

theorem assayStop_answers (hT : Turn 0x0302 e s r) (hrsv : rsvOk e [] = true) :
    Answers (.assayStop e) s (fun t => ∃ u : State, t = finish u r stOk [] ∧
      u.asy.setup = none ∧ u.asy.windows = [] ∧ u.asy.stripe = [] ∧ u.asy.wants = [] ∧ u.asy.due = [] ∧
      u.asy.verdicts = s.asy.verdicts ∧ u.tables = s.tables) := by
  refine completes_of_exec
    (congrArg Host.Outcome.next ((command_passes hT rfl (by simp [hrsv])).trans (settle_okWith ..))) ?_
  exact ⟨rfl, rfl, rfl, rfl, rfl, rfl, rfl⟩

/-- The locks as a word: CENSUS_HOLD, CURVE_LOCK and MAP_LOCK from bit 2 down (R252). -/
def locksWord (a : Asy) : Nat :=
  (if a.censusHold then 4 else 0) + (if a.curveLock then 2 else 0) + (if a.mapLock then 1 else 0)

/-- The locks that ASSAY_LOCK's mask names, set. -/
def locksSet (s : State) (e : Entry) : State :=
  putLocks s (if bitOf (pw e 0) 8 then bitOf (pw e 0) 0 else s.asy.mapLock)
    (if bitOf (pw e 0) 9 then bitOf (pw e 0) 1 else s.asy.curveLock)
    (if bitOf (pw e 0) 10 then bitOf (pw e 0) 2 else s.asy.censusHold)

/-- `u`, whose locks a command at `s` set, with the servitor told where they changed (R268). -/
def locksTold (s u : State) : State := if locksWord u.asy = locksWord s.asy then u else tellLocks u

theorem locksTold_asy (s u : State) : (locksTold s u).asy = u.asy := by
  unfold locksTold
  split
  · rfl
  · exact (tellLocks_within u).untouched State.asy

theorem exec_assayLock (hT : Turn 0x0303 e s r) (hrsv : rsvOk e [0x707] = true) (hmask : fld (pw e 0) 8 3 ≠ 0) :
    exec (.assayLock e) s = .next (finish (locksTold s (locksSet s e)) r stOk
      [BitVec.ofNat 32 (locksWord (locksSet s e).asy)]) := by
  rw [← it_natCast]
  exact congrArg Host.Outcome.next ((command_passes hT rfl (by simp [hrsv, hmask])).trans (settle_okWith ..))

theorem assayLock_answers (hT : Turn 0x0303 e s r) (hrsv : rsvOk e [0x707] = true) (hmask : fld (pw e 0) 8 3 ≠ 0) :
    Answers (.assayLock e) s (fun t => ∃ u : State, t = finish u r stOk [BitVec.ofNat 32 (locksWord u.asy)] ∧
      u.asy.mapLock = (if bitOf (pw e 0) 8 then bitOf (pw e 0) 0 else s.asy.mapLock) ∧
      u.asy.curveLock = (if bitOf (pw e 0) 9 then bitOf (pw e 0) 1 else s.asy.curveLock) ∧
      u.asy.censusHold = (if bitOf (pw e 0) 10 then bitOf (pw e 0) 2 else s.asy.censusHold) ∧ u.asy.setup = s.asy.setup) := by
  refine ⟨_, exec_assayLock hT hrsv hmask, locksTold s (locksSet s e), ?_, ?_⟩
  · rw [locksTold_asy]
  · rw [locksTold_asy]
    exact ⟨rfl, rfl, rfl, rfl⟩

/-! CENSUS_REQUEST (R243). -/

theorem mem_addDue (s : State) (plane p : Nat) : p ∈ (addDue s plane).asy.due ↔ p ∈ s.asy.due ∨ p = plane := by
  unfold addDue
  split
  · next hin => exact (or_iff_left_of_imp fun h => h ▸ List.contains_iff_mem.mp hin).symm
  · show p ∈ (s.asy.due ++ [plane]).insertionSort (· ≤ ·) ↔ _
    rw [List.mem_insertionSort, List.mem_append, List.mem_singleton]

theorem mem_addDues (planes : List Nat) (s : State) (p : Nat) :
    p ∈ (planes.foldl addDue s).asy.due ↔ p ∈ s.asy.due ∨ p ∈ planes := by
  induction planes generalizing s with
  | nil => simp
  | cons plane planes ih => rw [List.foldl_cons, ih, mem_addDue, List.mem_cons, or_assoc]

theorem censusRequest_answers (hT : Turn 0x0304 e s r) (hrsv : rsvOk e [0xFFFF] = true) :
    Answers (.censusRequest e) s (fun t => ∃ (u : State) (res : List Dword), t = finish u r stOk res ∧
      ∀ p, p ∈ u.asy.due ↔ p ∈ s.asy.due ∨ (p ∈ observedPlanes s ∧ bitOf (pw e 0) p = true)) := by
  refine ⟨_, congrArg Host.Outcome.next ((command_passes hT rfl (by simp [hrsv])).trans (settle_okWith ..)), _, _, rfl, fun p => ?_⟩
  rw [mem_addDues, List.mem_filter]

/-! ASSAY_RESULTS and ASSAY_PIXELS (R255, R303, R404). -/

/-- A query whose data has been written completes with OK, or, where some of it was read poisoned, marks the write and completes
with POISONED_DATA (R303). -/
theorem query_completes {c : Instr} {u : State} {op addr bytes : Nat} {res : List Dword}
    (hexec : exec c s = .next (settle s r (queryDone u op addr bytes res))) (hmem : u.mem = s.mem) :
    (op ∉ s.mem.queryPoison → exec c s = .next (finish u r stOk res)) ∧
    (op ∈ s.mem.queryPoison → exec c s = .next (finish (emit { u with mem := { u.mem with
      queryPoison := u.mem.queryPoison.erase op } } (.epWrite addr bytes)) r stPoisonedData res)) := by
  rw [hexec, queryDone, ← hmem]
  constructor
  · intro hclean
    rw [if_neg (by simpa using hclean), settle_okWith]
  · intro hpoison
    rw [if_pos (by simpa using hpoison), settle_done]

/-- ASSAY_RESULTS' result: the band's end last judged of the plane, -1 for none, and the reference of the module-plane (R404). -/
def resultsRecord (s : State) (k : Nat) : List Dword :=
  ((assoc s.asy.judged (planeOf (k / 4) (k % 4))).elim (itq (-1)) itq) ++
    it ((((mapGet none s.asy.rref k).elim 0 fun x => fld (BitVec.ofInt 32 x) 0 16) : Nat) : Int)

/-- ASSAY_RESULTS past its checks writes the verdict bytes of its module-plane. -/
theorem exec_assayResults (hT : Turn 0x0305 e s r) (hrsv : rsvOk e [0x33F, 0, allBits, allBits] = true)
    (h40 : fld (pw e 0) 0 6 < 40) (halign : pq e 2 % 64 = 0) :
    let k := mp (fld (pw e 0) 0 6) (fld (pw e 0) 8 2)
    exec (.assayResults e) s = .next (settle s r (queryDone
      (hostPut s (pq e 2) ((List.range 199680).map fun i => verdictByte s k (199680 * k + i))) 0x0305 (pq e 2) 199680
      (resultsRecord s k))) := by
  intro k
  have hmodule : k / 4 = fld (pw e 0) 0 6 ∧ k % 4 = fld (pw e 0) 8 2 := by
    have hq : fld (pw e 0) 8 2 < 4 := fld_lt (pw e 0) 8 2
    simp only [k, mp]
    omega
  obtain ⟨hdiv, hmod⟩ := hmodule
  refine congrArg Host.Outcome.next ((command_passes hT rfl (by simp [hrsv, h40, halign])).trans (congrArg (settle s r) ?_))
  dsimp only
  rw [List.length_map, List.length_range, resultsRecord, hdiv, hmod]
  congr 2
  · cases assoc s.asy.judged (planeOf (fld (pw e 0) 0 6) (fld (pw e 0) 8 2)) <;> rfl
  · congr 2
    cases mapGet none s.asy.rref k <;> rfl

/-- ASSAY_PIXELS past its checks, with a setup, writes the records of its camera's used pixels. -/
theorem exec_assayPixels {a : AsySetup} (hT : Turn 0x0306 e s r) (hrsv : rsvOk e [0xF03, 0, allBits, allBits] = true)
    (halign : pq e 2 % 8 = 0) (hsetup : s.asy.setup = some a) :
    let us := usedPixels (camCfg a (fld (pw e 0) 0 2))
    exec (.assayPixels e) s = .next (settle s r (queryDone
      (hostPutDws s (pq e 2) (us.flatMap (pixelRecord s a (fld (pw e 0) 0 2) (fld (pw e 0) 8 4)))) 0x0306 (pq e 2)
      (8 * us.length) [BitVec.ofNat 32 us.length])) := by
  intro us
  refine congrArg Host.Outcome.next ((command_passes hT rfl (by simp [hrsv, halign])).trans ?_)
  rw [hsetup]
  dsimp only
  rw [it_natCast]

theorem exec_assayPixels_noSetup (hT : Turn 0x0306 e s r) (hrsv : rsvOk e [0xF03, 0, allBits, allBits] = true)
    (halign : pq e 2 % 8 = 0) (hsetup : s.asy.setup = none) : exec (.assayPixels e) s = .next (finish s r stOk [0]) := by
  refine congrArg Host.Outcome.next ((command_passes hT rfl (by simp [hrsv, halign])).trans ?_)
  rw [hsetup]
  rfl

end

/-- Settles O24: what follows a setup put in force leaves the statistics empty (`startAssay_book`); the due set after a census
request is `mem_addDues`; the ends of a query are `query_completes`. -/
theorem assayCommands : Obligations.AssayCommands := by
  intro e s r
  refine ⟨assaySetup_answers, assayStop_answers, assayLock_answers, censusRequest_answers, ?_, ?_⟩
  · intro k hT hrsv h40 halign res t
    exact query_completes (exec_assayResults hT hrsv h40 halign) (by simp [t])
  · intro hT hrsv halign
    refine ⟨exec_assayPixels_noSetup hT hrsv halign, ?_⟩
    intro a hsetup us t
    exact query_completes (exec_assayPixels hT hrsv halign hsetup) (by simp [t])

end Sys2Proof.Machine
end
